-- ==== Sys2Proof/Word.lean ====
section
/-! DEFINITION. The word types of the part (registers are 32 bits wide, R6) and the two carriers of sparse state:
a table keyed by object number and a byte memory in one canonical form. -/
namespace Sys2Proof

/-- One byte. -/
abbrev Byte := BitVec 8
/-- A 32-bit register (R6). -/
abbrev W32 := BitVec 32
/-- A 64-bit register pair, an address or a time (R6). -/
abbrev W64 := BitVec 64

/-- Objects by number, e.g. submission queues by SQID. At most one entry per key is read (the first). -/
abbrev Tbl (α : Type) := List (Nat × α)

/-- Nanoseconds per microsecond, and per millisecond. -/
def usNs : Nat := 1000
def msNs : Nat := 1000000

/-- KiB, MiB and GiB are binary (R5). -/
def kib : Nat := 1024
def mib : Nat := 1024 * 1024
def gib : Nat := 1024 * 1024 * 1024

end Sys2Proof
end

