-- ==== Sys2Proof/Syntax.lean ====
section
/-! DEFINITION. The commands of the part: one constructor of `Instr` per row of the table of operations and events.
An operand names the object a command acts on, or carries what the OUTSIDE supplied with it: the bytes a host read
returned, the status a NAND chip reported, a received frame, the level of a pin (log 1). Object numbers are plain
numbers; `WellFormed.lean` says which are in range. -/
namespace Sys2Proof

/-- What a read of host memory, of a Yard line or of a NOR returned: the bytes, or a PCIe error, completion timeout
or uncorrectable error. -/
inductive Rd where
  | error
  | data (bs : List Byte)
  deriving DecidableEq, Repr

/-- How the outside served a word's data transfer (Table 3.16, Table 10.4). -/
inductive XStatus where
  | ok
  | link      -- PCIe error, completion timeout, or a port link down
  | decode    -- a codeword failed decoding and every step of the ladder, or a page program failed
  | timeout   -- no progress: the mover's stall timeout
  deriving DecidableEq, Repr

/-- What the outside supplied to a word: the bytes read from host memory, from a port or from a raw NAND page, in
order; the transfer's status; the DEVSTAT bits a port reported; whether the port was busy with an earlier order. -/
structure Xfer where
  data : List Byte
  status : XStatus
  devstat : Byte
  busy : Bool
  deriving DecidableEq, Repr

/-- Nothing supplied, and nothing failed. -/
def Xfer.none : Xfer := { data := [], status := .ok, devstat := 0, busy := false }

/-- A queue pair's side: an I/O queue by number, or a function's admin queue. -/
inductive QRef where
  | io (n : Nat)
  | adm (fn : Nat)
  deriving DecidableEq, Repr

/-- A stage of a long (L) command: its start, or its commit point with what its work found (R350, R351). -/
inductive LStage where
  | start
  | commit (pass : Bool) (result : List Byte)
  deriving DecidableEq, Repr

/-- The parts of a boot image (R442 to R446): firmware, configuration block and microcode with their signature blocks, and the ISA minor
and build of the microcode, which lie in it at places the manual does not state. -/
structure Image where
  fw : List Byte
  config : List Byte
  fwBlock : List Byte
  ucode : List Byte
  ucBlock : List Byte
  minor : Nat
  build : Nat
  deriving DecidableEq, Repr

/-- What a boot NOR holds at its selector (Table 16.3): the selector's generation and area, the image there, and what the arithmetic of
the two signatures of firmware and of microcode gives: 0x0, 0x4 or 0x6 of Table 14.4 (DESIGN CHOICE, log 59: an operand). -/
structure NorImage where
  gen : Nat
  area : Bool
  img : Image
  fwSig : Nat
  ucSig : Nat
  deriving DecidableEq, Repr

/-- What MEDIA_CHARACTERISE found on a LUN (R263): its Read ID, its factory bad blocks, whether the measurements of steps 4 and 5
passed, and the default threshold learned for each page type. -/
structure LunProbe where
  lun : Nat
  id : List Byte
  bad : List Nat
  ok : Bool
  thr : List Int
  deriving DecidableEq, Repr

/-- A report to the Fault Collector from outside the modelled units: class, detail, unit kind, unit id, bytes 16 to
23 of its log entry, and whether its signal stays asserted (R369, R373). -/
structure ExtReport where
  cls : Nat
  detail : Nat
  kind : Nat
  unit : Nat
  info : W64
  held : Bool
  deriving DecidableEq, Repr

/-- The commands. -/
inductive Instr where
  | sqTailDoorbell (fn off : Nat) (v : W32)                    -- SQ_TAIL_DOORBELL
  | cqHeadDoorbell (fn off : Nat) (v : W32)                    -- CQ_HEAD_DOORBELL
  | sqEntryFetch (q : QRef) (r : Rd)                           -- SQ_ENTRY_FETCH
  | ownReread (q : QRef) (r : Rd)                              -- OWN_REREAD
  | sqOwnTimeout (q : QRef)                                    -- SQ_OWN_TIMEOUT
  | admitStart (sq : Nat) (first : Rd)                         -- ADMIT_START
  | seatFreedPlacement (sq : Nat)                              -- SEAT_FREED_PLACEMENT
  | resumeEntry (sq : Nat)                                     -- RESUME_ENTRY
  | haltHoldEntry (sq : Nat)                                   -- HALT_HOLD_ENTRY
  | haltEntry (sq : Nat)                                       -- HALT_ENTRY
  | sqEnableWrite (fn n : Nat) (v : W32)                       -- SQ_ENABLE_WRITE
  | haltAll (fn n : Nat) (v : W32)                             -- HALT_ALL
  | aqEnable (fn : Nat) (v : W32)                              -- AQ_ENABLE
  | completionPost (q : QRef)                                  -- COMPLETION_POST
  | heldCompletionPost (cq : Nat)                              -- HELD_COMPLETION_POST
  | msixCoalesceTimeout (cq : Nat)                             -- MSIX_COALESCE_TIMEOUT
  | cqStalled (cq : Nat)                                       -- CQ_STALLED
  | adminEventPost (fn : Nat)                                  -- ADMIN_EVENT_POST
  | ccwFetch (e : Nat) (host : List (Nat × Rd))                -- CCW_FETCH
  | nop (e : Nat)                                              -- NOP
  | tic (e : Nat) (target : Rd)                                -- TIC
  | loop (e : Nat)                                             -- LOOP
  | branch (e : Nat)                                           -- BRANCH
  | wait (e : Nat)                                             -- WAIT
  | waitLimitExpiry (e : Nat)                                  -- WAIT_LIMIT_EXPIRY
  | deviceTimeWaitDone (e : Nat)                               -- DEVICE_TIME_WAIT_DONE
  | signalDoorbell (e : Nat)                                   -- SIGNAL_DOORBELL
  | signalInterrupt (e : Nat)                                  -- SIGNAL_INTERRUPT
  | signalMailboxWord (e : Nat) (stampsAgree : Bool)           -- SIGNAL_MAILBOX_WORD
  | signalBarrierArrival (e : Nat)                             -- SIGNAL_BARRIER_ARRIVAL
  | signalRequestAcknowledge (e : Nat)                         -- SIGNAL_REQUEST_ACKNOWLEDGE
  | suspend (e : Nat)                                          -- SUSPEND
  | halt (e : Nat)                                             -- HALT
  | postNotice (e : Nat)                                       -- POST_NOTICE
  | postStatusWord (e : Nat) (x : Xfer)                        -- POST_STATUS_WORD
  | call (e : Nat)                                             -- CALL
  | ret (e : Nat)                                              -- RETURN
  | move (e : Nat) (x : Xfer)                                  -- MOVE
  | append (e : Nat) (x : Xfer)                                -- APPEND
  | readStream (e : Nat) (x : Xfer)                            -- READ_STREAM
  | regionWrite (e : Nat) (x : Xfer)                           -- REGION_WRITE
  | regionRead (e : Nat) (x : Xfer)                            -- REGION_READ
  | vaultRead (e : Nat) (x : Xfer)                             -- VAULT_READ
  | portOut (e : Nat) (x : Xfer)                               -- PORT_OUT
  | portIn (e : Nat) (x : Xfer)                                -- PORT_IN
  | fill (e : Nat) (x : Xfer)                                  -- FILL
  | setg (e : Nat)                                             -- SETG
  | addg (e : Nat)                                             -- ADDG
  | loadg (e : Nat) (x : Xfer)                                 -- LOADG
  | storeg (e : Nat) (x : Xfer)                                -- STOREG
  | testg (e : Nat)                                            -- TESTG
  | seal (e : Nat)                                             -- SEAL
  | trim (e : Nat)                                             -- TRIM
  | sync (e : Nat)                                             -- SYNC
  | syncComplete (e : Nat)                                     -- SYNC_COMPLETE
  | syncLimitExpiry (e : Nat)                                  -- SYNC_LIMIT_EXPIRY
  | sense (e : Nat) (x : Xfer)                                 -- SENSE
  | landingChargeGrant (c0 : Bool) (x : Xfer)                  -- LANDING_CHARGE_GRANT
  | stepTimeout (e : Nat)                                      -- STEP_TIMEOUT
  | deadlineExpiry (e : Nat)                                   -- DEADLINE_EXPIRY
  | selftestTurn (c : Nat)                                     -- SELFTEST_TURN
  | selftestComplete (c : Nat) (pass : Bool)                   -- SELFTEST_COMPLETE
  | clusterGate (c : Nat)                                      -- CLUSTER_GATE
  | clusterWake (c : Nat)                                      -- CLUSTER_WAKE
  | clusterWakeReady (c : Nat)                                 -- CLUSTER_WAKE_READY
  | barrierCfgWrite (mid b : Nat) (v : W32)                    -- BARRIER_CFG_WRITE
  | broadcast (order : Nat) (mask : BitVec 16)                 -- BROADCAST
  | broadcastComplete                                          -- BROADCAST_COMPLETE
  | snapshotGo (mid : Nat) (v : W32)                           -- SNAPSHOT_GO
  | clusterReset (c : Nat)                                     -- CLUSTER_RESET
  | clusterReady (c : Nat) (failed : List Nat)                 -- CLUSTER_READY
  | descriptorWrite (m ch : Nat) (d : List Byte)               -- DESCRIPTOR_WRITE
  | descriptorComplete (m ch : Nat) (x : Xfer)                 -- DESCRIPTOR_COMPLETE
  | moverStallTimeout (m ch : Nat)                             -- MOVER_STALL_TIMEOUT
  | dreqRequest (n : Nat)                                      -- DREQ_REQUEST
  | mvMove (m : Nat) (x : Xfer)                                -- MV_MOVE
  | mvLoop (m : Nat)                                           -- MV_LOOP
  | mvWait (m : Nat) (norReady : Bool)                         -- MV_WAIT
  | mvSignal (m : Nat)                                         -- MV_SIGNAL
  | mvEnd (m : Nat)                                            -- MV_END
  | lqReassign (m : Nat)                                       -- LQ_REASSIGN
  | cplPush (mid q : Nat) (hi : W32)                           -- CPL_PUSH
  | cplPop (mid q : Nat)                                       -- CPL_POP
  | cplFlush (mid q : Nat)                                     -- CPL_FLUSH
  | cplReserveWrite (mid q : Nat) (v : W32)                    -- CPL_RESERVE_WRITE
  | frameStart                                                 -- FRAME_START
  | slotStart (t : Nat)                                        -- SLOT_START
  | arbiterHold (arb : Nat) (kind unit : Nat) (heldUs : Nat)   -- ARBITER_HOLD
  | boundVoidExpiry                                            -- BOUND_VOID_EXPIRY
  | pageProgramComplete (lun : Nat) (pass : Bool)              -- PAGE_PROGRAM_COMPLETE
  | nandOpTimeout (lun : Nat)                                  -- NAND_OP_TIMEOUT
  | rowCloseTimeout (seg : Nat)                                -- ROW_CLOSE_TIMEOUT
  | fastLanePageProgram                                        -- FAST_LANE_PAGE_PROGRAM
  | c0BoundMiss (detail gid : Nat)                             -- C0_BOUND_MISS
  | annealTask                                                 -- ANNEAL_TASK
  | scrubPeriod (seg : Nat)                                    -- SCRUB_PERIOD
  | retentionRelease (stream : Nat)                            -- RETENTION_RELEASE
  | checkpointWrite                                            -- CHECKPOINT_WRITE
  | landingLimitRecompute (vbankMv : Nat)                      -- LANDING_LIMIT_RECOMPUTE
  | tripRecompute                                              -- TRIP_RECOMPUTE
  | pulseStart (vbankMv : Nat)                                 -- PULSE_START
  | pulseEnd (samples : List Nat)                              -- PULSE_END
  | capPublish (vbankMv : Nat)                                 -- CAP_PUBLISH
  | bankStale                                                  -- BANK_STALE
  | quenchArmCheck (bad : List Nat) (reloaded : Bool)          -- QUENCH_ARM_CHECK
  | armingTimeout                                              -- ARMING_TIMEOUT
  | quenchTrigger (pfailLow : Bool) (vbankMv : Nat)            -- QUENCH_TRIGGER
  | quenchSeal (pass : Bool)                                   -- QUENCH_SEAL
  | holdEntry (pfailHigh : Bool) (vbankMv : Nat)               -- HOLD_ENTRY
  | holdExitReset                                              -- HOLD_EXIT_RESET
  | supplyCollapse (vbat : Bool)                               -- SUPPLY_COLLAPSE
  | powerUp (xtalOk : Bool)                                    -- POWER_UP
  | bootComplete (xh0 xh1 : Option NorImage)                   -- BOOT_COMPLETE
  | loadComplete (luns : List (Nat × List Byte)) (failed : List Nat)  -- LOAD_COMPLETE
  | rebuildComplete (lost : List (Nat × Nat)) (manifest : Bool) (weak : List Nat)  -- REBUILD_COMPLETE
  | engineErrorLine (e : Nat)                                  -- ENGINE_ERROR_LINE
  | heartbeatRequest (missing : List Nat)                      -- HEARTBEAT_REQUEST
  | sourceCollected (ext : List ExtReport)                     -- SOURCE_COLLECTED
  | pairFault (cls kind unit : Nat)                            -- PAIR_FAULT
  | windowClose                                                -- WINDOW_CLOSE
  | quietPeriodEnd                                             -- QUIET_PERIOD_END
  | fcsClearFirst (mid : Nat) (v : W32)                        -- FCS_CLEAR_FIRST
  | mgpWatchdogExpiry                                          -- MGP_WATCHDOG_EXPIRY
  | lockstepMismatch                                           -- LOCKSTEP_MISMATCH
  | mgpRestartTimeout                                          -- MGP_RESTART_TIMEOUT
  | wdogService (selfCheck : Bool)                             -- WDOG_SERVICE
  | iwdgExpiry                                                 -- IWDG_EXPIRY
  | landingScrub (corrected uncorrectable : List Nat)          -- LANDING_SCRUB
  | vaultPinScrub (x : Nat) (bad : Bool)                       -- VAULT_PIN_SCRUB
  | railOutOfRange (rail : Nat)                                -- RAIL_OUT_OF_RANGE
  | clockFault (clk : Nat)                                     -- CLOCK_FAULT
  | createSq (fn : Nat)                                        -- CREATE_SQ
  | deleteSq (fn : Nat)                                        -- DELETE_SQ
  | createCq (fn : Nat)                                        -- CREATE_CQ
  | deleteCq (fn : Nat)                                        -- DELETE_CQ
  | createCrew (fn : Nat)                                      -- CREATE_CREW
  | deleteCrew (fn : Nat)                                      -- DELETE_CREW
  | bindSq (fn : Nat)                                          -- BIND_SQ
  | createStream (fn : Nat)                                    -- CREATE_STREAM
  | deleteStream (fn : Nat)                                    -- DELETE_STREAM
  | setRetention (fn : Nat)                                    -- SET_RETENTION
  | createRegion (fn : Nat)                                    -- CREATE_REGION
  | deleteRegion (fn : Nat)                                    -- DELETE_REGION
  | vaultInstall (fn : Nat) (d : Rd) (st : LStage)             -- VAULT_INSTALL
  | vaultActivate (fn : Nat)                                   -- VAULT_ACTIVATE
  | pinWindow (fn : Nat)                                       -- PIN_WINDOW
  | loadProgram (fn : Nat) (d : Rd)                            -- LOAD_PROGRAM
  | invalidatePrograms (fn : Nat)                              -- INVALIDATE_PROGRAMS
  | slotTableWrite (fn : Nat) (d : Rd)                         -- SLOT_TABLE_WRITE
  | slotTableSwap (fn : Nat)                                   -- SLOT_TABLE_SWAP
  | setWeights (fn : Nat)                                      -- SET_WEIGHTS
  | class0Contract (fn : Nat)                                  -- CLASS0_CONTRACT
  | propose (fn : Nat) (d : Rd)                                -- PROPOSE
  | ratify (fn : Nat) (d : Rd) (st : LStage)                   -- RATIFY
  | withdraw (fn : Nat)                                        -- WITHDRAW
  | accessRules (fn : Nat) (d : Rd)                            -- ACCESS_RULES
  | consentGroup (fn : Nat)                                    -- CONSENT_GROUP
  | rootHash (fn : Nat) (d : Rd)                               -- ROOT_HASH
  | rootRevoke (fn : Nat)                                      -- ROOT_REVOKE
  | deviceKeyRotate (fn : Nat) (st : LStage)                        -- DEVICE_KEY_ROTATE
  | rollbackFloor (fn : Nat)                                   -- ROLLBACK_FLOOR
  | vaultFloor (fn : Nat)                                      -- VAULT_FLOOR
  | lockedWrite (fn : Nat)                                     -- LOCKED_WRITE
  | yardPartition (fn : Nat) (d : Rd)                          -- YARD_PARTITION
  | vendorTable (fn : Nat) (d : Rd)                            -- VENDOR_TABLE
  | provisionLock (fn : Nat)                                   -- PROVISION_LOCK
  | debugUnlock (fn : Nat)                                     -- DEBUG_UNLOCK
  | debugUnlockSignature (slot : Nat) (valid : Bool)           -- DEBUG_UNLOCK_SIGNATURE
  | debugChallengeExpiry                                       -- DEBUG_CHALLENGE_EXPIRY
  | faultLogRead (fn : Nat)                                    -- FAULT_LOG_READ
  | reintegrate (fn : Nat) (st : LStage)                       -- REINTEGRATE
  | setReaction (fn : Nat)                                     -- SET_REACTION
  | energyStatus (fn : Nat)                                    -- ENERGY_STATUS
  | bankTest (fn : Nat) (st : LStage)                          -- BANK_TEST
  | mediaCharacterise (fn : Nat) (st : LStage) (probes : List LunProbe) (fast : Nat) -- MEDIA_CHARACTERISE
  | clusterTest (fn : Nat) (st : LStage)                       -- CLUSTER_TEST
  | yardTest (fn : Nat) (st : LStage)                          -- YARD_TEST
  | lunScan (fn : Nat) (st : LStage)                           -- LUN_SCAN
  | mediaReport (fn : Nat)                                     -- MEDIA_REPORT
  | portConfig (fn : Nat) (d : Rd)                             -- PORT_CONFIG
  | timeSet (fn : Nat)                                         -- TIME_SET
  | timeDiscipline (fn : Nat)                                  -- TIME_DISCIPLINE
  | disciplineSample (src port : Nat) (offset : W64)           -- DISCIPLINE_SAMPLE
  | holdoverEntry                                              -- HOLDOVER_ENTRY
  | modeRequestBoot (fn : Nat)                                 -- MODE_REQUEST_BOOT
  | modeRequestProvision (fn : Nat)                            -- MODE_REQUEST_PROVISION
  | modeRequestService (fn : Nat)                              -- MODE_REQUEST_SERVICE
  | modeRequestDiagnostic (fn : Nat)                           -- MODE_REQUEST_DIAGNOSTIC
  | identify (fn : Nat)                                        -- IDENTIFY
  | getTelemetry (fn : Nat)                                    -- GET_TELEMETRY
  | updateBegin (fn : Nat)                                     -- UPDATE_BEGIN
  | updateStage (fn : Nat) (d : Rd) (st : LStage) (img : Image) -- UPDATE_STAGE
  | updateFirmwareRestart (fn : Nat) (st : LStage)             -- UPDATE_FIRMWARE_RESTART
  | updateCluster (fn : Nat) (st : LStage)                     -- UPDATE_CLUSTER
  | updateCommit (fn : Nat) (st : LStage)                      -- UPDATE_COMMIT
  | updateAbandon (fn : Nat) (st : LStage)                     -- UPDATE_ABANDON
  | commandLimitExpiry (fn : Nat) (tag : W32)                  -- COMMAND_LIMIT_EXPIRY
  | sidebandPacket (port : Nat) (wire : List Byte)             -- SIDEBAND_PACKET
  | portReset (port : Nat)                                     -- PORT_RESET
  | flr (fn : Nat)                                             -- FLR
  | dlDown (port : Nat)                                        -- DL_DOWN
  | dlUp (port : Nat)                                          -- DL_UP
  | msixUnmask (fn vec : Nat)                                  -- MSIX_UNMASK
  | frameReceive (port : Nat) (bytes : List Byte)              -- FRAME_RECEIVE
  | fpLinkChange (port : Nat) (up : Bool)                      -- FP_LINK_CHANGE
  | fpCommitGateList (e : Nat) (x : Xfer)                      -- FP_COMMIT_GATE_LIST
  | gateListTakeEffect (port : Nat)                            -- GATE_LIST_TAKE_EFFECT
  | fpLinkDownOrder (e : Nat) (x : Xfer)                       -- FP_LINK_DOWN_ORDER
  | fpLinkUpOrder (e : Nat) (x : Xfer)                         -- FP_LINK_UP_ORDER
  | dreqClearPending (e : Nat) (x : Xfer)                      -- DREQ_CLEAR_PENDING
  | xtAssertHold (e : Nat) (x : Xfer)                          -- XT_ASSERT_HOLD
  | xtRelease (e : Nat) (x : Xfer)                             -- XT_RELEASE
  | xtResetCycle (e : Nat) (x : Xfer)                          -- XT_RESET_CYCLE
  | xtCycleDone (n : Nat) (pass : Bool)                        -- XT_CYCLE_DONE
  | xtWindowFault (n : Nat)                                    -- XT_WINDOW_FAULT
  | uartFlush (e : Nat) (x : Xfer)                             -- UART_FLUSH
  | i2cBusRecovery (e : Nat) (x : Xfer)                        -- I2C_BUS_RECOVERY
  | gpioSet (e : Nat) (x : Xfer)                               -- GPIO_SET
  | gpioClear (e : Nat) (x : Xfer)                             -- GPIO_CLEAR
  | gpioToggle (e : Nat) (x : Xfer)                            -- GPIO_TOGGLE
  | gpioEdge (line : Nat) (high : Bool)                        -- GPIO_EDGE
  | xtRead (n addr len : Nat)                                  -- XT_READ
  | xtPageProgram (n addr : Nat) (bytes : List Byte)           -- XT_PAGE_PROGRAM
  | xtRecordAccepted (n : Nat)                                 -- XT_RECORD_ACCEPTED
  | xtErase (n addr : Nat)                                     -- XT_ERASE
  | xtReadId (n : Nat)                                         -- XT_READ_ID
  | xtReadStatus (n : Nat)                                     -- XT_READ_STATUS
  | xtReadSfdp (n addr len : Nat)                              -- XT_READ_SFDP
  | xtWriteEnable (n : Nat)                                    -- XT_WRITE_ENABLE
  | xtWriteDisable (n : Nat)                                   -- XT_WRITE_DISABLE
  | xtVolatileConfigWrite (n : Nat) (v : Byte)                 -- XT_VOLATILE_CONFIG_WRITE
  | captureEdge (k : Nat)                                      -- CAPTURE_EDGE
  | ppsOutPulse                                                -- PPS_OUT_PULSE
  | mbxTxCommit (mid ch : Nat) (hi : W32) (stampsAgree : Bool) -- MBX_TX_COMMIT
  | mbxRxRead (mid ch : Nat)                                   -- MBX_RX_READ
  | mbxChannelCfg (mid ch : Nat) (v : W32)                     -- MBX_CHANNEL_CFG
  | mbxRxTimeout (ch : Nat) (dir : Bool)                       -- MBX_RX_TIMEOUT
  | tmrMatch (t : Nat)                                         -- TMR_MATCH
  | tmrCmpCommit (mid t : Nat) (hi : W32)                      -- TMR_CMP_COMMIT
  | tmrIntCommit (mid t : Nat) (hi : W32)                      -- TMR_INT_COMMIT
  | streamSnapshot (mid : Nat) (v : W32)                       -- STREAM_SNAPSHOT
  | tallyLatch (mid : Nat) (v : W32)                           -- TALLY_LATCH
  | registerWrite (mid bar off : Nat) (v : W32)                -- REGISTER_WRITE
  | consentExpiry (id : Nat)                                   -- CONSENT_EXPIRY
  | mvWaitExpiry (m : Nat)                                     -- MV_WAIT_EXPIRY
  | debugHalt                                                  -- DEBUG_HALT
  | debugHaltEnd                                               -- DEBUG_HALT_END
  | vbatApplied                                                -- VBAT_APPLIED
  | vbatRemoved                                                -- VBAT_REMOVED
  | blockEraseComplete (lun : Nat) (pass : Bool)               -- BLOCK_ERASE_COMPLETE
  | pageReadComplete (lun : Nat)                               -- PAGE_READ_COMPLETE
  | frameTransmit (port : Nat)                                 -- FRAME_TRANSMIT
  | gclIntervalEnd (port : Nat)                                -- GCL_INTERVAL_END
  | gptpMessageReceive (port kind : Nat) (v : W64)             -- GPTP_MESSAGE_RECEIVE
  | gptpIntervalTimeout (port kind : Nat)                      -- GPTP_INTERVAL_TIMEOUT
  | uartRxByte (n : Nat) (b : Byte)                            -- UART_RX_BYTE
  | uartIdleGap (n : Nat)                                      -- UART_IDLE_GAP
  | dreqDeassert (n : Nat)                                     -- DREQ_DEASSERT
  | holdInputLoss (pfailHigh : Bool) (vbankMv : Nat)           -- HOLD_INPUT_LOSS
  | pulseRecoveryTimeout (vbankMv : Nat)                       -- PULSE_RECOVERY_TIMEOUT
  | retentionRefreshDue (seg : Nat)                            -- RETENTION_REFRESH_DUE
  | handoverWindowEnd (c : Nat)                                -- HANDOVER_WINDOW_END
  | clientRstMinElapsed (n : Nat)                              -- CLIENT_RST_MIN_ELAPSED
  deriving DecidableEq, Repr

end Sys2Proof
end

