-- ==== Sys2Proof/Decode.lean ====
section
/-! DEFINITION. The word of a table row. The table gives no row any bits (its rows are operations and events of the
part, not words), so no word spells a command. -/
namespace Sys2Proof

/-- The command that a word spells by the table's bits: none, since no row of the table gives bits. -/
def decodeTableWord (_nbits _w : Nat) : Option Instr := none

end Sys2Proof
end

