-- ==== Sys2Proof/Config.lean ====
section
/-! DEFINITION. What the spec leaves open or to cryptography: free values and uninterpreted functions. Nothing in Lean
can evaluate them or prove a value of them. -/
namespace Sys2Proof

/-- A free byte, 64-bit value and number: any value at all, one for each reading of the state's counter (log 2). -/
opaque Config.freeByte : Nat → Byte
opaque Config.freeWord : Nat → W64
opaque Config.freeNat : Nat → Nat

/-- SHA-384 of the public key that Mladesh programs into vendor root slot `k` at manufacture: ECDSA 0 and 1, LMS 4 and 5 (R403). -/
opaque Config.vendorRoot : Nat → List Byte
/-- The 32-byte debug challenge the part draws (R417). -/
opaque Config.challenge : Nat → List Byte

/-- Whether the destination is one of a port's 16 multicast addresses, which no register of the part shows (R324). -/
opaque Config.multicast : Nat → List Byte → Bool
/-- The UDP checksum result of a frame, 0 to 2 (Table 11.4), and the frame with its UDP checksum inserted (R327). -/
opaque Config.udpState : List Byte → Nat
opaque Config.udpInsert : List Byte → List Byte
/-- Whether the four words of a receive rule match a frame, and the Cell Pool queue they name: the layout of the words is
not given (R325). -/
opaque Config.ruleMatch : List W32 → List Byte → Bool
opaque Config.ruleQueue : List W32 → Nat
/-- A byte of the SFDP tables, from the density, the dummy cycles and the address (JESD216, Table 11.6). -/
opaque Config.sfdp : Nat → Nat → Nat → Byte

/-- The part's own 802.1AS priority vector: the manual names no register for it (R329). -/
opaque Config.ownPriority : W64

/-- Subsystem Vendor ID and Subsystem ID as provisioned in OTP (R319). -/
opaque Config.subsystem : W32

/-- Whether a PCIe link is in L1, and whether a Field Port's FEC has lock: what the link's far end does (Table 11.12). -/
opaque Config.linkL1 : Nat → Nat → Bool
opaque Config.fecLock : Nat → Nat → Bool
/-- Completion timeouts that a host port has counted, and its non-posted requests in flight: how the host answered each request is outside
(Table 11.12, log 20). -/
opaque Config.cplTimeouts : Nat → Nat → Nat
opaque Config.npRequests : Nat → Nat → Nat
/-- What fills the rest of a NAND page: byte `column` of page job `id`; and the check bytes of an LDPC codeword: their number, the message and
the index (R238, R257, log 95). -/
opaque Config.padByte : Nat → Nat → Byte
opaque Config.ldpc : Nat → List Byte → Nat → Byte
/-- A byte of a 4 KiB unit under AES-256-XTS: object type, identifier, key pair (the draw of the random source that gave it), index of the unit, the plain unit and the
place in it (R60). -/
opaque Config.xts : Nat → Nat → Nat → Nat → List Byte → Nat → Byte
/-- Page type of a page index (R260), and the on-die temperature of a LUN in an hour of the retention clock, in °C (R250). -/
opaque Config.pageType : Nat → Nat
opaque Config.dieTemp : Nat → Nat → Int

/-- Whether the client of an xSPI target port clocks a read at a tick so fast that a byte is not ready at its edge (R332). -/
opaque Config.clientLate : Nat → Nat → Bool

/-- A temperature, a rail voltage, VBAT or the power of the part, as a sensor shows it at a tick (Table 12.13). -/
opaque Config.sensor : Nat → Nat → Nat

end Sys2Proof
end

