-- ==== Sys2Proof/Machine/Bits.lean ====
section
/-! DEFINITION. Bit fields, byte order (little-endian, R6), saturating counters, CRC-32C. -/
namespace Sys2Proof

/-- The field of `w` bits at bit `lo`, as a number. -/
def fld {n : Nat} (v : BitVec n) (lo w : Nat) : Nat := (v.toNat >>> lo) % 2 ^ w

/-- Bit `i` of a word. -/
def bitAt {n : Nat} (v : BitVec n) (i : Nat) : Bool := v.getLsbD i

/-- A word with the field of `w` bits at bit `lo` replaced. -/
def setFld {n : Nat} (v : BitVec n) (lo w x : Nat) : BitVec n :=
  let mask : BitVec n := BitVec.ofNat n ((2 ^ w - 1) <<< lo)
  (v &&& ~~~ mask) ||| (BitVec.ofNat n ((x % 2 ^ w) <<< lo))

/-- A flag as a number at bit `i`. -/
def bitN (b : Bool) (i : Nat) : Nat := if b then 2 ^ i else 0

/-- Little-endian bytes of a number, `n` of them. -/
def leBytes : Nat → Nat → List Byte
  | 0, _ => []
  | n + 1, v => BitVec.ofNat 8 v :: leBytes n (v / 256)

/-- The number little-endian bytes spell. -/
def leNat : List Byte → Nat
  | [] => 0
  | b :: t => b.toNat + 256 * leNat t

/-- `n` bytes of `bs` from offset `i`, as a little-endian number. -/
def leAt (bs : List Byte) (i n : Nat) : Nat := leNat ((bs.drop i).take n)

/-- Round `a` up to a multiple of `m`. -/
def roundUp (a m : Nat) : Nat := ((a + m - 1) / m) * m

/-- A counter of `w` bits that saturates. -/
def satAdd (w : Nat) (a b : Nat) : Nat := min (a + b) (2 ^ w - 1)

/-- A counter of `w` bits that wraps. -/
def wrapAdd (w : Nat) (a b : Nat) : Nat := (a + b) % 2 ^ w

/-- One bit step of the reflected Castagnoli polynomial. -/
def crcBit (c : W32) : W32 := if c.getLsbD 0 then (c >>> 1) ^^^ 0x82F63B78#32 else c >>> 1

/-- One byte of CRC-32C. -/
def crcByte (c : W32) (b : Byte) : W32 :=
  let x := c ^^^ b.zeroExtend 32
  crcBit (crcBit (crcBit (crcBit (crcBit (crcBit (crcBit (crcBit x)))))))

/-- CRC-32C of a byte string. PRESUMED: the manual names the code and not its polynomial (log 5). -/
def crc32c (bs : List Byte) : W32 := ~~~ (bs.foldl crcByte 0xFFFFFFFF#32)

/-- The 1-based count of entries of `l` that meet `p`. -/
def countP {α : Type} (p : α → Bool) (l : List α) : Nat := (l.filter p).length

/-- The sum of `f` over a list. -/
def sumBy {α : Type} (f : α → Nat) (l : List α) : Nat := l.foldl (fun a x => a + f x) 0

/-- The entry of `l` with the least `f`, the first of them on a tie. -/
def minBy {α : Type} (f : α → Nat) : List α → Option α
  | [] => none
  | a :: t => match minBy f t with
    | none => some a
    | some b => if f a ≤ f b then some a else some b

end Sys2Proof
end

