-- ==== Sys2Proof/Machine/Memory.lean ====
section
/-! DEFINITION. Byte memories (the Yard, an engine's local store): address and byte pairs in one canonical form,
addresses strictly rising and no entry equal to what an unlisted address reads as, which is 0x00
(DESIGN CHOICE for the Yard, log 3; R111 for a local store). -/
namespace Sys2Proof

/-- A byte memory. -/
abbrev Memory := List Host.Cell

/-- What an address that no entry lists reads as. -/
def Memory.unlisted : Byte := 0

/-- The byte at `a`. -/
def Memory.read : Memory → Nat → Byte
  | [], _ => Memory.unlisted
  | (j, b) :: t, a => if j = a then b else Memory.read t a

/-- The memory with `v` at `a`; writing the unlisted value removes the entry. -/
def Memory.write : Memory → Nat → Byte → Memory
  | [], a, v => if v = Memory.unlisted then [] else [(a, v)]
  | (j, b) :: t, a, v =>
    if a < j then (if v = Memory.unlisted then (j, b) :: t else (a, v) :: (j, b) :: t)
    else if a = j then (if v = Memory.unlisted then t else (a, v) :: t)
    else (j, b) :: Memory.write t a v

/-- `n` bytes from `a` upward. -/
def Memory.readN (m : Memory) : Nat → Nat → List Byte
  | _, 0 => []
  | a, n + 1 => m.read a :: Memory.readN m (a + 1) n

/-- The memory with `bs` at `a` upward. -/
def Memory.writeN (m : Memory) : Nat → List Byte → Memory
  | _, [] => m
  | a, b :: t => Memory.writeN (m.write a b) (a + 1) t

/-- Every address of the memory stands above `lo`, addresses rise strictly, and no entry is the unlisted value. -/
def Memory.wfFrom : Option Nat → Memory → Bool
  | _, [] => true
  | lo, (j, b) :: t => (match lo with | none => true | some l => decide (l < j)) && decide (b ≠ Memory.unlisted)
      && Memory.wfFrom (some j) t

/-- The canonical form. -/
def Memory.wf (m : Memory) : Bool := Memory.wfFrom none m

end Sys2Proof
end

