-- ==== Sys2Proof/Machine/State/Queue.lean ====
section
/-! DEFINITION. State of the Queue Engine: submission and completion rings, admin pairs, staged entries
(chapter 6). -/
namespace Sys2Proof.Machine

/-- A submission entry, decoded (Table 6.1). `reserved` says that a reserved bit or byte is non-zero. -/
structure Sqe where
  opc : Nat
  cls : Nat
  nowait : Bool
  hold : Bool
  seed : Bool
  space : Nat
  tag : W32
  program : W64
  deadline : W64
  seeds : List W64
  hint : Nat
  own : Bool
  reserved : Bool
  deriving DecidableEq, Repr

/-- A completion entry: bytes 0 to 30 of Table 6.3. `body` is bytes 8 to 23; PHASE is added at posting. -/
structure Cqe where
  tag : W32
  sqid : BitVec 16
  status : BitVec 16
  body : BitVec 128
  time : BitVec 56
  deriving DecidableEq, Repr

/-- The program header of Table 3.17, as read at admission. -/
structure Hdr where
  minMinor : Nat
  policy : Nat
  maxSteps : Nat
  maxBytes : Nat
  maxOps : Nat
  deriving DecidableEq, Repr

/-- A fetched entry that waits for admission (R165, R206). -/
structure Staged where
  sqe : Sqe
  /-- Tick at which the doorbell that covered the entry arrived (the bounds of R4). -/
  bell : Nat
  /-- The header read at the first attempt (R483): `none` before that attempt, `some none` for no header. -/
  hdr : Option (Option Hdr)
  /-- The entry was tried and waits in admission for a seat (R208). -/
  waiting : Bool
  /-- Its place in the order of staging, device-wide (R206, R208). -/
  no : Nat
  deriving DecidableEq, Repr

/-- Who holds a completion that waits for its ring (R174 to R177). -/
inductive CSrc where
  | final (e : Nat)      -- the final completion of engine `e`'s program (POSTWAIT)
  | note (e : Nat)       -- a notice or SUSPENDED completion of engine `e`'s program (R175)
  | fence (e : Nat)      -- the final completion taken from fenced engine `e` (R174)
  | qe (sq : Nat)        -- a refusal or control reply of queue `sq` (R176)
  deriving DecidableEq, Repr

/-- A completion not yet posted. -/
structure Waiting where
  cqe : Cqe
  src : CSrc
  /-- Groups the program sealed, and the program's number: a final completion only (R28, R63). -/
  groups : List Nat
  pid : Nat
  /-- Tick of the doorbell of a class-0 program that appended a record, until its posting bound has been
  judged (R388). -/
  bell : Option Nat
  deriving DecidableEq, Repr

/-- A submission queue (R157 to R168, R186 to R191, Tables 6.15, 6.16, 6.18). -/
structure Sq where
  fn : Nat
  base : W64
  depth : Nat
  head : Nat
  tail : Nat
  /-- The mark expected in this lap (R159). -/
  phase : Bool
  cqid : Nat
  c0 : Bool
  v1 : Bool
  noticesMax : Nat
  crew : Option Nat
  en : Bool
  spec : Bool
  /-- Programs that a HALT_ALL named, and the fetched entries that it has still to answer (R176, R190). -/
  haltAll : List Nat
  halted : List Staged
  /-- Tick of the first read of a slot that is being read again (R166). -/
  ownWait : Option Nat
  /-- Stopped by SQ_OWN_TIMEOUT until the next doorbell. -/
  stopped : Bool
  dbErr : Bool
  ownErr : Bool
  rdErr : Bool
  /-- The copy of at most one block: its first slot, and its 64-byte entries still held (R166). -/
  copy : Option (Nat × List (Option (List Byte)))
  staged : List Staged
  /-- Accepted doorbells whose entries are not all fetched: the tail each wrote and its tick, oldest first. -/
  bells : List (Nat × Nat)
  deriving DecidableEq, Repr

/-- A completion queue (R169 to R180, Tables 6.17, 6.18). -/
structure Cq where
  fn : Nat
  base : W64
  depth : Nat
  head : Nat
  tail : Nat
  phase : Bool
  vector : Nat
  ivEn : Bool
  icount : Nat
  itimeUs : Nat
  /-- Completions posted since the last message, and the tick of the first of them (R173). -/
  since : Nat
  firstAt : Option Nat
  /-- Ready to post, oldest first; and held because the ring had no room or the link no path. -/
  ready : List Waiting
  held : List Waiting
  /-- Tick and device time at which the stall began (R178). -/
  stall : Option (Nat × W64)
  stalled : Bool
  dbErr : Bool
  c0Over : Bool
  /-- A class-0 completion has found the ring full, and it has had no room since (R180). -/
  c0Full : Bool
  stalls : Nat
  deriving DecidableEq, Repr

/-- An admin event that waits for room (R185). -/
structure AEvent where
  code : Nat
  num : Nat
  count : Nat
  info : W64
  /-- Its place in the order of first occurrence and of packet fetches (R185). -/
  no : Nat
  deriving DecidableEq, Repr

/-- A function's copy of the private QE page and its admin pair (R181 to R185, Tables 6.13, 6.14, 6.18). -/
structure Aq where
  cqStallUs : Nat
  ownWaitUs : Nat
  en : Bool
  rdy : Bool
  dbErr : Bool
  ownErr : Bool
  rdErr : Bool
  sqDepth : Nat
  cqDepth : Nat
  sqBase : W64
  cqBase : W64
  sqHead : Nat
  sqTail : Nat
  sqPhase : Bool
  cqHead : Nat
  cqTail : Nat
  cqPhase : Bool
  ownWait : Option Nat
  stopped : Bool
  copy : Option (Nat × List (Option (List Byte)))
  /-- Replies ready to post, oldest first, with the place of their packet's fetch (R185). -/
  replies : List (Nat × Cqe)
  /-- Packets whose reply, when it is posted, invalidates the function's cached program lines (R196). -/
  invalidates : List Nat
  events : List AEvent
  deriving DecidableEq, Repr

/-- The reset value of a function's private page: QE_FN_CTRL 0x0064_03E8, QE_AQ_CTRL 0x4, the rest 0. -/
def Aq.reset : Aq :=
  { cqStallUs := 1000, ownWaitUs := 100, en := false, rdy := false, dbErr := false, ownErr := false,
    rdErr := false, sqDepth := 0, cqDepth := 0, sqBase := 0, cqBase := 0, sqHead := 0, sqTail := 0,
    sqPhase := true, cqHead := 0, cqTail := 0, cqPhase := true, ownWait := none, stopped := false,
    copy := none, replies := [], invalidates := [], events := [] }

/-- The Queue Engine. -/
structure Qe where
  aqs : Tbl Aq
  sqs : Tbl Sq
  cqs : Tbl Cq
  nextStage : Nat
  /-- SQID last served, per crew (R206). -/
  turn : Tbl Nat
  deriving DecidableEq, Repr

def Qe.reset : Qe := { aqs := [], sqs := [], cqs := [], nextStage := 0, turn := [] }

end Sys2Proof.Machine
end

