-- ==== Sys2Proof/Machine/State/Engine.lean ====
section
/-! DEFINITION. State of the channel engine array and the Program Fetch Unit: programs, engines, clusters, crews,
barriers, the broadcast and snapshot machinery, the fetch caches and the program store (chapters 3 to 5). -/
namespace Sys2Proof.Machine

/-- A channel command word (Table 3.1). `buf` is the HOST buffer address that a translated ISA v1 word carries, and
`bad` says that a v1 word has no translation (R107). -/
structure Ccw where
  opc : BitVec 8
  flags : BitVec 8
  space : BitVec 4
  mode : BitVec 4
  rsv : BitVec 8
  count : BitVec 24
  sub : BitVec 8
  addr : W64
  buf : Option W64
  bad : Bool
  deriving DecidableEq, Repr

/-- What a WAIT word waits for (Table 3.9). -/
inductive WaitKind where
  | timer (t : Nat)
  | dreq (n : Nat)
  | mbx (ch reg : Nat)
  | cellq (q : Nat)
  | barrier (b : Nat) (base : Nat)   -- completes once the barrier's completions exceed `base` (R148)
  | devTime (t : W64)
  | delay (due : Nat)                -- device time at WAIT start plus the delay
  deriving DecidableEq, Repr

/-- A WAIT in progress (R85). -/
structure WaitS where
  kind : WaitKind
  startTick : Nat
  limitUs : Nat
  onExpiry : Bool
  deriving DecidableEq, Repr

/-- A SYNC in progress (R98): the groups it waits for, and the stream with the sequence number it must reach. -/
structure SyncS where
  groups : List Nat
  stream : Option (Nat × Nat)
  startTick : Nat
  limitUs : Nat
  deriving DecidableEq, Repr

/-- How a program was suspended (R120, Table 4.4). -/
inductive Susp where
  | brk
  | word (lnk : Bool)
  | host
  deriving DecidableEq, Repr

/-- Where a program stands in its word cycle (R113, Table 4.2). -/
inductive Phase where
  | boundary            -- at a word boundary; the next word is not yet delivered (FETCH)
  | fetched             -- the data operation is delivered and not yet executed (FETCH, then EXEC)
  | noteHold            -- held after the fetch because four completions are held (R175)
  | wait (w : WaitS)    -- a WAIT word
  | sync (y : SyncS)    -- a SYNC word
  | charge              -- a Landing charge wait (R44)
  | mbxFull             -- a SIGNAL mailbox word waiting for room (R86)
  | bar                 -- a word held until the program's earlier writes are acknowledged (R75)
  | susp (k : Susp)     -- SUSPENDED
  | postwait            -- ended; the final completion is not yet posted
  deriving DecidableEq, Repr

/-- A data operation whose checks have passed (R114, R299): the mover and channel that carry it, the bytes taken from its object, how
many of them are record headers (R103) and the cursor that follows them (R93), the page reads of NAND it waits for (R217), and whether
its Landing charge is granted (R44). -/
structure Xfr where
  chan : Option (Nat × Nat)
  src : List Byte
  heads : Nat
  next : Nat
  reads : List Nat
  granted : Bool
  deriving DecidableEq, Repr

def Xfr.fresh : Xfr := { chan := none, src := [], heads := 0, next := 0, reads := [], granted := false }

/-- A program on its engine (R111, R113, R120 to R132). -/
structure Prog where
  pid : Nat
  sqid : Nat
  tag : W32
  fn : Nat
  cls : Nat
  crew : Nat
  cqid : Nat
  nowait : Bool
  deadline : W64
  /-- Program space: true for YARD. -/
  yard : Bool
  v1 : Bool
  start : W64
  pc : W64
  hdr : Option Hdr
  gp : Vector W64 16
  z : Bool
  n : Bool
  c : Bool
  s : Bool
  stack : List W64
  steps : Nat
  bytes : Nat
  ops : Nat
  /-- The open commit group. -/
  group : Option Nat
  /-- Groups sealed by the program. -/
  sealed : List Nat
  phase : Phase
  /-- The words of the delivered data operation. -/
  op : List Ccw
  noted : Bool
  resumed : Bool
  haltPend : Bool
  holdPend : Bool
  notices : Nat
  last : W64
  anyDone : Bool
  residual : Nat
  /-- Bytes that the data operation in hand has moved, and whether the last of them completed a further 64 KiB, which makes this a
  handover point (R127, R137). -/
  moved : Nat
  further : Bool
  /-- The data operation in hand, once its checks have passed. -/
  xf : Option Xfr
  /-- It has issued a HOST write that has not been acknowledged (R75). -/
  unacked : Bool
  /-- Device time at which the word in hand was fetched (R132). -/
  fetchedAt : W64
  /-- A SUSPENDED completion that waits to be raised while four are held (R175). -/
  owed : Option Cqe
  devstat : Byte
  /-- Tick at which the word entered EXEC (R127). -/
  execAt : Nat
  /-- Barrier arrival record: the barrier's completions when the program last arrived (R148). -/
  arrivals : Tbl Nat
  /-- Remaining class-1 Landing reserve, and remaining media operations (R212). -/
  reserve : Nat
  opsLeft : Nat
  /-- Tick at which its entry's doorbell arrived: the class-0 bounds are elapsed time from it (R4, R388). -/
  bell : Nat
  /-- Its posting bound has been judged (R388). -/
  judged : Bool
  deriving DecidableEq, Repr

/-- A latched state record (R152, Table 5.11). -/
structure Snap where
  state : W32
  tag : W32
  pc : W64
  steps : W32
  flags : W32
  deriving DecidableEq, Repr

def Snap.zero : Snap := { state := 0, tag := 0, pc := 0, steps := 0, flags := 0 }

/-- An engine (Table 5.1, Table 5.9). -/
structure Engine where
  prog : Option Prog
  seated : Bool
  testing : Bool
  due : Bool
  tested : Bool
  fenced : Bool
  /-- Passed over in the last sweep (R136). -/
  passed : Bool
  store : Memory
  snap : Snap
  deriving DecidableEq, Repr

/-- Slot `s` after reset: slots 0 to 63 seated, 64 to 71 spare (R135). -/
def Engine.reset (slot : Nat) : Engine :=
  { prog := none, seated := decide (slot < 64), testing := false, due := false, tested := false, fenced := false,
    passed := false, store := [], snap := Snap.zero }

/-- The rotating self-test of a cluster (R136). -/
inductive Bist where
  | idle
  | window (start : Nat)
  | test (start : Nat)
  deriving DecidableEq, Repr

/-- A program line held in a cluster's fetch cache (R156, R196). -/
structure Line where
  fn : Nat
  yard : Bool
  addr : Nat
  pinned : Bool
  bytes : List Byte
  deriving DecidableEq, Repr

/-- The control orders a broadcast carries (R151). -/
inductive Order where
  | quenchStop
  | debugHalt
  | crewRefresh
  | cacheInvalidate
  | ucodeSwap
  deriving DecidableEq, Repr

/-- A cluster (Tables 5.7, 5.8, 5.11). -/
structure Cluster where
  ready : Bool
  gated : Bool
  /-- Tick of the wake in progress (R155). -/
  waking : Option Nat
  wakeReq : Bool
  fenced : Bool
  /-- Out of service during an update (R360). -/
  out : Bool
  gateEn : Bool
  gateIdleUs : Nat
  idleSince : Nat
  seats : Nat
  minor : Nat
  build : Nat
  bistSlot : Nat
  bist : Bist
  /-- Tick at which the last self-test turn began: turns are 40 µs apart (R136). -/
  turnAt : Option Nat
  passedOver : Nat
  sweeps : Nat
  gateCount : Nat
  /-- Tick at which the cluster's reset began (R153). -/
  resetAt : Option Nat
  /-- It has finished its reset and test; in the array reset READY waits for the last cluster (R153). -/
  done : Bool
  /-- A reset of the cluster has been ordered (Table 16.6). -/
  resetReq : Bool
  /-- A Quench stop or a debug halt reached the cluster: its engines run no word past a handover point (R151). -/
  stop : Bool
  /-- Seats lost, the last first: the crew that lost it, or none for an unreserved seat (R140, R141). -/
  lost : List (Option Nat)
  /-- Broadcast orders that a gated cluster applies when it wakes (R151). -/
  orders : List Order
  prefetch : Nat
  hits : Nat
  misses : Nat
  v1Words : Nat
  ucode : Bool
  ucodeBuild : Nat
  ucodeMinor : Nat
  lines : List Line
  deriving DecidableEq, Repr

/-- ENG_CL_CTRL resets to 0x6401, ENG_CL_VERSION to 2, PFU_CL_CTRL to 4, the rest to 0. -/
def Cluster.reset : Cluster :=
  { ready := false, gated := false, waking := none, wakeReq := false, fenced := false, out := false, gateEn := true,
    gateIdleUs := 100, idleSince := 0, seats := 0, minor := 2, build := 0, bistSlot := 0, bist := .idle,
    turnAt := none, passedOver := 0, sweeps := 0, gateCount := 0, resetAt := none, done := false, resetReq := false, stop := false, lost := [],
    orders := [], prefetch := 4, hits := 0, misses := 0, v1Words := 0, ucode := false, ucodeBuild := 0, ucodeMinor := 0,
    lines := [] }

/-- A crew (Table 5.2, R145), and the function that created it. `lostIn` counts the seats it lost in each cluster (R140). -/
structure Crew where
  owner : Nat
  cls : Nat
  mask : BitVec 16
  seats : Nat
  shared : Bool
  stepUs : Nat
  minMinor : Nat
  pinned : BitVec 16
  lostIn : Tbl Nat
  deriving DecidableEq, Repr

/-- A barrier (R147 to R150). `done` counts its completions. -/
structure Barrier where
  count : Nat
  owner : Nat
  enable : Bool
  mask : BitVec 16
  gen : Nat
  arrived : Nat
  done : Nat
  deriving DecidableEq, Repr

def Barrier.reset : Barrier :=
  { count := 0, owner := 0, enable := false, mask := 0, gen := 0, arrived := 0, done := 0 }

/-- A broadcast in progress: its order and the engines that have not acknowledged. -/
structure Bcast where
  order : Order
  mask : BitVec 16
  left : List Nat
  deriving DecidableEq, Repr

/-- A program held in the program store, under its Yard address (R110). `fns` names the functions that may start it. -/
structure Stored where
  addr : Nat
  len : Nat
  fns : BitVec 8
  first : List Byte
  removed : Bool
  /-- The MID that loaded it. -/
  owner : Nat
  deriving DecidableEq, Repr

/-- The engine array, its fetch caches and global operations. -/
structure Eng where
  engines : Tbl Engine
  clusters : Tbl Cluster
  crews : Tbl Crew
  bars : Tbl Barrier
  bcast : List Bcast
  snapTime : W64
  /-- Tick from which the last snapshot is finished (SNAP_BUSY). -/
  snapBusy : Nat
  crewSel : Tbl Nat
  store : Tbl Stored
  nextPid : Nat
  deriving DecidableEq, Repr

def Eng.reset : Eng :=
  { engines := [], clusters := [], crews := [], bars := [], bcast := [], snapTime := 0, snapBusy := 0,
    crewSel := [], store := [], nextPid := 0 }

end Sys2Proof.Machine
end

