-- ==== Sys2Proof/Machine/State/Control.lean ====
section
/-! DEFINITION. State of the Fault Collector (chapter 13), the Trust Unit (chapter 14), the Management Processor and
the command packets (chapter 12), and the global mode and clock registers (chapter 16). -/
namespace Sys2Proof.Machine

/-- A report to the Fault Collector (R369): source class and detail, unit kind and id, source-specific bytes. -/
structure Report where
  cls : Nat
  detail : Nat
  kind : Nat
  unit : Nat
  info : W64
  deriving DecidableEq, Repr

/-- The Fault Collector (Tables 13.14 to 13.18). `react` holds reactions set through dual consent; the defaults of
Table 13.3 stand for the rest. -/
structure Fcs where
  fault : Bool
  window : Bool
  safeState : Bool
  mgpRestart : Option Nat
  windows : Nat
  first : Option (Nat × Nat)      -- source code, reaction
  firstUnit : Nat × Nat
  firstTime : W64
  ovf : Bool
  quiet : W32
  /-- Tick of the last source whose reaction is not log, or the close of the last window. -/
  quietAt : Nat
  lost : Bool
  causes : Nat                    -- bits 1 to 5 of FCS_GUARANTEE
  safeErr : Bool
  firstReady : Bool               -- GUARANTEE_READY has read 1 in Service since power-up (R387)
  mgpWd : W32
  c0Late : Nat
  log : List (List Byte)
  logSeq : Nat
  overwritten : Nat
  engErr : List Nat               -- engines whose ENG_ERR_STATUS bit is set
  hbFail : List Nat
  react : Tbl Nat
  counts : Tbl Nat
  inbox : List Report             -- reports raised by the part's own units, oldest first
  asserted : List Report          -- sources whose signal is still asserted (R373)
  snapshot : Option (W64 × BitVec 16 × Tbl Snap)  -- device time, clusters and records of the last FCS_FIRST latch
  lostData : List (List Byte)     -- log type 0x05
  iwdgServed : Nat
  iwdgExpired : Bool
  iwdgHalted : Bool
  kick : Bool
  fencedFns : List Nat
  fencedPorts : List Nat
  hbAt : Nat
  /-- Ticks of the last Landing scrub, and of the last scrub of each pinned window (R394). -/
  scrubAt : Nat
  pinScrubAt : Tbl Nat
  /-- The first source collected in this tick, with its reaction: a clear in the same tick comes before it (R371). -/
  fresh : Option (Report × Nat)
  deriving DecidableEq, Repr

/-- FCS at reset: SAFE_ERR driven, FCS_QUIET 0xFA, FCS_MGP_WD 0x32, the rest 0. -/
def Fcs.reset : Fcs :=
  { fault := false, window := false, safeState := false, mgpRestart := none, windows := 0,
    first := none, firstUnit := (0, 0), firstTime := 0, ovf := false, quiet := 0xFA, quietAt := 0, lost := false,
    causes := 0, safeErr := true, firstReady := false, mgpWd := 0x32, c0Late := 0, log := [],
    logSeq := 0, overwritten := 0, engErr := [], hbFail := [], react := [], counts := [], inbox := [],
    asserted := [], snapshot := none, lostData := [], iwdgServed := 0, iwdgExpired := false, iwdgHalted := false,
    kick := false, fencedFns := [], fencedPorts := [], hbAt := 0, scrubAt := 0, pinScrubAt := [], fresh := none }

/-- An access rule (Table 14.1). -/
structure Rule where
  kind : Nat
  mid : Nat
  rights : BitVec 16
  first : Nat
  last : Nat
  deriving DecidableEq, Repr

/-- A pending proposal (R412). -/
structure Proposal where
  id : Nat
  mid : Nat
  packet : List Byte
  data : List Byte
  digest : List Byte
  tick : Nat
  deriving DecidableEq, Repr

/-- The Trust Unit (chapter 14). -/
structure Tru where
  rules : List Rule
  group : List Nat
  props : List Proposal
  propNext : Nat
  challenge : Option (Nat × List Byte × Nat)
  debugLevel : Nat
  keysCleared : Bool
  /-- Key slots that hold an unwrapped pair, the least recently used first (R408). -/
  slots : List Nat
  /-- Tick of the raise in progress, or of the last fuse that it blew (R406). -/
  fuseAt : Nat
  verifyLast : W32
  lockedRec : Tbl W32
  deriving DecidableEq, Repr

def Tru.reset : Tru :=
  { rules := [], group := [], props := [], propNext := 0, challenge := none, debugLevel := 0, keysCleared := false, slots := [], fuseAt := 0,
    verifyLast := 0, lockedRec := [] }

/-- A root slot: ECDSA slots 0 to 3, then LMS slots 0 to 3 as 4 to 7 (R403, R405). -/
structure Root where
  hash : List Byte
  programmed : Bool
  revoked : Bool
  deriving DecidableEq, Repr

/-- One-time-programmable memory: it keeps its content through every reset. -/
structure Otp where
  /-- The provisioning lock (R416). -/
  locked : Bool
  roots : Tbl Root
  fuses : Nat
  vaultFloors : Tbl Nat
  secretGen : Nat
  secret : Bool
  deriving DecidableEq, Repr

/-- As manufactured: the vendor slots are programmed. -/
def Otp.reset : Otp :=
  { locked := false, roots := [0, 1, 4, 5].map (fun k => (k, { hash := Config.vendorRoot k, programmed := true, revoked := false })), fuses := 0, vaultFloors := [], secretGen := 0, secret := false }

/-- A command packet fetched from an admin queue and not yet replied to (R350). -/
structure Packet where
  fn : Nat
  mid : Nat
  bytes : List Byte
  /-- Tick at which it was fetched (R351), and its place in the order of fetches and events (R185). -/
  tick : Nat
  no : Nat
  /-- An L command that has started. -/
  started : Bool
  /-- Past its commit point (R350). -/
  committed : Bool
  /-- Tick at which it started, and whether it has ordered the reset of its cluster (R360, R390, R455). -/
  begun : Nat
  resetting : Bool
  /-- The proposal that a started RATIFY executes as a background command (R413). -/
  inner : Option Proposal
  /-- No reply is posted: a DIAG_RUN that t0 interrupted, at work again (R275), or a command past its commit point whose function was reset
  (R352). -/
  mute : Bool
  deriving DecidableEq, Repr

/-- The packet that is executed: under RATIFY, the protected packet of the proposal (R413). -/
def Packet.eff (p : Packet) : List Byte := match p.inner with | some x => x.packet | none => p.bytes

/-- Update state (R357 to R364, Tables 12.7 and 12.8): the length of the package staged in the Yard, what its verified header names, and the clusters
that run its microcode. -/
structure Update where
  state : Nat
  length : Nat
  version : Nat
  index : Nat
  format : Nat
  minor : Nat
  build : Nat
  image : Image
  swapped : List Nat
  /-- Drain time in µs of the cluster in hand (Table 12.9). -/
  drainUs : Nat
  /-- The state that a commit or an abandon in progress began in. -/
  prior : Nat
  /-- Steps of R363 that a commit has taken, whether it raises the floor, and the cause of the UPDATE_ENDED that the next entry to Service posts, 0 for
  none (R364). -/
  written : Nat
  raise : Bool
  ended : Nat
  deriving DecidableEq, Repr

def Image.empty : Image := { fw := [], config := [], fwBlock := [], ucode := [], ucBlock := [], minor := 0, build := 0 }

def Update.none : Update :=
  { state := 0, length := 0, version := 0, index := 0, format := 0, minor := 0, build := 0, image := Image.empty,
    swapped := [], drainUs := 0, prior := 0, written := 0, raise := false, ended := 0 }

/-- The Management Processor: packets in hand, the update, its firmware image. -/
structure Mgp where
  staged : List Packet
  /-- DIAG_RUN packets that t0 interrupted in Provision: they run again at the next entry to Provision (R275). -/
  redo : List Packet
  rot : Nat
  upd : Update
  fwVersion : Nat
  mediaFormat : Nat
  running : Bool
  lowPower : Bool
  bootRom : Bool
  restarts : Nat
  restartAt : Option Nat
  /-- Tick from which the firmware has serviced the collector (R391). -/
  servedAt : Nat
  sideband : Tbl Packet
  /-- Replies that an I²C sideband has ready, oldest first, and the result data still to be read (R344). -/
  sbReplies : Tbl (List (List Byte))
  sbData : Tbl (List Byte)
  halted : Bool
  deriving DecidableEq, Repr

def Mgp.reset : Mgp :=
  { staged := [], redo := [], rot := 0, upd := Update.none, fwVersion := 0, mediaFormat := 1, running := false,
    lowPower := false, bootRom := true, restarts := 0, restartAt := none, servedAt := 0, sideband := [], sbReplies := [], sbData := [],
    halted := false }

/-- The operating modes (Table 16.1). -/
inductive Mode where
  | off | backup | boot | load | provision | service | degraded | quench | hold | rebuild | update | diagnostic
  deriving DecidableEq, Repr

/-- Global mode, clock and boot registers (Tables 16.7 to 16.11), and per-identity register latches (R460). -/
structure Top where
  mode : Mode
  prev : Nat
  changes : Nat
  modeTime : W64
  bootFail : Bool
  bootNor : Bool
  bootArea : Bool
  cause : Nat
  rootLock : Bool
  plls : Nat
  clkFaults : Nat
  bootInfo : Nat
  /-- Selector generation and area of the two boot NORs and the image at it, as last read or written by the part. -/
  nor : Tbl (Nat × Bool × Image)
  /-- Latched high halves of 64-bit reads, keyed by 2³² × identity + offset of the LO register (R6, R460). -/
  hiLatch : Tbl W32
  /-- Held low halves of 64-bit writes, keyed in the same way (R459, R460). -/
  loHold : Tbl W32
  /-- W1C bits that hardware events have set in the present tick: register and bits (R9). -/
  hot : List (Nat × W32)
  /-- The firmware image area (R443). -/
  image : Image
  /-- Yard partition sizes in MiB, and the ones for the next device reset (R21). -/
  parts : List Nat
  nextParts : Option (List Nat)
  vbat : Bool
  deriving DecidableEq, Repr

/-- TOP at reset: mode Boot, PREV 0, everything else 0; the default partition of Table 1.9. -/
def Top.reset : Top :=
  { mode := .boot, prev := 0, changes := 0, modeTime := 0, bootFail := false, bootNor := false, bootArea := false,
    cause := 0, rootLock := false, plls := 0, clkFaults := 0, bootInfo := 0, nor := [], hiLatch := [], loHold := [], hot := [],
    image := Image.empty, parts := [32, 16, 8, 16, 16, 24, 8, 8], nextParts := none, vbat := false }

end Sys2Proof.Machine
end

