-- ==== Sys2Proof/Machine/State/Media.lean ====
section
/-! DEFINITION. State of the Landing (LQ), the Media Manager (MM), the flash channels (FC, ECX) and the Scheduler
(SCH): chapters 2, 7 and 8. -/
namespace Sys2Proof.Machine

/-- What one persistence word wrote into its commit group (R31, R34). -/
inductive WKind where
  | record (stream seq : Nat) (ts : W64) (payload : List Byte)
  | region (region off : Nat) (data : List Byte)
  | trimStream (stream below : Nat)
  | trimRegion (region off units : Nat)
  deriving DecidableEq, Repr

/-- One write of a group, with its Landing charge and its way to media. -/
structure GWrite where
  kind : WKind
  charge : Nat
  /-- Bytes not yet moved toward a stripe row: of a record its header and payload, of a region write the mapping units that it touches
  (R57), of a TRIM its journal entry. -/
  left : Nat
  /-- Segment that takes its bytes, once the first of them have moved. -/
  seg : Option Nat
  /-- Page reads for the read-modify-write of its mapping units, once asked for (R57). -/
  asked : Bool
  reads : List Nat
  /-- Pages of each 4 KiB unit of a region write that has moved (R62). -/
  spots : Tbl (List Nat)
  /-- Pages that hold its bytes and have not passed. -/
  pages : List Nat
  /-- Rows that hold its bytes and whose parity has not been programmed, as (segment, row). -/
  rows : List (Nat × Nat)
  /-- The charge has been released (R31). -/
  released : Bool
  deriving DecidableEq, Repr

/-- A commit group (R34, R35). -/
structure Group where
  id : Nat
  pid : Nat
  cls : Nat
  crew : Nat
  fn : Nat
  sqid : Nat
  tag : W32
  writes : List GWrite
  sealed : Bool
  /-- Order of the SEAL, device-wide (R35). -/
  sealNo : Nat
  /-- Tick of the doorbell of the entry that wrote it (R4, R246). -/
  bell : Nat
  /-- The completion of its program has been posted (R63, entry type 0x03). -/
  posted : Bool
  /-- Deadline of its program: class-1 slots serve the earliest first (R213). -/
  deadline : W64
  /-- Records whose acceptance bound has been judged, and whether its media-durable bound has been (R246, R388). -/
  late : Nat
  missed : Bool
  /-- Tick at which its next drain unit became a request (R229). -/
  askedAt : Nat
  deriving DecidableEq, Repr

/-- A charge that waits for the Landing (R44). -/
structure Charge where
  eng : Nat
  cls : Nat
  bytes : Nat
  tick : Nat
  deriving DecidableEq, Repr

/-- A page of Quench work held by LQ's Quench queue (R279, Table 10.6): a content page of a group, or a manifest, delta or parity
page. -/
structure QUnit where
  group : Option Nat
  /-- Its bytes as they go to NAND (R60, R279), and the page that takes them. -/
  data : List Byte
  place : Option (Nat × Nat × Nat)
  bytes : Nat
  lun : Nat
  mover : Option Nat
  taken : Bool
  moved : Bool
  programmed : Bool
  deriving DecidableEq, Repr

/-- Landing and Quench accounting (Tables 2.9 to 2.11, 2.14, 9.11). -/
structure Lq where
  groups : List Group
  nextGroup : Nat
  nextSeal : Nat
  limitValid : Bool
  limitMib : Nat
  capMib : Nat
  tAllowedUs : Nat
  overLimit : Bool
  limitDrop : Bool
  energyRefused : Bool
  reserve64k : Nat
  accBytes : W64
  durBytes : W64
  discards : Nat
  waitMaxNs : Nat
  c0Queue : List Charge
  shQueue : List Charge
  lastCalc : Nat
  armed : Bool
  rearm : Bool
  lastSealed : Bool
  quenchGen : Nat
  lastUs : Nat
  lastBytes : Nat
  /-- Tick since which ARMED has read 0 (R280). -/
  unarmedAt : Option Nat
  units : List QUnit
  /-- LUNs of the Quench set (R279). -/
  quenchSet : List Nat
  deriving DecidableEq, Repr

/-- LQ at reset: limit 0, CAP_MIB 0x20, class-0 reserve 0x10, the rest 0 (Tables 2.9 to 2.14). -/
def Lq.reset : Lq :=
  { groups := [], nextGroup := 0, nextSeal := 0, limitValid := false, limitMib := 0, capMib := 32, tAllowedUs := 0,
    overLimit := false, limitDrop := false, energyRefused := false, reserve64k := 16, accBytes := 0, durBytes := 0,
    discards := 0, waitMaxNs := 0, c0Queue := [], shQueue := [], lastCalc := 0, armed := false, rearm := false,
    lastSealed := false, quenchGen := 0, lastUs := 0, lastBytes := 0, unarmedAt := none, units := [], quenchSet := [] }

/-- An accepted record of a stream (Table 2.4). -/
structure Rec where
  seq : Nat
  ts : W64
  payload : List Byte
  group : Nat
  /-- Retention clock at which it was accepted (R52). -/
  clock : Nat
  durable : Bool
  posted : Bool
  /-- Segment that holds it; `none` while it is in the Landing only. The pages that hold its bytes, as (LUN, block, page). -/
  seg : Option Nat
  places : List (Nat × Nat × Nat)
  /-- A TRIM has released it: readers no longer see it, and its segment is released once every record there is media-durable (R50, R56). -/
  gone : Bool
  deriving DecidableEq, Repr

/-- A stream (R46 to R56). `old` is the released boundary; numbers below `next` that are neither held nor
reserved are retired. -/
structure Stream where
  owner : Nat
  enc : Bool
  /-- 0 KEEP_BYTES, 1 KEEP_TIME, 2 PINNED. -/
  policy : Nat
  limit : Nat
  next : Nat
  old : Nat
  recs : List Rec
  /-- Reserved numbers not yet accepted, with their group. -/
  reserved : List (Nat × Nat)
  lastTs : W64
  full : Bool
  segs : List Nat
  /-- Generation of the device secret under which its object key is wrapped; none for a plain stream (R408, R410). With the draw of the
  random source that gave the pair of keys, it stands for the wrapped 72 bytes. -/
  wrapped : Option Nat
  keyPair : Nat
  deriving DecidableEq, Repr

/-- One 4 KiB unit of a region, with the SEAL order of its content. -/
structure RUnit where
  data : List Byte
  order : Nat
  /-- Segment that holds it; `none` while it is in the Landing only. The pages that hold its bytes, as (LUN, block, page). -/
  seg : Option Nat
  places : List (Nat × Nat × Nat)
  deriving DecidableEq, Repr

/-- A region (R57). -/
structure Region where
  owner : Nat
  size : Nat
  enc : Bool
  units : Tbl RUnit
  /-- The media-durable content, which an unclean loss leaves (R62). -/
  durUnits : Tbl RUnit
  /-- As for a stream. -/
  wrapped : Option Nat
  keyPair : Nat
  deriving DecidableEq, Repr

/-- A vault image slot (R58). -/
structure VSlot where
  image : List Byte
  version : Nat
  verified : Bool
  durable : Bool
  deriving DecidableEq, Repr

/-- A function's stream window (Tables 2.12 to 2.14). -/
structure StreamWin where
  sel : Nat
  state : W32
  old : W64
  dur : W64
  acc : W64
  next : W64
  bytes : W64
  deriving DecidableEq, Repr

def StreamWin.zero : StreamWin := { sel := 0, state := 0, old := 0, dur := 0, acc := 0, next := 0, bytes := 0 }

/-- What a segment holds (Table 8.2 kinds). -/
inductive SegKind where
  | stream (id : Nat)
  | region (id : Nat)
  deriving DecidableEq, Repr

/-- A segment (R237): its open row is `row`, with `fill` data pages placed in it. -/
structure Segment where
  set : Nat
  kind : SegKind
  gen : Nat
  /-- Block of each member LUN. -/
  blocks : Tbl Nat
  row : Nat
  fill : Nat
  /-- The page being filled: its bytes, the writes in it as (group, write index), its position field and its highest group (Table 8.2). -/
  page : List Byte
  pageWrites : List (Nat × Nat)
  pageFirst : Option Nat
  pageGroup : Nat
  /-- XOR of the data pages of the open row. -/
  xor : List Byte
  /-- Tick of the oldest data page of the open row (R238). -/
  rowAt : Option Nat
  /-- Number of the page being filled. -/
  pageId : Nat
  closed : Bool
  /-- Retention clock and temperature-weighted clock of its last page program, and the age in ns it had then from off-times (R250, R251). -/
  programmedAt : Nat
  heatAt : Nat
  age : Nat
  scrubAt : Nat
  /-- Rotating index of the second row that a scrub reads (R252). -/
  scrubRow : Nat
  deriving DecidableEq, Repr

/-- A page program on its way to a LUN (R217, R237, R243). -/
structure PageJob where
  lun : Nat
  block : Nat
  page : Nat
  /-- 0x01 to 0x08 of Table 8.2; 0x00 a page read, 0x09 a block erase. -/
  kind : Nat
  seg : Nat
  row : Nat
  /-- Class 0 to 3, or 4 for Anneal, and the crew. -/
  cls : Nat
  crew : Nat
  deadline : W64
  /-- Bus units still to be granted. -/
  units : Nat
  bytes : Nat
  /-- Content of the page as it goes to the encoder, and its page tag (R239, R257). -/
  data : List Byte
  tag : List Byte
  writes : List (Nat × Nat)
  /-- Its LUN had to be suspended: the suspend command and the status read are its first units (R244). -/
  suspends : Bool
  /-- The operation has been issued to the array; of a read, its array time has ended. -/
  issued : Bool
  ready : Bool
  /-- Tick of the request or of its last grant (R229). -/
  askedAt : Nat
  deriving DecidableEq, Repr

/-- An open fast-lane row of a stripe set (R243). -/
structure FlRow where
  /-- Members (LUN numbers) written in this row, and those whose page has passed. -/
  written : List Nat
  passed : List Nat
  page : Nat
  /-- Open fast-lane block of each member, and the number of this set of blocks (from 65,536 on). -/
  blocks : Tbl Nat
  openAt : Option Nat
  seg : Nat
  /-- XOR of the pages of the open row. -/
  xor : List Byte
  deriving DecidableEq, Repr

/-- Where an Anneal task stands: it has asked for its reads, written what they gave, or written the journal entry of its move (R254). -/
inductive TaskStage where
  | fresh
  | read
  | moved
  | logged
  deriving DecidableEq, Repr

/-- An Anneal task (Table 8.5): the segment, or the fast-lane block, it acts on. -/
structure Task where
  rank : Nat
  seg : Nat
  lun : Nat
  block : Nat
  stage : TaskStage
  /-- Page jobs of it not yet finished. -/
  jobs : List Nat
  /-- Records (stream, sequence number) and region units (region, unit) that it has written elsewhere, with their new segment and pages:
  reads go on to the old place until the journal entry is written (R254). -/
  recs : List ((Nat × Nat) × Nat × List (Nat × Nat × Nat))
  units : List ((Nat × Nat) × Nat × List (Nat × Nat × Nat))
  deriving DecidableEq, Repr

/-- A task as it is queued. -/
def Task.fresh (rank seg lun block : Nat) : Task :=
  { rank := rank, seg := seg, lun := lun, block := block, stage := .fresh, jobs := [], recs := [], units := [] }

/-- A valid checkpoint (R261): its trailer and what the model needs of its content. The objects it holds are the ones of `Mm`,
which checkpoint and journal together keep (R262). -/
structure Checkpoint where
  gen : Nat
  time : W64
  /-- Copies of MC1 to MC3 (R295), the Landing-empty mark (R484), and the Quench generation consumed (R288). -/
  mc : List Nat
  mark : Bool
  quench : Nat
  deriving DecidableEq, Repr

/-- The Quench seal record on media (Table 9.3). -/
structure Seal where
  gen : Nat
  t0 : W64
  rtc : Nat
  bytes : Nat
  ckpt : Nat
  pages : Nat
  deriving DecidableEq, Repr

/-- The manifest of a Quench (R279): the entries of the groups discarded at step 3, their number, the streams they touch, and the
accepted mark of each stream at t0. -/
structure Manifest where
  entries : List (List Byte)
  groups : Nat
  streams : List Nat
  marks : Tbl Nat
  deriving DecidableEq, Repr

/-- A stripe set (R236). -/
structure StripeSet where
  members : List Nat
  fastLane : Bool
  /-- MEDIA_LOW has been posted for the present shortage (R256). -/
  low : Bool
  deriving DecidableEq, Repr

/-- One loss-report entry (Table 2.7), 32 bytes. -/
abbrev LossEntry := List Byte

/-- The Media Manager (chapters 2 and 8). -/
structure Mm where
  streams : Tbl Stream
  regions : Tbl Region
  slots : Tbl VSlot
  /-- Active slot of each pair: false the even slot, true the odd slot. -/
  active : Tbl Bool
  win : Tbl StreamWin
  retClock : Nat
  /-- Temperature-weighted clock of Table 8.4, by the part's junction temperature, in ns. -/
  heat : Nat
  sets : Tbl StripeSet
  segs : Tbl Segment
  nextFl : Nat
  nextGen : Nat
  jobs : Tbl PageJob
  nextJob : Nat
  flRows : Tbl FlRow
  flReady : Bool
  /-- The blank check of the entry to Service has finished (R242). -/
  flChecked : Bool
  flCfg : W32
  retCfg : W32
  rdCfg : W32
  scrubCfg : W32
  wearCfg : W32
  rowCfg : W32
  ckptCfg : W32
  capCfg : W32
  lifeWarned : Bool
  /-- Reactions set through dual consent, as the metadata records them (R374). -/
  reactions : Tbl Nat
  retired : List (Nat × Nat)
  /-- Erase counts and read counts per block, keyed by 65536 × LUN + block. -/
  erases : Tbl Nat
  reads : Tbl Nat
  recons : Tbl Nat
  running : Option Task
  tasks : List Task
  annealPaused : Bool
  retTOffset : Nat
  /-- Journal bytes held unwritten, and since the last checkpoint (R261, R262). -/
  jHeld : Nat
  jSince : Nat
  /-- Journal pages written since the current checkpoint (R262), and the reserved block of each checkpoint area on each LUN of set 0. -/
  jPage : Nat
  /-- Device time in the newest journal page (R294). -/
  jTime : W64
  areaA : Tbl Nat
  areaB : Tbl Nat
  ckptA : Option Checkpoint
  ckptB : Option Checkpoint
  ckptGen : Nat
  ckptTick : Nat
  /-- Tick at which MM began a checkpoint of its own, beside its other work: it is torn where t0 comes before its pages are programmed (R261). -/
  ckptOpen : Option Nat
  vendor : List (List Byte)
  /-- Default threshold offsets per LUN and page type (keyed 4 × LUN + type), offsets per block, and the blocks that have moved from the
  default in the present scrub period (R260). -/
  lunThr : Tbl Int
  blkThr : Tbl Int
  thrMoved : List Nat
  characterised : Bool
  /-- The seal record and the manifest of the last Quench (R279, R281), its content's set number, and the Landing-empty mark of R484. -/
  sealed : Option Seal
  manifest : Option Manifest
  quenchSet : Nat
  landingEmpty : Bool
  /-- The last loss report: header bytes and entries (R63). -/
  loss : Option (List Byte × List LossEntry)
  /-- Media-full objects already reported while they wait. -/
  fullSince : List Nat
  deriving DecidableEq, Repr

/-- MM at reset (Tables 8.11 to 8.16); no object exists before a first power-up. -/
def Mm.reset : Mm :=
  { streams := [], regions := [], slots := [], active := [], win := [], retClock := 0, heat := 0, sets := [], segs := [],
    nextFl := 0, nextGen := 0, jobs := [], nextJob := 0, flRows := [], flReady := false, flChecked := false,
    flCfg := 0x000203E8, retCfg := 0x16D07000, rdCfg := 0, scrubCfg := 0x60,
    wearCfg := 0x003200C8, rowCfg := 0x0A, ckptCfg := 0x0040003C, capCfg := 0x10,
    lifeWarned := false, reactions := [], retired := [], erases := [], reads := [], recons := [], running := none, tasks := [],
    annealPaused := false, retTOffset := 0, jHeld := 0, jSince := 0, jPage := 0, jTime := 0, areaA := [], areaB := [],
    ckptA := none, ckptB := none, ckptGen := 0,
    ckptTick := 0, ckptOpen := none, vendor := [], lunThr := [], blkThr := [], thrMoved := [], characterised := false, sealed := none, manifest := none, quenchSet := 0,
    landingEmpty := false, loss := none, fullSince := [] }

/-- The operation of a LUN (Table 8.16). -/
inductive LunOp where
  | idle
  | read (job : Nat)
  | program (job : Nat)
  | erase (block : Nat) (pslc : Bool)
  | progSusp (job : Nat)
  | eraseSusp (block : Nat) (pslc : Bool)
  deriving DecidableEq, Repr

/-- A LUN (Table 8.16). -/
structure Lun where
  present : Bool
  fenced : Bool
  fastLane : Bool
  op : LunOp
  opAt : Nat
  /-- The pSLC program that runs while `op` is suspended (R244). -/
  above : Option Nat
  suspends : Nat
  /-- Ticks of the last suspend command and of the last resume (R243, R244). -/
  suspendedAt : Nat
  resumedAt : Nat
  /-- Erased fast-lane blocks, and used ones that wait for a fold, with the number of their set. -/
  erased : List Nat
  used : List (Nat × Nat)
  /-- Free good TLC blocks, and replacement blocks (R237, R247). -/
  free : List Nat
  repl : List Nat
  /-- Its entry of the media vendor table. -/
  vend : Nat
  deriving DecidableEq, Repr

def Lun.absent : Lun :=
  { present := false, fenced := false, fastLane := false, op := .idle, opAt := 0, above := none, suspends := 0,
    suspendedAt := 0, resumedAt := 0, erased := [], used := [], free := [], repl := [], vend := 0 }

/-- A flash channel (Table 8.10, Table 8.16). -/
structure Chan where
  cfg : W32
  iface : Nat
  ready : Bool
  derated : Bool
  fenced : Bool
  targets : Nat
  rate : Nat
  suspends : Nat
  progFails : Nat
  eraseFails : Nat
  c0Misses : Nat
  wpHigh : Bool
  deriving DecidableEq, Repr

/-- A channel at reset: every register 0, FLn_WP_N low (R235). -/
def Chan.reset : Chan :=
  { cfg := 0, iface := 0, ready := false, derated := false, fenced := false, targets := 0, rate := 0, suspends := 0,
    progFails := 0, eraseFails := 0, c0Misses := 0, wpHigh := false }

/-- Flash channels and codec. -/
structure Fc where
  chans : Tbl Chan
  luns : Tbl Lun
  ecxCfg : W32
  corrected : W64
  retries : Nat
  soft : Nat
  xor : Nat
  uncorr : Nat
  deriving DecidableEq, Repr

def Fc.reset : Fc :=
  { chans := [], luns := [], ecxCfg := 0x68, corrected := 0, retries := 0, soft := 0, xor := 0, uncorr := 0 }

/-- The class-1 cost table (Table 7.3). -/
structure Cost where
  stepNs : Nat
  rateMbps : Nat
  mediaUs : Nat
  latencyUs : Nat
  opsPerFrame : Nat
  marginUs : Nat
  deriving DecidableEq, Repr

/-- The built-in values of Table 7.3. -/
def Cost.builtin : Cost :=
  { stepNs := 20, rateMbps := 1000, mediaUs := 600, latencyUs := 128, opsPerFrame := 16, marginUs := 100 }

/-- The owner of entry `s` of the default table (R224). -/
def defaultOwner (s : Nat) : Nat :=
  if s % 16 = 0 then 1 else if s % 16 = 8 then 5 else if s % 64 = 4 then 2 else if s % 64 = 36 then 4 else 3

/-- A slot table: entries that differ from the default table, per bank (R216, R218). -/
structure SlotTable where
  bankA : Tbl Nat
  bankB : Tbl Nat
  activeB : Bool
  swapAt : Option Nat
  /-- An owner change of the active bank (entry, owner, tick it came) that waits for the entry's next occurrence (R219). -/
  patch : Option (Nat × Nat × Nat)
  /-- Tick of the start of the slot last started. -/
  last : Option Nat
  frames : Nat
  overruns : Nat
  /-- Tick at which the unit in progress ends (R220). -/
  busyUntil : Nat
  deriving DecidableEq, Repr

def SlotTable.reset : SlotTable :=
  { bankA := [], bankB := [], activeB := false, swapAt := none, patch := none, last := none, frames := 0, overruns := 0, busyUntil := 0 }

/-- A requester at an arbiter (R225 to R229). -/
structure Reqr where
  credit : Nat
  grants : Nat
  lost : Nat
  maxWaitNs : Nat
  /-- Frame starts at which it waited since its last grant (R228). -/
  starved : Nat
  deriving DecidableEq, Repr

/-- A job of a codec descriptor at an LDPC lane or a TRU engine (R230, R231): the mover and channel it serves, its class, requester
and deadline, the tick of the request, and whether it was preempted. -/
structure CodecJob where
  mover : Nat
  chan : Nat
  cls : Nat
  requester : Nat
  deadline : W64
  askedAt : Nat
  again : Bool
  deriving DecidableEq, Repr

/-- An LDPC decode lane or a TRU engine: the job it runs, and the jobs that wait, preempted ones first (R231). -/
structure Lane where
  job : Option CodecJob
  queue : List CodecJob
  deriving DecidableEq, Repr

def Lane.reset : Lane := { job := none, queue := [] }

/-- A function's Tally window (Tables 7.18, 7.19). -/
structure TallyWin where
  sel : W32
  grants : W32
  waits : W32
  maxWait : W32
  credit : W32
  deriving DecidableEq, Repr

def TallyWin.zero : TallyWin := { sel := 0, grants := 0, waits := 0, maxWait := 0, credit := 0 }

/-- The Scheduler (chapter 7). -/
structure Sch where
  rate : Nat
  queues : Nat
  overContract : Bool
  c0Over : Nat
  /-- Tick of the last unit over the contract while BOUND_VOID reads 1 (R202). -/
  voidAt : Option Nat
  /-- Admitted class-0 units, newest first: tick and units (R201). -/
  meter : List (Nat × Nat)
  tables : Tbl SlotTable
  costA : Option Cost
  costB : Option Cost
  weights : Tbl Nat
  /-- Weights as of the last refill; the tick of the last SET_WEIGHTS, and the weights before it (R227). -/
  refilled : Tbl Nat
  weightTick : Option Nat
  weightsWere : Tbl Nat
  /-- Resources that a holder blocks, by arbiter id: kind and number of the holder (R232). -/
  holds : Tbl (Nat × Nat)
  /-- Requesters keyed by 512 × arbiter + requester. -/
  reqs : Tbl Reqr
  /-- LDPC lanes and TRU engines by arbiter id, 96 to 115 (Table 7.8). -/
  lanes : Tbl Lane
  starve : List Nat
  /-- Tick from which frames start, and tick of the start of the present frame (R216). -/
  frameFrom : Option Nat
  frameAt : Option Nat
  frameTime : W64
  quenchHeld : Bool
  cfg : W32
  lim0 : W32
  lim1 : W32
  lim2 : W32
  holdEvents : Nat
  restarts : Nat
  refused : Nat
  win : Tbl TallyWin
  readSel : W32
  /-- Replies to SLOT_TABLE_SWAP that wait for the frame start: function, packet number, completion (R218). -/
  swapReplies : List (Nat × Nat × Cqe)
  deriving DecidableEq, Repr

/-- The Scheduler at reset (R224, R233, Tables 7.13 to 7.19). -/
def Sch.reset : Sch :=
  { rate := 100, queues := 16, overContract := false, c0Over := 0, voidAt := none, meter := [], tables := [],
    costA := none, costB := none, weights := [], refilled := [], weightTick := none, weightsWere := [], holds := [], reqs := [], lanes := [], starve := [],
    frameFrom := none, frameAt := none, frameTime := 0, quenchHeld := false, cfg := 0x104, lim0 := 0x00280014, lim1 := 0x00C80064,
    lim2 := 0x0FA0, holdEvents := 0, restarts := 0, refused := 0, win := [], readSel := 0, swapReplies := [] }

end Sys2Proof.Machine
end

