-- ==== Sys2Proof/Machine/State/Move.lean ====
section
/-! DEFINITION. State of the movers and the Cell Pool (chapter 10), the mailboxes, device time, timers and capture
channels (chapter 15). -/
namespace Sys2Proof.Machine

/-- A mover descriptor (Table 10.2). -/
structure Desc where
  src : W64
  dst : W64
  length : Nat
  srcSpace : Nat
  dstSpace : Nat
  wb : Bool
  paced : Bool
  codec : Bool
  fixSrc : Bool
  fixDst : Bool
  cls : Nat
  mid : Nat
  requester : Nat
  burst : Nat
  token : W32
  deriving DecidableEq, Repr

/-- States of a mover channel (Table 10.10). -/
inductive ChState where
  | idle
  | ready
  | running
  | waitReq
  | preempted
  | barrier
  deriving DecidableEq, Repr

/-- A mover channel (Table 10.10, Table 10.13). -/
structure MvCh where
  st : ChState
  active : Option Desc
  shadow : Option Desc
  /-- Bytes of the active descriptor moved, and tick of the last byte. -/
  moved : Nat
  movedAt : Nat
  /-- Tick at which the active descriptor began to wait for the mover (R229), and its deadline, 0 for none (R213, R300). -/
  readyAt : Nat
  deadline : W64
  lastStatus : Nat
  line : Nat
  bound : Bool
  pending : Nat
  reqOvr : Bool
  drops : Nat
  deriving DecidableEq, Repr

def MvCh.reset : MvCh :=
  { st := .idle, active := none, shadow := none, moved := 0, movedAt := 0, readyAt := 0, deadline := 0, lastStatus := 0, line := 0, bound := false,
    pending := 0, reqOvr := false, drops := 0 }

/-- A program-mode WAIT in progress (R307). -/
structure MvWait where
  source : Nat
  operand : W64
  alt : Nat
  startTick : Nat
  limitUs : Nat
  deriving DecidableEq, Repr

/-- A mover (Table 10.9, Table 10.13). -/
structure Mover where
  chans : Tbl MvCh
  prgMode : Bool
  prgRun : Bool
  prgDone : Bool
  fenced : Bool
  activeCh : Option Nat
  preemptCh : Option Nat
  prgEnd : Nat
  prgFault : Bool
  waitOut : Nat
  pc : Nat
  wait : Option MvWait
  event : Bool
  preempts : Nat
  bytes : W64
  a : Tbl W64
  k : Tbl W32
  ram : Memory
  /-- The program RAM holds the armed Quench program (R280). -/
  armed : Bool
  /-- Tick at which it last took a Quench unit. -/
  tookAt : Nat
  deriving DecidableEq, Repr

def Mover.reset : Mover :=
  { chans := [], prgMode := false, prgRun := false, prgDone := false, fenced := false, activeCh := none,
    preemptCh := none, prgEnd := 0, prgFault := false, waitOut := 0, pc := 0, wait := none, event := false,
    preempts := 0, bytes := 0, a := [], k := [], ram := [], armed := false, tookAt := 0 }

/-- The mover array. MV_CFG resets to 0x0032_00C8. -/
structure Mv where
  movers : Tbl Mover
  cfg : W32
  /-- 16 KiB page buffers by FCBUF address, and the 2 MiB MGP memory (Table 10.3). -/
  fcbuf : Tbl (List Byte)
  mgpMem : Memory
  deriving DecidableEq, Repr

def Mv.reset : Mv := { movers := [], cfg := 0x003200C8, fcbuf := [], mgpMem := [] }

/-- One stored word of a Cell Pool queue (R310). -/
structure CWord where
  payload : W32
  sop : Bool
  eop : Bool
  deriving DecidableEq, Repr

/-- A Cell Pool queue (R310 to R317, Tables 10.11 to 10.13): visible words, then the open packet's words. -/
structure CQueue where
  words : List CWord
  opened : List CWord
  pktOpen : Bool
  discarding : Bool
  /-- Words already read from the first cell, so that cells held can be counted (R310). -/
  headUsed : Nat
  en : Bool
  pkt : Bool
  noticeEn : Bool
  vector : Nat
  func : Nat
  cap : Nat
  reserve : Nat
  overrun : Bool
  drops : Nat
  notices : Nat
  deriving DecidableEq, Repr

def CQueue.reset : CQueue :=
  { words := [], opened := [], pktOpen := false, discarding := false, headUsed := 0, en := false, pkt := false,
    noticeEn := false, vector := 0, func := 0, cap := 0, reserve := 0, overrun := false, drops := 0, notices := 0 }

/-- The Cell Pool. Held LO and latched HI halves are kept per function and queue (key 4096 × function + queue). -/
structure Cpl where
  queues : Tbl CQueue
  rsvErr : Bool
  pushLo : Tbl W32
  popHi : Tbl W32
  deriving DecidableEq, Repr

def Cpl.reset : Cpl := { queues := [], rsvErr := false, pushLo := [], popHi := [] }

/-- A mailbox word with its sender stamp (R422). -/
structure MWord where
  value : W64
  mid : Nat
  deriving DecidableEq, Repr

/-- One end of a channel (Table 15.1), with its notices and interrupt selection (R425, R427). -/
structure MEnd where
  mid : Nat
  kind : Nat
  cl : Nat
  aborted : Bool
  timedOut : Bool
  overrun : Bool
  irq : W32
  deriving DecidableEq, Repr

def MEnd.reset : MEnd :=
  { mid := 0, kind := 0, cl := 0, aborted := false, timedOut := false, overrun := false, irq := 0 }

/-- A mailbox channel: `q01` and `q10` are its two directions, oldest word first; the ticks at which each
direction's oldest word became the oldest (R428). -/
structure MChan where
  e0 : MEnd
  e1 : MEnd
  compat : Bool
  en : Bool
  q01 : List MWord
  q10 : List MWord
  at01 : Nat
  at10 : Nat
  cleared : Nat
  drops : Nat
  deriving DecidableEq, Repr

def MChan.reset : MChan :=
  { e0 := MEnd.reset, e1 := MEnd.reset, compat := false, en := false, q01 := [], q10 := [], at01 := 0, at10 := 0,
    cleared := 0, drops := 0 }

/-- The Mailbox Unit. Held and latched halves are per function and channel (key 256 × function + channel). -/
structure Mbx where
  chans : Tbl MChan
  cfg : W32
  bindLocked : Bool
  cfgErr : Bool
  txLo : Tbl W32
  rxHi : Tbl W32
  rxSrc : Tbl W32
  deriving DecidableEq, Repr

def Mbx.reset : Mbx :=
  { chans := [], cfg := 0x3E8, bindLocked := false, cfgErr := false, txLo := [], rxHi := [], rxSrc := [] }

/-- A general timer (Tables 15.6, 15.7, R433 to R436). -/
structure Timer where
  ctrl : W32
  armed : Bool
  mtch : Bool
  late : Bool
  /-- The compare value was still behind device time after the last addition (catch-up, R434). -/
  behind : Bool
  missed : Nat
  cmp : W64
  int : W64
  /-- The tick in which it matched or was last written: at most one match per tick. -/
  matchTick : Option Nat
  deriving DecidableEq, Repr

def Timer.reset : Timer :=
  { ctrl := 0, armed := false, mtch := false, late := false, behind := false, missed := 0, cmp := 0, int := 0,
    matchTick := none }

/-- A capture channel (R438, Table 15.8). `seqRead` is SEQ at the last read of its LO register. -/
structure Capture where
  ctrl : W32
  value : W64
  seq : Nat
  seqRead : Nat
  lastTick : Option Nat
  deriving DecidableEq, Repr

def Capture.reset : Capture := { ctrl := 0, value := 0, seq := 0, seqRead := 0, lastTick := none }

/-- A TIME_SET that waits for the next tick boundary (R431). -/
inductive TimeAdj where
  | absolute (t : W64)
  | relative (d : W64)
  deriving DecidableEq, Repr

/-- Device time, timers and captures. `frac` is the rate accumulator in 10⁻⁹ ns; `disc` the discipline state
(0 free-run, 1 acquiring, 2 locked, 3 holdover). -/
structure Tmr where
  time : W64
  frac : Int
  ratePpb : Int
  discSrc : Nat
  discPort : Nat
  disc : Nat
  discCfg : W32
  offset : W64
  steps : Nat
  sampleTick : Nat
  inLock : Nat
  /-- The step a discipline sample asked for, and the TIME_SET commands, for the next tick boundary. -/
  discStep : Option W64
  sets : List TimeAdj
  capLost : W32
  timers : Tbl Timer
  caps : Tbl Capture
  /-- Tick at which the debug halt in force began (R436). -/
  haltAt : Option Nat
  deriving DecidableEq, Repr

def Tmr.reset : Tmr :=
  { time := 0, frac := 0, ratePpb := 0, discSrc := 0, discPort := 0, disc := 0, discCfg := 0x03E80064, offset := 0,
    steps := 0, sampleTick := 0, inLock := 0, discStep := none, sets := [], capLost := 0, timers := [], caps := [],
    haltAt := none }

end Sys2Proof.Machine
end

