-- ==== Sys2Proof/Machine/State/Ports.lean ====
section
/-! DEFINITION. State of the Power Supervisor (chapter 9), the host ports, Field Ports and local ports (chapter 11),
and what the part has driven to the outside. -/
namespace Sys2Proof.Machine

/-- A load pulse in progress (R269 to R271). -/
structure Pulse where
  startTick : Nat
  startMv : Nat
  /-- The capacitance fitted at its end, in µF; the pulse then waits for recovery (R270). -/
  fitted : Option Nat
  endTick : Nat
  test : Bool
  deriving DecidableEq, Repr

/-- The power-loss sequence of Table 9.2 and Table 9.14. -/
inductive QPhase where
  | none
  | running (t0 : Nat)
  | done
  deriving DecidableEq, Repr

/-- The Power Supervisor and the backup domain (Tables 9.4, 9.8 to 9.13). -/
structure Psv where
  vbankMv : Nat
  pfailHigh : Bool
  measFail : Bool
  degraded : Bool
  stale : Bool
  goodAt : Option Nat
  bankCfg : W32
  bankTrip : W32
  cap : W32
  capNom : W32
  capMeas : W32
  senseCfg : W32
  pfailCfg : W32
  pulseCfg : W32
  boardMw : W32
  tripEff : Nat
  pulse : Option Pulse
  /-- Fitted capacitance and cause code of the last commanded pulse (BANK_TEST). -/
  testResult : Option (Nat × Nat)
  lastOk : Option Nat
  retryAt : Option Nat
  quenchCause : Nat
  phase : QPhase
  commanded : Bool
  quenchDone : Bool
  holdAt : Option Nat
  /-- Backup domain. -/
  rtc : Nat
  rtcFrac : Nat
  rtcT0 : Nat
  timeT0 : W64
  mc : Tbl Nat
  bkram : Memory
  bkSel : W32
  /-- The last published capacitance, kept for the comparison of R272 (R296). -/
  lastCap : Nat
  /-- Off-time in ms found at the last power-up; none where the RTC did not run through it (R293). -/
  offMs : Option Nat
  lost : Bool
  xtalOk : Bool
  deriving DecidableEq, Repr

/-- The Power Supervisor at reset (Tables 9.8 to 9.13): PFAIL_CFG 0xFA, BKRAM_SEL 0x20, the rest 0; the input supply
good and the backup domain without content. -/
def Psv.reset : Psv :=
  { vbankMv := 0, pfailHigh := true, measFail := false, degraded := false, stale := false,
    goodAt := none, bankCfg := 0, bankTrip := 0, cap := 0, capNom := 0, capMeas := 0, senseCfg := 0,
    pfailCfg := 0xFA, pulseCfg := 0, boardMw := 0, tripEff := 0, pulse := none, testResult := none, lastOk := none, retryAt := none,
    quenchCause := 0, phase := .none, commanded := false, quenchDone := false, holdAt := none,
    rtc := 0, rtcFrac := 0, rtcT0 := 0, timeT0 := 0, mc := [], bkram := [], bkSel := 0x20, lastCap := 0, offMs := none, lost := false,
    xtalOk := false }

/-- A PCIe function: Bus Master Enable, MSI-X Enable, Function Mask, the vector table and pending bits, AER. -/
structure Fn where
  bme : Bool
  msixEn : Bool
  fmask : Bool
  vecs : Tbl (W64 × W32 × Bool)
  pba : List Nat
  aer : List Nat
  resetting : Bool
  deriving DecidableEq, Repr

def Fn.reset : Fn :=
  { bme := false, msixEn := false, fmask := false, vecs := [], pba := [], aer := [], resetting := false }

/-- A PCIe port. -/
structure HPort where
  dlUp : Bool
  gen : Nat
  width : Nat
  linkCfg : W32
  perst : Bool
  deriving DecidableEq, Repr

def HPort.reset : HPort :=
  { dlUp := false, gen := 0, width := 0, linkCfg := 0x805, perst := false }

structure Hpc where
  fns : Tbl Fn
  ports : Tbl HPort
  deriving DecidableEq, Repr

def Hpc.reset : Hpc := { fns := [], ports := [] }

/-- A frame queued for transmission in a traffic class; `stamp` asks for its transmit timestamp (R327). -/
structure TxFrame where
  bytes : List Byte
  prio : Nat
  stamp : Bool
  deriving DecidableEq, Repr

/-- A gate control list (R328): base time, cycle time in ns, entries of gate bits and intervals in 10 ns units. -/
structure Gcl where
  base : W64
  cycle : Nat
  entries : List (Nat × Nat)
  deriving DecidableEq, Repr

def Gcl.zero : Gcl := { base := 0, cycle := 0, entries := [] }

/-- A Field Port. -/
structure FPort where
  cfg : W32
  linkUp : Bool
  /-- Held down by CONTROL order 0x02. -/
  down : Bool
  mac : W64
  rules : Tbl W32
  admin : Gcl
  /-- The committed list, its base the device time at which it takes effect. -/
  committed : Option Gcl
  oper : Gcl
  /-- Operational entry in force, device time of its start, and of the start of its cycle. -/
  opIdx : Nat
  opAt : Nat
  opCycle : Nat
  tx : List TxFrame
  txTs : W64
  rxFrames : Nat
  fcsDrops : Nat
  noruleDrops : Nat
  cplDrops : Nat
  txFrames : Nat
  attention : Bool
  /-- PTP port state (FLD_STATUS[4:2]): 0 disabled, 1 slave, 2 master, 3 passive. -/
  gptp : Nat
  /-- Best announced priority vector received on the port. -/
  announce : Option W64
  pdelay : W64
  deriving DecidableEq, Repr

def FPort.reset : FPort :=
  { cfg := 0, linkUp := false, down := false, mac := 0, rules := [], admin := Gcl.zero, committed := none,
    oper := Gcl.zero, opIdx := 0, opAt := 0, opCycle := 0, tx := [], txTs := 0, rxFrames := 0, fcsDrops := 0,
    noruleDrops := 0, cplDrops := 0, txFrames := 0, attention := false, gptp := 0, announce := none, pdelay := 0 }

structure Fld where
  ports : Tbl FPort
  deriving DecidableEq, Repr

def Fld.reset : Fld := { ports := [] }

/-- An xSPI target port. `win` is the source of its window: vault slot, offset and size; `nextWin` is the one of a PIN_WINDOW that waits for the
next reset cycle (R59); `record` is a Page Program whose
record is not yet accepted. -/
structure Xt where
  cfg : W32
  win : Option (Nat × Nat × Nat)
  nextWin : Option (Nat × Nat × Nat)
  /-- The 4 KiB pages of the Yard that hold the window's copy, in order (R59). -/
  pages : List Nat
  loaded : Bool
  verified : Bool
  hold : Bool
  rst : Bool
  rstAt : Nat
  cycling : Bool
  late : Bool
  loadFail : Bool
  windowFault : Bool
  perrSeen : Bool
  wel : Bool
  wip : Bool
  perr : Bool
  record : Option (List Byte)
  wwin : W32
  stream : W32
  id : W32
  records : Nat
  werr : Nat
  octal : Bool
  attention : Bool
  deriving DecidableEq, Repr

def Xt.reset : Xt :=
  { cfg := 0x2000, win := none, nextWin := none, pages := [], loaded := false, verified := false, hold := false, rst := true, rstAt := 0,
    cycling := false, late := false, loadFail := false, windowFault := false, perrSeen := false, wel := false,
    wip := false, perr := false, record := none, wwin := 0, stream := 0, id := 0, records := 0, werr := 0,
    octal := false, attention := false }

/-- A UART: its receive FIFO, overrun sense, attention, and tick of the last byte. Bytes to send leave at once (the line
rate is timing). -/
structure Uart where
  cfg : W32
  rx : List Byte
  overrun : Bool
  attention : Bool
  lastAt : Nat
  deriving DecidableEq, Repr

def Uart.reset : Uart := { cfg := 0, rx := [], overrun := false, attention := false, lastAt := 0 }

/-- An I²C port: configuration and the position of the last NACK. -/
structure I2c where
  cfg : W32
  nack : W32
  deriving DecidableEq, Repr

def I2c.reset : I2c := { cfg := 0, nack := 0 }

/-- A request line (R303, R340): configuration, ring, current offset, requests pending for engine WAITs while unbound,
and the level of the line. -/
structure Dreq where
  cfg : W32
  ring : W64
  size : W32
  off : W32
  pending : Nat
  level : Bool
  deriving DecidableEq, Repr

def Dreq.reset : Dreq := { cfg := 0, ring := 0, size := 0, off := 0, pending := 0, level := false }

/-- The local ports. `ppsAt` is the second of the last PPS_OUT pulse, `ppsUp` the tick since which the pin is high. -/
structure Lpc where
  xts : Tbl Xt
  dreqs : Tbl Dreq
  uarts : Tbl Uart
  i2cs : Tbl I2c
  gpioDir : W32
  gpioOut : W32
  gpioIn : W32
  gpioOd : W32
  gpioIrqEn : W32
  gpioStatus : W32
  gpioCfg : W32
  gpioAttention : Bool
  xhStatus : W32
  sbCfg : W32
  capSrc : Tbl W32
  ppsCfg : W32
  ppsAt : Option Nat
  ppsUp : Option Nat
  deriving DecidableEq, Repr

def Lpc.reset : Lpc :=
  { xts := [], dreqs := [], uarts := [], i2cs := [], gpioDir := 0, gpioOut := 0, gpioIn := 0, gpioOd := 0,
    gpioIrqEn := 0, gpioStatus := 0, gpioCfg := 0, gpioAttention := false, xhStatus := 0, sbCfg := 0x5C05, capSrc := [],
    ppsCfg := 0x10064, ppsAt := none, ppsUp := none }

/-- What the part has driven to the outside, newest first. -/
inductive Output where
  | hostWrite (fn : Nat) (addr : W64) (bytes : List Byte)
  /-- A read of a submission ring (R157, R166). -/
  | hostRead (fn : Nat) (addr : W64) (len : Nat)
  /-- The zero-length read that follows a function's writes (R75, R305). -/
  | hostFlush (fn : Nat)
  | msix (fn vec : Nat)
  /-- A pulse of DACKn for its DACK_NS, and a level from the first to the last byte of a burst (R341). -/
  | dack (n : Nat)
  | dackBurst (n : Nat)
  | frame (port : Nat) (bytes : List Byte)
  | uart (n : Nat) (bytes : List Byte)
  | i2cRecovery (n : Nat)
  | i2c (n target : Nat) (bytes : List Byte)
  /-- A page program, in TLC or pSLC mode: its codewords (R257). -/
  | nand (lun block page : Nat) (pslc : Bool) (words : List Byte)
  | nandRead (lun block page : Nat)
  | nandRaw (addr : W64) (bytes : List Byte)
  | nandErase (lun block : Nat) (pslc : Bool)
  /-- A suspend or resume by its opcode in the vendor table (Table 8.17). -/
  | nandSuspend (lun : Nat) (code : Byte)
  | nandResume (lun : Nat) (code : Byte)
  | nandStatus (lun : Nat)
  | nandReset (lun : Nat)
  /-- Set Features and Get Features of a LUN: feature address and parameters. -/
  | nandSet (lun : Nat) (feature : Byte) (params : List Byte)
  | nandGet (lun : Nat) (feature : Byte)
  /-- Read ID and Read Parameter Page of a LUN. -/
  | nandId (lun : Nat)
  | nandParam (lun : Nat)
  /-- What the bring-up of a channel drives: its interface (0 SDR timing mode 0) and rate, and its trainings (R235). -/
  | nandIface (chan iface rate : Nat)
  | nandTrain (chan rate : Nat)
  | nor (n : Nat) (area : Bool) (bytes : List Byte)
  | norImage (n : Nat) (area : Bool) (gen : Nat) (img : Image)
  | xspi (n : Nat) (bytes : List Byte)
  | sideband (port : Nat) (bytes : List Byte)
  | pps (high : Bool)
  /-- What a read of MBX_W_RX_LO returns (R424). -/
  | mailbox (mid ch : Nat) (lo : W32)
  /-- What a read of CPL_POP_LOq returns (R311). -/
  | cell (mid q : Nat) (lo : W32)
  | gptp (port kind : Nat)
  /-- What a port takes from a mover descriptor that no channel program wrote. -/
  | port (addr : W64) (bytes : List Byte)
  deriving DecidableEq, Repr

end Sys2Proof.Machine
end

