-- ==== Sys2Proof/Machine/Table.lean ====
section
/-! DEFINITION. Operations on tables keyed by object number: find, read with a default, put, delete, update. -/
namespace Sys2Proof

variable {α : Type}

/-- The entry under `k`, if the object exists. -/
def Tbl.find : Tbl α → Nat → Option α
  | [], _ => none
  | (j, a) :: t, k => if j = k then some a else Tbl.find t k

/-- The entry under `k`, or `d` where nothing is listed. -/
def Tbl.get (t : Tbl α) (k : Nat) (d : α) : α := (t.find k).getD d

/-- Whether an entry stands under `k`. -/
def Tbl.has (t : Tbl α) (k : Nat) : Bool := (t.find k).isSome

/-- Put `a` under `k`, in ascending key order, replacing the entry that was there. -/
def Tbl.put : Tbl α → Nat → α → Tbl α
  | [], k, a => [(k, a)]
  | (j, b) :: t, k, a =>
    if k < j then (k, a) :: (j, b) :: t
    else if k = j then (k, a) :: t
    else (j, b) :: Tbl.put t k a

/-- Remove the entries under `k`. -/
def Tbl.del : Tbl α → Nat → Tbl α
  | [], _ => []
  | (j, b) :: t, k => if j = k then Tbl.del t k else (j, b) :: Tbl.del t k

/-- Apply `f` to the entry under `k`, where there is one. -/
def Tbl.upd : Tbl α → Nat → (α → α) → Tbl α
  | [], _, _ => []
  | (j, b) :: t, k, f => if j = k then (j, f b) :: t else (j, b) :: Tbl.upd t k f

/-- Put `f` of the entry under `k`, with `d` where nothing is listed. -/
def Tbl.mod (t : Tbl α) (k : Nat) (d : α) (f : α → α) : Tbl α := t.put k (f (t.get k d))

/-- Apply `f` to every entry. -/
def Tbl.all (t : Tbl α) (f : Nat → α → α) : Tbl α := List.map (fun p => (p.1, f p.1 p.2)) t

/-- The entries that meet `p`. -/
def Tbl.sel (t : Tbl α) (p : Nat → α → Bool) : Tbl α := List.filter (fun q => p q.1 q.2) t

/-- The keys that meet `p`. -/
def Tbl.keys (t : Tbl α) (p : Nat → α → Bool) : List Nat := List.map (·.1) (t.sel p)

end Sys2Proof
end

