-- ==== Sys2Proof/Machine/State.lean ====
section
/-! DEFINITION. The state of the part as plain data, the reasons a command can stop, and the state after reset. -/
namespace Sys2Proof.Machine

/-- The Yard (R21, R485): its bytes, and the aligned 8-byte words that hold an uncorrectable error. -/
structure Yard where
  mem : Memory
  bad : List Nat
  deriving DecidableEq, Repr

def Yard.reset : Yard := { mem := [], bad := [] }

/-- The whole part. `tick` counts CLK_TIME ticks, `free` is the model's own counter for free values (log 2), `out` is
what the part has driven to the outside, newest first, and `pending` is the queue of waiting commands. -/
structure State where
  yard : Yard
  eng : Eng
  qe : Qe
  lq : Lq
  mm : Mm
  fc : Fc
  sch : Sch
  mv : Mv
  cpl : Cpl
  mbx : Mbx
  tmr : Tmr
  psv : Psv
  hpc : Hpc
  field : Fld
  lpc : Lpc
  mgp : Mgp
  fcs : Fcs
  tru : Tru
  otp : Otp
  top : Top
  tick : Nat
  free : Nat
  out : List Output
  pending : List Instr
  deriving DecidableEq, Repr

/-- The part right after reset, in mode Boot. Every register at its stated reset value; no object exists; what the
spec gives no reset value for is named in log 4. -/
def State.reset : State :=
  { yard := Yard.reset, eng := Eng.reset, qe := Qe.reset, lq := Lq.reset, mm := Mm.reset, fc := Fc.reset,
    sch := Sch.reset, mv := Mv.reset, cpl := Cpl.reset, mbx := Mbx.reset, tmr := Tmr.reset, psv := Psv.reset,
    hpc := Hpc.reset, field := Fld.reset, lpc := Lpc.reset, mgp := Mgp.reset, fcs := Fcs.reset, tru := Tru.reset,
    otp := Otp.reset, top := Top.reset, tick := 0, free := 0, out := [], pending := [] }

/-- Why a command stops: each is an effect the spec calls undefined and gives no outcome for (R7, R10, R11). Every
one is safe: the model stops where the hardware may do anything. -/
inductive Fault where
  /-- Raised by a submission entry of the second group of Table 6.11 (R197). Safe. -/
  | reservedEntry
  /-- Raised by a control entry whose TAG two outstanding programs share (R119). Safe. -/
  | sharedTag
  /-- Raised by a word of the second group of Table 3.21 (R69, R108). Safe. -/
  | reservedWord
  /-- Raised by a descriptor with LENGTH 0 or a reserved space code (R301). Safe. -/
  | reservedDescriptor
  /-- Raised by a write of a reserved encoding into a register field (R7). Safe. -/
  | reservedValue
  /-- Raised by a command packet with a malformed field that has no outcome (R11). Safe. -/
  | reservedPacket
  deriving DecidableEq, Repr

/-- Why a command has no meaning in the model. -/
inductive Refusal where
  /-- Raised by the dispatcher for a command without a meaning. Safe. -/
  | notModelled (mnemonic : String)
  deriving DecidableEq, Repr

/-- What a command answers. -/
abbrev Answer := Host.Outcome State Fault Refusal

end Sys2Proof.Machine
end

