-- ==== Sys2Proof/Machine/Ops.lean ====
section
/-! DEFINITION. The named operations over the state that many commands share: access to objects, identities and
rights, modes, events, fault reports, MSI-X messages, the Yard, and the readiness conditions. -/
namespace Sys2Proof.Machine

/-! ## Answers -/

/-- A command whose own condition holds has its effect; where it does not hold the event has not occurred and
nothing changes (log 1). -/
def occurs (s : State) (cond : Bool) (f : State → State) : Answer := .next (if cond then f s else s)

/-! ## Objects -/

def State.sq (s : State) (n : Nat) : Option Sq := s.qe.sqs.find n
def State.cq (s : State) (m : Nat) : Option Cq := s.qe.cqs.find m
def State.aq (s : State) (fn : Nat) : Aq := s.qe.aqs.get fn Aq.reset
def State.updSq (s : State) (n : Nat) (f : Sq → Sq) : State := { s with qe := { s.qe with sqs := s.qe.sqs.upd n f } }
def State.updCq (s : State) (m : Nat) (f : Cq → Cq) : State := { s with qe := { s.qe with cqs := s.qe.cqs.upd m f } }
def State.updAq (s : State) (fn : Nat) (f : Aq → Aq) : State :=
  { s with qe := { s.qe with aqs := s.qe.aqs.mod fn Aq.reset f } }

/-- Engines per cluster, and in the part. -/
def engPerCluster : Nat := 72
def engCount : Nat := 1152

def State.engine (s : State) (e : Nat) : Engine := s.eng.engines.get e (Engine.reset (e % engPerCluster))
def State.updEngine (s : State) (e : Nat) (f : Engine → Engine) : State :=
  { s with eng := { s.eng with engines := s.eng.engines.mod e (Engine.reset (e % engPerCluster)) f } }
def State.prog (s : State) (e : Nat) : Option Prog := (s.engine e).prog
def State.updProg (s : State) (e : Nat) (f : Prog → Prog) : State :=
  s.updEngine e (fun g => { g with prog := g.prog.map f })
def State.cluster (s : State) (c : Nat) : Cluster := s.eng.clusters.get c Cluster.reset
def State.updCluster (s : State) (c : Nat) (f : Cluster → Cluster) : State :=
  { s with eng := { s.eng with clusters := s.eng.clusters.mod c Cluster.reset f } }
def State.crew (s : State) (k : Nat) : Option Crew := s.eng.crews.find k
def State.updCrew (s : State) (k : Nat) (f : Crew → Crew) : State :=
  { s with eng := { s.eng with crews := s.eng.crews.upd k f } }
def State.bar (s : State) (b : Nat) : Barrier := s.eng.bars.get b Barrier.reset
def State.updBar (s : State) (b : Nat) (f : Barrier → Barrier) : State :=
  { s with eng := { s.eng with bars := s.eng.bars.mod b Barrier.reset f } }
def State.mover (s : State) (m : Nat) : Mover := s.mv.movers.get m Mover.reset
def State.updMover (s : State) (m : Nat) (f : Mover → Mover) : State :=
  { s with mv := { s.mv with movers := s.mv.movers.mod m Mover.reset f } }
def State.cpq (s : State) (q : Nat) : CQueue := s.cpl.queues.get q CQueue.reset
def State.updCpq (s : State) (q : Nat) (f : CQueue → CQueue) : State :=
  { s with cpl := { s.cpl with queues := s.cpl.queues.mod q CQueue.reset f } }
def State.mchan (s : State) (n : Nat) : MChan := s.mbx.chans.get n MChan.reset
def State.updMchan (s : State) (n : Nat) (f : MChan → MChan) : State :=
  { s with mbx := { s.mbx with chans := s.mbx.chans.mod n MChan.reset f } }
def State.timer (s : State) (t : Nat) : Timer := s.tmr.timers.get t Timer.reset
def State.updTimer (s : State) (t : Nat) (f : Timer → Timer) : State :=
  { s with tmr := { s.tmr with timers := s.tmr.timers.mod t Timer.reset f } }
def State.hfn (s : State) (fn : Nat) : Fn := s.hpc.fns.get fn Fn.reset
def State.updHfn (s : State) (fn : Nat) (f : Fn → Fn) : State :=
  { s with hpc := { s.hpc with fns := s.hpc.fns.mod fn Fn.reset f } }
def State.hport (s : State) (p : Nat) : HPort := s.hpc.ports.get p HPort.reset
def State.updHport (s : State) (p : Nat) (f : HPort → HPort) : State :=
  { s with hpc := { s.hpc with ports := s.hpc.ports.mod p HPort.reset f } }
def State.fport (s : State) (p : Nat) : FPort := s.field.ports.get p FPort.reset
def State.updFport (s : State) (p : Nat) (f : FPort → FPort) : State :=
  { s with field := { s.field with ports := s.field.ports.mod p FPort.reset f } }
def State.xt (s : State) (n : Nat) : Xt := s.lpc.xts.get n Xt.reset
def State.updXt (s : State) (n : Nat) (f : Xt → Xt) : State :=
  { s with lpc := { s.lpc with xts := s.lpc.xts.mod n Xt.reset f } }
def State.dreq (s : State) (n : Nat) : Dreq := s.lpc.dreqs.get n Dreq.reset
def State.updDreq (s : State) (n : Nat) (f : Dreq → Dreq) : State :=
  { s with lpc := { s.lpc with dreqs := s.lpc.dreqs.mod n Dreq.reset f } }
def State.uart (s : State) (n : Nat) : Uart := s.lpc.uarts.get n Uart.reset
def State.updUart (s : State) (n : Nat) (f : Uart → Uart) : State :=
  { s with lpc := { s.lpc with uarts := s.lpc.uarts.mod n Uart.reset f } }
def State.chan (s : State) (n : Nat) : Chan := s.fc.chans.get n Chan.reset
def State.updChan (s : State) (n : Nat) (f : Chan → Chan) : State :=
  { s with fc := { s.fc with chans := s.fc.chans.mod n Chan.reset f } }
def State.lun (s : State) (l : Nat) : Lun := s.fc.luns.get l Lun.absent
def State.updLun (s : State) (l : Nat) (f : Lun → Lun) : State :=
  { s with fc := { s.fc with luns := s.fc.luns.upd l f } }
def State.slotTable (s : State) (t : Nat) : SlotTable := s.sch.tables.get t SlotTable.reset
def State.updTable (s : State) (t : Nat) (f : SlotTable → SlotTable) : State :=
  { s with sch := { s.sch with tables := s.sch.tables.mod t SlotTable.reset f } }
def State.stream (s : State) (n : Nat) : Option Stream := s.mm.streams.find n
def State.updStream (s : State) (n : Nat) (f : Stream → Stream) : State :=
  { s with mm := { s.mm with streams := s.mm.streams.upd n f } }
def State.region (s : State) (n : Nat) : Option Region := s.mm.regions.find n
def State.updRegion (s : State) (n : Nat) (f : Region → Region) : State :=
  { s with mm := { s.mm with regions := s.mm.regions.upd n f } }
/-- No stream, or no region, of that id that words can use: with the key slots cleared by full debug, encrypted objects are closed
to them (Table 14.8). -/
def State.noStream (s : State) (n : Nat) : Bool :=
  match s.stream n with | none => true | some x => x.enc && s.tru.keysCleared
def State.noRegion (s : State) (n : Nat) : Bool :=
  match s.region n with | none => true | some x => x.enc && s.tru.keysCleared

/-- Use of an encrypted object's key pair: it stands in one of the 256 key slots, the least recently used giving way (R408). A
slot is named by its stream, or by 65536 + its region. -/
def State.useKey (s : State) (k : Nat) (enc : Bool) : State :=
  if enc && !s.tru.keysCleared then
    { s with tru := { s.tru with slots := ((s.tru.slots.filter (fun j => decide (j ≠ k))).reverse.take 255).reverse ++ [k] } }
  else s
def State.useStream (s : State) (n : Nat) : State := s.useKey n (match s.stream n with | some x => x.enc | none => false)
def State.useRegion (s : State) (n : Nat) : State := s.useKey (65536 + n) (match s.region n with | some x => x.enc | none => false)

def State.updSeg (s : State) (n : Nat) (f : Segment → Segment) : State :=
  { s with mm := { s.mm with segs := s.mm.segs.upd n f } }

/-- Engines by number, 72 × cluster + slot, in ascending order. -/
def clusterEngines (c : Nat) : List Nat := (List.range engPerCluster).map (fun k => c * engPerCluster + k)

/-- Engines that run a program meeting `p`, in ascending order. -/
def State.engsWith (s : State) (p : Prog → Bool) : List Nat :=
  s.eng.engines.keys (fun _ g => match g.prog with | some q => p q | none => false)

/-- One free value: the counter to use, and the state with the counter advanced (log 2). -/
def State.takeFree (s : State) : Nat × State := (s.free, { s with free := s.free + 1 })

/-- Note what the part drives to the outside. -/
def State.drive (s : State) (o : Output) : State := { s with out := o :: s.out }

/-! ## Identities and rights (R319, R398 to R400) -/

/-- The MID of PCIe function `fn`: 0 to 3 on port A, 0x08 to 0x0B on port B (R319). -/
def midOf (fn : Nat) : Nat := if fn < 4 then fn else fn + 4

/-- The function of a host MID. -/
def fnOf (mid : Nat) : Option Nat :=
  if mid < 4 then some mid else if 8 ≤ mid ∧ mid < 12 then some (mid - 4) else none

def isHostMid (mid : Nat) : Bool := (fnOf mid).isSome

/-- The port of a function. -/
def portOf (fn : Nat) : Nat := fn / 4

/-- Whether `mid` holds right bit `bit` over object `obj` of kind `kind` (R400). -/
def State.holds (s : State) (mid kind obj bit : Nat) : Bool :=
  if mid = 0x10 || mid = 0x11 || mid = 0x12 then true
  else if isHostMid mid then
    !s.otp.locked || s.tru.rules.any (fun r => decide (r.kind = kind) && decide (r.mid = mid) && r.rights.getLsbD bit
      && decide (r.first ≤ obj) && decide (obj ≤ r.last))
  else false

/-- First byte of Yard partition `k` (R21, Table 1.9). -/
def State.partBase (s : State) (k : Nat) : Nat := sumBy id (s.top.parts.take k) * mib
def State.partSize (s : State) (k : Nat) : Nat := s.top.parts.getD k 0 * mib
def yardSize : Nat := 128 * mib

/-- Whether `[lo, lo + len)` meets partition `k`. -/
def State.meetsPart (s : State) (k lo len : Nat) : Bool :=
  decide (lo < s.partBase k + s.partSize k) && decide (s.partBase k < lo + len)

/-- Extend `lo` past every interval that covers it, at most `fuel` times. -/
def coverFrom (iv : List (Nat × Nat)) : Nat → Nat → Nat
  | 0, lo => lo
  | fuel + 1, lo => coverFrom iv fuel (iv.foldl (fun m i => if i.1 ≤ lo ∧ lo ≤ i.2 then max m (i.2 + 1) else m) lo)

/-- Whether `mid` may read or write every byte of a Yard range (Table 3.6, R400): the range lies in the union of its
Yard windows, meets no partition that is never granted, and meets the vault pins on a read only. -/
def State.yardGranted (s : State) (mid lo len : Nat) (write : Bool) : Bool :=
  let never := [0, 1, 2, 3, 4, 6].any (fun k => s.meetsPart k lo len)
  let pins := write && s.meetsPart 5 lo len
  let bit := if write then 1 else 0
  let iv := (s.tru.rules.filter (fun r => decide (r.kind = 2) && decide (r.mid = mid) && r.rights.getLsbD bit)).map
    (fun r => (r.first, r.last))
  let covered := !s.otp.locked || decide (lo + len ≤ coverFrom iv (iv.length + 1) lo)
  !never && !pins && decide (lo + len ≤ yardSize) && covered

/-- BAR0 block number of an offset (kind 0x08). -/
def blockOf (off : Nat) : Nat := off / 0x80000

/-- An identity that no function fence cuts off (R382). -/
def State.midLive (s : State) (mid : Nat) : Bool := match fnOf mid with | some fn => !s.fcs.fencedFns.contains fn | none => true

/-- A host reaches BAR0 from Load on: before, its port answers no more than configuration requests. Until the admin queues run, reads of the TOP
and FCS blocks alone are served (R447). -/
def State.barServes (s : State) (mid blk : Nat) (write : Bool) : Bool :=
  !isHostMid mid || (match s.top.mode with
    | .off | .backup | .boot => false
    | .load => write || decide (blk < 2) || decide (blk = 28) || decide (blk = 29)
    | _ => true)

/-- Whether `mid` may read a register of BAR0 block `blk`: the block's read right, its own QE page, the TOP block, or a debug level;
a fenced function reads TOP and FCS only (R382, R400, R417, R447, R458). `page` says that the register lies in the QE page. -/
def State.mayRead (s : State) (mid blk : Nat) (page : Bool) : Bool :=
  let right := s.holds mid 8 blk 0 || page || decide (blk < 2) || (decide (mid = 0x13) && decide (0 < s.tru.debugLevel))
  right && s.barServes mid blk false && (s.midLive mid || decide (blk < 2) || decide (blk = 28) || decide (blk = 29))

/-- From t0 on no configuration changes (R18). -/
def State.frozen (s : State) : Bool := decide (s.top.mode = .quench) || decide (s.top.mode = .hold)

/-- Whether `mid` may write a register of BAR0 block `blk` (R18, R382, R400, R447, R458). -/
def State.mayWrite (s : State) (mid blk : Nat) : Bool := !s.frozen && s.barServes mid blk true && s.holds mid 8 blk 1 && s.midLive mid

/-! ## W1C bits (R9) -/

/-- A hardware event sets bit `bit` of the W1C register `reg`: a clear in the same tick does not touch it (R9). Registers of BAR0 are named by their
offset. -/
def State.sets (s : State) (reg bit : Nat) : State := { s with top := { s.top with hot := (reg, BitVec.ofNat 32 (2 ^ bit)) :: s.top.hot } }

/-- Where `b` holds. -/
def State.setsIf (s : State) (b : Bool) (reg bit : Nat) : State := if b then s.sets reg bit else s

/-- A write to the W1C register `reg` as it takes effect: the bits that an event has set in its tick stand (R9). -/
def State.clears (s : State) (reg : Nat) (v : W32) : W32 := s.top.hot.foldl (fun v h => if h.1 = reg then v &&& ~~~ h.2 else v) v

/-- A register of a function's QE page, and a mailbox window word of BAR4, as `sets` names them. -/
def qeReg (fn off : Nat) : Nat := (fn + 1) * 2 ^ 32 + 0x200000 + off
def windowReg (mid off : Nat) : Nat := (mid + 64) * 2 ^ 32 + off

/-! ## Modes (R440) -/

def Mode.code : Mode → Nat
  | .off => 0 | .backup => 1 | .boot => 2 | .load => 3 | .provision => 4 | .service => 5 | .degraded => 6
  | .quench => 7 | .hold => 8 | .rebuild => 9 | .update => 10 | .diagnostic => 11

def State.mode (s : State) : Mode := s.top.mode
def State.inMode (s : State) (ms : List Mode) : Bool := ms.any (fun m => decide (m = s.top.mode))

/-! ## Readiness (R33, R200, R205, R242) -/

/-- Landing limit and class-0 reserve in bytes. -/
def State.limitBytes (s : State) : Nat := s.lq.limitMib * mib
def State.reserveBytes (s : State) : Nat := s.lq.reserve64k * 65536

def State.c0Covered (s : State) : Bool := decide (s.reserveBytes ≤ s.limitBytes) && s.lq.armed

def SlotTable.owner (t : SlotTable) (i : Nat) : Nat := (if t.activeB then t.bankB else t.bankA).get i (defaultOwner i)

/-- Positions of class-0 slots among `owners` of one frame. -/
def c0Positions (owner : Nat → Nat) : List Nat := (List.range 512).filter (fun i => decide (owner i = 1))

/-- Longest gap between starts of consecutive entries of `ps`, wrapping at 512. -/
def gapsMax : List Nat → Nat → Nat
  | [], _ => 512
  | [p], first => first + 512 - p
  | p :: q :: t, first => max (q - p) (gapsMax (q :: t) first)

/-- The class-0 slot requirement (R205). -/
def c0SlotsOk (owner : Nat → Nat) : Bool :=
  let ps := c0Positions owner
  decide (16 ≤ ps.length) && decide (gapsMax ps (ps.headD 0) ≤ 64)

/-- Channels that hold a fast-lane LUN. -/
def State.flChannels (s : State) : List Nat :=
  (List.range 16).filter (fun n => s.fc.luns.any (fun p => decide (p.1 / 32 = n) && p.2.fastLane))

def State.slotsOk (s : State) : Bool :=
  (16 :: s.flChannels).all (fun t => c0SlotsOk (s.slotTable t).owner)

def State.modeOk (s : State) : Bool := s.inMode [.service, .update] || (s.inMode [.degraded] && !s.fcs.lost)

/-- TOP_STATUS.GUARANTEE_READY: conditions 4 to 7 of R199 (R200). -/
def State.guaranteeReady (s : State) : Bool := s.mm.flReady && s.c0Covered && s.modeOk && s.slotsOk

/-- Unfenced fast-lane LUNs. -/
def State.flLuns (s : State) : List Nat := s.fc.luns.keys (fun _ l => l.fastLane && !l.fenced && l.present)

/-- A unit is fenced or the safe state holds (R385). -/
def State.anyFenced (s : State) : Bool :=
  s.fcs.safeState || !s.fcs.fencedFns.isEmpty || !s.fcs.fencedPorts.isEmpty
  || s.eng.engines.any (fun p => p.2.fenced) || s.eng.clusters.any (fun p => p.2.fenced)
  || s.mv.movers.any (fun p => p.2.fenced) || s.fc.luns.any (fun p => p.2.fenced) || s.fc.chans.any (fun p => p.2.fenced)

/-! ## Events, reports and messages -/

/-- Unit kinds of a fault report (R369, Table 12.3). -/
def kindEng : Nat := 1
def kindCluster : Nat := 2
def kindMover : Nat := 3
def kindLun : Nat := 4
def kindChan : Nat := 5
def kindFunction : Nat := 6
def kindField : Nat := 7
def kindBank : Nat := 8
def kindXt : Nat := 9
def kindMgpUnit : Nat := 0xA
def kindRail : Nat := 0xB
def kindLane : Nat := 0xC
def kindTru : Nat := 0xD

/-- Hold an admin event, coalescing a repeat of its code and number (R185). -/
def holdEvent (code num : Nat) (info : W64) (no : Nat) : List AEvent → List AEvent
  | [] => [{ code := code, num := num, count := 1, info := info, no := no }]
  | e :: t => if e.code = code ∧ e.num = num then { e with count := satAdd 32 e.count 1 } :: t
      else e :: holdEvent code num info no t

def State.postEvent (s : State) (fn code num : Nat) (info : W64) : State :=
  let s' := s.updAq fn (fun a => { a with events := holdEvent code num info s.qe.nextStage a.events })
  { s' with qe := { s'.qe with nextStage := s.qe.nextStage + 1 } }

/-- Post an event to every function whose access rules allow reading BAR0 block `blk` (R265, R397, R439). -/
def State.postEventAll (s : State) (blk code num : Nat) (info : W64) : State :=
  (List.range 8).foldl (fun s fn => if s.holds (midOf fn) 8 blk 0 && !s.fcs.fencedFns.contains fn
    then s.postEvent fn code num info else s) s

/-- Post a trust event to every function of the consent group (R418). -/
def State.trustEvent (s : State) (code num : Nat) (info : W64) : State :=
  s.tru.group.foldl (fun s m => match fnOf m with | some fn => s.postEvent fn code num info | none => s) s

/-- CONSENT_RESOLVED of a proposal, with its outcome and the resolving MID (Table 14.9). -/
def State.consentResolved (s : State) (p : Proposal) (outcome mid : Nat) : State :=
  s.trustEvent 0x0081 (leAt p.packet 0 2) (BitVec.ofNat 64 (p.id + outcome * 2 ^ 32 + mid * 2 ^ 40))

/-- End the pending proposals that meet `p` with an outcome (R413, R414). -/
def State.endProps (s : State) (p : Proposal → Bool) (outcome mid : Nat) : State :=
  let ps := s.tru.props.filter p
  let s := { s with tru := { s.tru with props := s.tru.props.filter (fun x => !p x) } }
  ps.foldl (fun s x => s.consentResolved x outcome mid) s

/-- Report a source to the Fault Collector. A pulsed report that falls in a handling window is lost (R373). -/
def State.report (s : State) (cls detail kind unit : Nat) (info : W64) : State :=
  if s.fcs.window then s
  else { s with fcs := { s.fcs with inbox := s.fcs.inbox ++ [{ cls, detail, kind, unit, info }] } }

/-- Whether the part may issue requests for a function (R320, R323, R382). -/
def State.canIssue (s : State) (fn : Nat) : Bool :=
  (s.hport (portOf fn)).dlUp && (s.hfn fn).bme && !s.fcs.fencedFns.contains fn

/-- Whether a vector is masked in the MSI-X table (masked at reset). -/
def Fn.masked (f : Fn) (v : Nat) : Bool := (f.vecs.get v (0, 0, true)).2.2

/-- An event of vector `v`: its message goes out, or its pending bit is set (R321). -/
def State.sendMsix (s : State) (fn v : Nat) : State :=
  let f := s.hfn fn
  if f.msixEn && !f.fmask && !f.masked v && s.canIssue fn then s.drive (.msix fn v)
  else s.updHfn fn (fun f => { f with pba := if f.pba.contains v then f.pba else v :: f.pba })

/-! ## Mode transitions (R440) -/

/-- At the entry to Provision the DIAG_RUN packets that t0 interrupted there run again, as packets that wait for their turn (R275). -/
def State.redoTests (s : State) : State :=
  let again := s.mgp.redo.zipIdx.map (fun p =>
    { p.1 with tick := s.tick, no := s.qe.nextStage + p.2, started := false, begun := 0, resetting := false, mute := true })
  { s with
    mgp := { s.mgp with staged := s.mgp.staged ++ again, redo := [] }
    qe := { s.qe with nextStage := s.qe.nextStage + again.length } }

/-- Take a mode transition: TOP_MODE and TOP_MODE_TIME (R440); the entry to a fetching mode acts as a doorbell on every
queue with entries (R442); the Landing-empty mark is cleared (R484); frames count from the first tick of Service (R216; of Degraded or Diagnostic
where the part enters these first: DESIGN CHOICE, log 99), and Service resumes the slot tables (R223); pending proposals are discarded (R414). -/
def State.setMode (s : State) (m : Mode) : State :=
  let s := if m = .provision then s.redoTests else s
  let top := { s.top with prev := s.top.mode.code, mode := m, changes := wrapAdd 16 s.top.changes 1, modeTime := s.tmr.time }
  let s := { s with top := top }
  let s := s.endProps (fun _ => true) 6 0x3F
  if m = .service || m = .degraded || m = .update || m = .diagnostic then
    let wake := fun (_ : Nat) (q : Sq) => if q.head ≠ q.tail then { q with stopped := false, bells := [(q.tail, s.tick)] } else q
    let s := { s with qe := { s.qe with sqs := s.qe.sqs.all wake } }
    let s := if m = .diagnostic then s else { s with mm := { s.mm with landingEmpty := false } }
    let frames := if s.sch.frameFrom.isNone || s.sch.quenchHeld then some s.tick else s.sch.frameFrom
    if m = .service || m = .degraded then { s with sch := { s.sch with quenchHeld := false, frameFrom := frames } }
    else if s.sch.frameFrom.isNone then { s with sch := { s.sch with frameFrom := frames } }
    else s
  else s

/-! ## The Yard (R485) -/

/-- The aligned 8-byte words that `[lo, lo + len)` meets. -/
def yardWords (lo len : Nat) : List Nat :=
  if len = 0 then [] else (List.range ((lo + len - 1) / 8 - lo / 8 + 1)).map (fun k => (lo / 8 + k) * 8)

/-- Whether a read of the range meets an uncorrectable word. -/
def Yard.badIn (y : Yard) (lo len : Nat) : Bool := y.bad.any (fun w => decide (w < lo + len) && decide (lo < w + 8))

def Yard.read (y : Yard) (lo len : Nat) : List Byte := y.mem.readN lo len

def Yard.byte (y : Yard) (a : Nat) : Byte := (y.mem.readN a 1).headD 0

/-- Write bytes; a write that covers a whole uncorrectable word clears its error, a partial one leaves it. -/
def Yard.write (y : Yard) (lo : Nat) (bs : List Byte) : Yard :=
  { mem := y.mem.writeN lo bs
    bad := y.bad.filter (fun w => !(decide (lo ≤ w) && decide (w + 8 ≤ lo + bs.length))) }

/-- Source class of a Yard error by partition (R485, Table 13.3). -/
def State.yardClass (s : State) (a : Nat) : Nat :=
  if s.meetsPart 0 a 1 then 0x03 else if s.meetsPart 5 a 1 then 0x04 else 0x01

/-- Report the uncorrectable words that an access to the range meets. -/
def State.reportBad (s : State) (lo len : Nat) : State :=
  (s.yard.bad.filter (fun w => decide (w < lo + len) && decide (lo < w + 8))).foldl
    (fun s w => s.report (s.yardClass w) 0 kindBank (w / (2 * mib)) (BitVec.ofNat 64 w)) s

/-- The first uncorrectable word that a read of the range meets. -/
def Yard.firstBad (y : Yard) (lo len : Nat) : Option Nat :=
  minBy id (y.bad.filter (fun w => decide (w < lo + len) && decide (lo < w + 8)))

/-- Report the uncorrectable words that a write covers in part: at most the words of its two ends. -/
def State.reportPart (s : State) (lo len : Nat) : State :=
  let first := lo / 8 * 8
  let last := (lo + len - 1) / 8 * 8
  let part := fun (w : Nat) => decide (w < lo) || decide (lo + len < w + 8)
  let s' := if part first then s.reportBad lo (min len (first + 8 - lo)) else s
  if part last && decide (first ≠ last) then s'.reportBad last 1 else s'

/-- A word has become uncorrectable (R485). -/
def State.markBad (s : State) (a : Nat) : State :=
  let w := a / 8 * 8
  if s.yard.bad.contains w then s else { s with yard := { s.yard with bad := w :: s.yard.bad } }

/-- Write to the Yard; a write that covers a part of an uncorrectable word reports its error as a read would, one that covers the whole
word clears it without a report (R485). -/
def State.yardWrite (s : State) (lo : Nat) (bs : List Byte) : State :=
  let y := s.yard.write lo bs
  if s.yard.bad.isEmpty then { s with yard := y } else { s.reportPart lo bs.length with yard := y }

/-! ## Time -/

/-- Device time as a number. -/
def State.now (s : State) : Nat := s.tmr.time.toNat

/-- CLK_TIME ticks since `t`, in nanoseconds. -/
def State.sinceNs (s : State) (t : Nat) : Nat := (s.tick - t) * 10

/-- Whether `us` microseconds of ticks have passed since tick `t`. -/
def State.passedUs (s : State) (t us : Nat) : Bool := decide (us * usNs ≤ s.sinceNs t)

def State.passedMs (s : State) (t ms : Nat) : Bool := decide (ms * msNs ≤ s.sinceNs t)

/-- The rollback floor: the blown fuses, or MC0 while a raise is in progress (R406). -/
def State.rollbackFloor (s : State) : Nat := max s.otp.fuses (min (s.psv.mc.get 0 0) 64)

end Sys2Proof.Machine
end

