-- ==== Sys2Proof/Machine/Channels.lean ====
section
/-! DEFINITION. The credit arbiters (R225 to R231), the channels of the movers (R298 to R300, R303), the LDPC lanes and TRU engines
of codec descriptors, and the channel that an engine's data operation takes (R299). -/
namespace Sys2Proof.Machine

/-! ## Requesters (R215, R225 to R229) -/

/-- Anneal is requester 256. -/
def annealReq : Nat := 256

/-- The default weight of a requester (R215). -/
def State.defaultWeight (s : State) (r : Nat) : Nat :=
  if r = annealReq then 4 else match s.crew r with | some k => if k.cls = 2 then 16 else 1 | none => 1

/-- Its weight as of the last refill. -/
def State.weightNow (s : State) (r : Nat) : Nat := s.sch.refilled.get r (s.defaultWeight r)

def reqKey (arb r : Nat) : Nat := 512 * arb + r

/-- A requester at an arbiter; before its first grant its credit is that of the last refill. -/
def State.reqr (s : State) (arb r : Nat) : Reqr :=
  s.sch.reqs.get (reqKey arb r) { credit := s.weightNow r * 64, grants := 0, lost := 0, maxWaitNs := 0, starved := 0 }

def State.updReqr (s : State) (arb r : Nat) (f : Reqr → Reqr) : State :=
  { s with sch := { s.sch with reqs := s.sch.reqs.put (reqKey arb r) (f (s.reqr arb r)) } }

/-- The credit requester of a class and crew: classes 2 and 3, and Anneal. -/
def creditReq (cls crew : Nat) : Option Nat := if cls = 2 ∨ cls = 3 then some crew else if cls = 4 then some annealReq else none

/-- The waiting requester with the largest credit; on equal credit the lower number (R226). -/
def State.richest (s : State) (arb : Nat) (rs : List Nat) : Option Nat :=
  minBy (fun r => (2 ^ 24 - (s.reqr arb r).credit) * 512 + r) rs

/-- A grant to requester `w`, which asked at tick `asked`, in its Tally (R229); its starvation count starts again (R228). -/
def State.countGrant (s : State) (arb w asked : Nat) : State :=
  s.updReqr arb w (fun q => { q with
    grants := wrapAdd 32 q.grants 1, starved := 0, maxWaitNs := min (max q.maxWaitNs (s.sinceNs asked)) 0xFFFFFFFF })

/-- Every other waiting requester loses a round (R226, R229). -/
def State.loseRounds (s : State) (arb w : Nat) (rs : List Nat) : State :=
  (rs.filter (fun r => decide (r ≠ w))).foldl (fun s r => s.updReqr arb r (fun q => { q with lost := wrapAdd 32 q.lost 1 })) s

/-- A credit grant of `units` units to requester `w` among the waiting requesters `rs` (R226). -/
def State.creditGrant (s : State) (arb w units asked : Nat) (rs : List Nat) : State :=
  ((s.countGrant arb w asked).updReqr arb w (fun q => { q with credit := q.credit - 64 * units })).loseRounds arb w rs

/-- A unit held beyond its limit keeps its resource blocked for every class until its holder is fenced (R232). -/
def State.blocked (s : State) (arb : Nat) : Bool := s.sch.holds.has arb

/-! ## Channels of a mover -/

def Mover.chan (m : Mover) (c : Nat) : MvCh := m.chans.get c MvCh.reset
def Mover.updChan (m : Mover) (c : Nat) (f : MvCh → MvCh) : Mover := { m with chans := m.chans.mod c MvCh.reset f }

def State.mvCh (s : State) (m c : Nat) : MvCh := (s.mover m).chan c
def State.updMvCh (s : State) (m c : Nat) (f : MvCh → MvCh) : State := s.updMover m (fun x => x.updChan c f)

/-! ## Lanes and TRU engines (R225, R230, R231, Table 7.9) -/

def State.lane (s : State) (arb : Nat) : Lane := s.sch.lanes.get arb Lane.reset
def State.updLane (s : State) (arb : Nat) (f : Lane → Lane) : State :=
  { s with sch := { s.sch with lanes := s.sch.lanes.mod arb Lane.reset f } }

/-- Order of class 1: earliest DEADLINE (none is last), then the lower crew, then the earlier request (R213). -/
def c1Order (deadline : W64) (crew asked : Nat) : Nat :=
  ((if deadline = 0 then 2 ^ 64 else deadline.toNat) * 512 + crew) * 2 ^ 64 + asked

def CodecJob.serves (j : CodecJob) (m c : Nat) : Bool := decide (j.mover = m) && decide (j.chan = c)

/-- The lane or engine begins job `j`: a restart counts (R231), and the grant is counted. -/
def State.startJob (s : State) (arb : Nat) (j : CodecJob) : State :=
  let s := if j.again then { s with sch := { s.sch with restarts := wrapAdd 32 s.sch.restarts 1 } } else s
  let rs := ((s.lane arb).queue.map (fun q => q.requester)).eraseDups
  let s := if 2 ≤ j.cls then s.creditGrant arb j.requester 1 j.askedAt rs
    else (s.countGrant arb j.requester j.askedAt).loseRounds arb j.requester rs
  s.updLane arb (fun l => { l with job := some { j with again := false } })

/-- The job that a free lane or engine takes: class 0, then class 1 by deadline, then classes 2 and 3 by credit; a preempted job goes
first in its class (Table 7.8, R213, R231). -/
def State.nextJob (s : State) (arb : Nat) : Option CodecJob :=
  let q := (s.lane arb).queue
  match q.find? (fun j => decide (j.cls = 0)) with
  | some j => some j
  | none =>
    let l1 := q.filter (fun j => decide (j.cls = 1))
    match l1.find? (fun j => j.again), minBy (fun j => c1Order j.deadline j.requester j.askedAt) l1 with
    | some j, _ => some j
    | none, some j => some j
    | none, none => match q.find? (fun j => j.again) with
      | some j => some j
      | none => (s.richest arb ((q.map (fun j => j.requester)).eraseDups)).bind (fun r => q.find? (fun j => decide (j.requester = r)))

/-- A free lane or engine takes its next job. -/
def State.runLane (s : State) (arb : Nat) : State :=
  if (s.lane arb).job.isSome || s.blocked arb then s
  else match s.nextJob arb with
    | none => s
    | some j => (s.updLane arb (fun l => { l with queue := l.queue.erase j })).startJob arb j

/-- A job asks for a lane or engine: class 0 takes it at once from a job of another class, which goes to the head (Table 7.9, R231). -/
def State.askLane (s : State) (arb : Nat) (j : CodecJob) : State :=
  match (s.lane arb).job with
  | some h =>
    if j.cls = 0 ∧ h.cls ≠ 0 ∧ !s.blocked arb then
      (s.updLane arb (fun l => { job := none, queue := { h with again := true, askedAt := s.tick } :: l.queue })).startJob arb j
    else s.updLane arb (fun l => { l with queue := l.queue ++ [j] })
  | none => if s.blocked arb then s.updLane arb (fun l => { l with queue := l.queue ++ [j] }) else s.startJob arb j

/-- Of `n` units from arbiter id `base` on, the one with the fewest jobs, the lower number on a tie (log 83). -/
def State.laneFor (s : State) (base n : Nat) : Nat :=
  (minBy (fun a => (s.lane a).queue.length + (if (s.lane a).job.isSome then 1 else 0)) ((List.range n).map (fun k => base + k))).getD base

/-- A codec descriptor asks for an LDPC lane where it decodes, and for a TRU engine for its cipher (Table 10.2). -/
def State.askCodec (s : State) (m c : Nat) (d : Desc) : State :=
  let j : CodecJob := { mover := m, chan := c, cls := d.cls, requester := d.requester, deadline := (s.mvCh m c).deadline, askedAt := s.tick, again := false }
  let s := if d.token.getLsbD 0 then s.askLane (s.laneFor 96 16) j else s
  s.askLane (s.laneFor 112 4) j

/-- Lanes and engines that hold or queue a job of a channel. -/
def State.lanesOf (s : State) (m c : Nat) : List Nat :=
  s.sch.lanes.keys (fun _ l => l.queue.any (fun j => j.serves m c) || (match l.job with | some j => j.serves m c | none => false))

/-- Every lane and engine that the channel asked for runs its job. -/
def State.codecReady (s : State) (m c : Nat) : Bool :=
  (s.lanesOf m c).all (fun a => match (s.lane a).job with | some j => j.serves m c | none => false)

/-- The jobs of a channel leave their lanes and engines, which take the next. -/
def State.endCodec (s : State) (m c : Nat) : State :=
  (s.lanesOf m c).foldl (fun s a => (s.updLane a (fun l =>
    { job := (match l.job with | some j => if j.serves m c then none else some j | none => none)
      queue := l.queue.filter (fun j => !j.serves m c) })).runLane a) s

/-! ## Mover channels (R298, R300, R303) -/

/-- The mover runs descriptors: outside Boot and Quench, and while no test program is loaded (R307, R442). -/
def State.descMode (s : State) (m : Nat) : Bool :=
  decide (m < 64) && !(s.mover m).prgMode && !(s.mover m).fenced
    && s.inMode [.load, .provision, .service, .degraded, .rebuild, .update, .diagnostic]

/-- Channels whose active descriptor is ready, with it. -/
def Mover.readyChans (m : Mover) : List (Nat × Desc) :=
  (List.range 16).filterMap (fun c => match (m.chan c).st, (m.chan c).active with
    | .ready, some d => some (c, d)
    | _, _ => none)

/-- Where a ready class-1 descriptor stands (R300). -/
def Mover.c1Key (x : Mover) (p : Nat × Desc) : Nat := c1Order (x.chan p.1).deadline p.2.requester (x.chan p.1).readyAt

/-- The channel that R300 picks: class 0 by channel, class 1 by DEADLINE, then a preempted descriptor goes on, then classes 2 and 3 by
credit. -/
def State.pickChan (s : State) (m : Nat) : Option Nat :=
  let x := s.mover m
  let l := x.readyChans
  match l.find? (fun p => decide (p.2.cls = 0)) with
  | some p => some p.1
  | none => match x.preemptCh with
    | some c => some c
    | none => match minBy x.c1Key (l.filter (fun p => decide (p.2.cls = 1))) with
      | some p => some p.1
      | none =>
        (s.richest (32 + m) ((l.map (fun p => p.2.requester)).eraseDups)).bind (fun r =>
          (l.find? (fun p => decide (p.2.requester = r))).map (·.1))

/-- The grant of the mover to channel `c`: every other waiting requester loses a round (R225, R226, R229). -/
def State.moverGrant (s : State) (m c : Nat) (d : Desc) : State :=
  let arb := 32 + m
  let rs := ((s.mover m).readyChans.map (fun p => p.2.requester)).eraseDups
  let asked := (s.mvCh m c).readyAt
  if 2 ≤ d.cls then s.creditGrant arb d.requester ((d.length + 4095) / 4096) asked rs
  else (s.countGrant arb d.requester asked).loseRounds arb d.requester rs

/-- An idle mover takes up the next descriptor. -/
def State.runNext (s : State) (m : Nat) : State :=
  if (s.mover m).activeCh.isSome || s.blocked (32 + m) then s
  else match s.pickChan m with
    | none => s
    | some c =>
      let resumed := decide ((s.mover m).preemptCh = some c)
      let s := match (s.mvCh m c).active with
        | some d => if resumed then s else
            let s := s.moverGrant m c d
            if d.codec then s.askCodec m c d else s
        | none => s
      s.updMover m (fun x => { x.updChan c (fun k => { k with st := .running, movedAt := s.tick }) with
        activeCh := some c, preemptCh := if resumed then none else x.preemptCh })

/-- A ready class-0 descriptor preempts a running descriptor of another class at the 512 B boundary where that one stands (R230,
R300, log 84). -/
def State.preempt (s : State) (m : Nat) : State :=
  let x := s.mover m
  match x.activeCh with
  | none => s
  | some c =>
    let low := match (x.chan c).active with
      | some d => decide (d.cls ≠ 0) && decide ((x.chan c).st = .running) && x.preemptCh.isNone && !s.blocked (32 + m)
      | none => false
    if low && x.readyChans.any (fun p => decide (p.2.cls = 0)) then
      (s.updMover m (fun x => { x.updChan c (fun k => { k with st := .preempted }) with
        activeCh := none, preemptCh := some c, preempts := wrapAdd 32 x.preempts 1 })).runNext m
    else s

/-- An active descriptor enters arbitration; a paced one waits until a request is there (R298, R303). -/
def State.enter (s : State) (m c : Nat) : State :=
  let k := s.mvCh m c
  match k.active with
  | none => s
  | some d =>
    let wait := d.paced && decide (k.pending = 0)
    let s := s.updMvCh m c (fun k => { k with
      st := if wait then .waitReq else .ready, movedAt := s.tick, readyAt := s.tick, pending := if d.paced then k.pending - 1 else k.pending })
    if wait then s else (s.runNext m).preempt m

/-- DACKn of a burst: a pulse at its end, or a level from its first to its last byte (R341). -/
def State.acknowledge (s : State) (n : Nat) : State := s.drive (if (s.dreq n).cfg.getLsbD 3 then .dackBurst n else .dack n)

/-- A paced descriptor that waits takes a pending request. -/
def State.startBurst (s : State) (m c : Nat) : State :=
  let k := s.mvCh m c
  if k.st = .waitReq ∧ 0 < k.pending then s.enter m c else s

/-- The burst of a paced descriptor is over: it holds the mover no longer and waits for the next request (R300, R303). -/
def State.burstOver (s : State) (m c : Nat) : State :=
  let s := s.updMover m (fun y => { y.updChan c (fun k => { k with st := .waitReq }) with activeCh := none })
  ((s.startBurst m c).runNext m).preempt m

/-- The descriptor of a channel ends with a status; the shadow becomes active (R298, R302). -/
def State.descEnd (s : State) (m c st : Nat) : State :=
  let s := (s.endCodec m c).updMover m (fun x => { x.updChan c (fun k =>
      { k with active := k.shadow, shadow := none, moved := 0, lastStatus := st, st := .idle, deadline := 0 }) with
    activeCh := if x.activeCh = some c then none else x.activeCh, preemptCh := if x.preemptCh = some c then none else x.preemptCh })
  ((s.enter m c).runNext m).preempt m

/-- Status codes of Table 10.4. -/
def dsOk : Nat := 0
def dsLink : Nat := 1
def dsEcc : Nat := 2
def dsTimeout : Nat := 4
def dsAborted : Nat := 5
def dsShort : Nat := 6

/-! ## The channel of an engine's data operation (R299) -/

/-- Channels that a data operation of a class may take, in the order in which it tries them. -/
def opChans (cls : Nat) : List Nat := if cls ≤ 1 then List.range 8 else (List.range 7).map (· + 1)

def Mover.freeChan (x : Mover) (cls : Nat) : Option Nat := (opChans cls).find? (fun c => (x.chan c).active.isNone)

/-- Busy channels of a mover. -/
def Mover.busyChans (x : Mover) : Nat := ((List.range 16).filter (fun c => (x.chan c).active.isSome)).length

/-- The mover that an operation of cluster `c` chooses: the one with the fewest busy channels among those that have a free one for its
class, the lower number on a tie. -/
def State.opMover (s : State) (c cls : Nat) : Option Nat :=
  minBy (fun m => (s.mover m).busyChans)
    (((List.range 4).map (fun k => 4 * c + k)).filter (fun m => s.descMode m && ((s.mover m).freeChan cls).isSome))

/-- Put an engine's descriptor on a free channel of the mover it chooses; none while no channel is free. -/
def State.seize (s : State) (c : Nat) (d : Desc) (deadline : W64) : Option ((Nat × Nat) × State) :=
  match s.opMover c d.cls with
  | none => none
  | some m => match (s.mover m).freeChan d.cls with
    | none => none
    | some ch => some ((m, ch), (s.updMvCh m ch (fun k => { k with active := some d, moved := 0, deadline := deadline })).enter m ch)

/-- The engine whose data operation a channel carries. -/
def State.chanEngine (s : State) (m c : Nat) : Option Nat :=
  (s.engsWith (fun p => match p.xf with | some x => decide (x.chan = some (m, c)) | none => false)).head?

/-- The channel of the program's data operation. -/
def Prog.chan (p : Prog) : Option (Nat × Nat) := p.xf.bind (fun x => x.chan)

/-- The mover carries the program's data operation now. -/
def State.carried (s : State) (p : Prog) : Bool :=
  match p.chan with
  | some (m, c) => decide ((s.mvCh m c).st = .running) && s.descMode m
  | none => false

/-- Count `n` bytes that a mover has moved on a channel. -/
def State.moverBytes (s : State) (m c n : Nat) : State :=
  s.updMover m (fun y => { y.updChan c (fun k => { k with moved := k.moved + n, movedAt := if n = 0 then k.movedAt else s.tick }) with
    bytes := y.bytes + BitVec.ofNat 64 n })

/-- The program's data operation gives its channel back, its descriptor ending with a status. -/
def State.dropChan (s : State) (e st : Nat) : State :=
  match (s.prog e).bind Prog.chan with
  | none => s
  | some (m, c) =>
    (s.updProg e (fun p => { p with xf := p.xf.map (fun x => { x with chan := none }) })).descEnd m c st

end Sys2Proof.Machine
end

