-- ==== Sys2Proof/Machine/Landing.lean ====
section
/-! DEFINITION. The Landing (chapter 2): charges, commit groups, sealing, discarding, and the release of charges. -/
namespace Sys2Proof.Machine

/-! ## Room and charges (R31, R32, R41 to R45) -/

/-- The charge of an APPEND of `n` payload bytes, of a REGION_WRITE of `n` bytes, and of a TRIM (R31). -/
def chargeAppend (n : Nat) : Nat := roundUp (32 + n) 64
def chargeRegion (n : Nat) : Nat := n + 64
def chargeTrim : Nat := 64

/-- The largest charge a commit group may hold (R34). -/
def groupMax : Nat := 4 * mib

/-- Landing charges of a group, and the part of them still held. -/
def Group.charge (g : Group) : Nat := sumBy (fun w => w.charge) g.writes
def Group.held (g : Group) : Nat := sumBy (fun w => if w.released then 0 else w.charge) g.writes

/-- Charges held by class 0, and by classes 1 to 3. -/
def Lq.heldC0 (q : Lq) : Nat := sumBy (fun g => if g.cls = 0 then g.held else 0) q.groups
def Lq.heldShared (q : Lq) : Nat := sumBy (fun g => if g.cls = 0 then 0 else g.held) q.groups
def Lq.heldAll (q : Lq) : Nat := q.heldC0 + q.heldShared

/-- Landing reserves of running class-1 programs not yet drawn (R212). -/
def State.c1Reserved (s : State) : Nat :=
  sumBy (fun p => match p.2.prog with | some q => if q.phase = .postwait then 0 else q.reserve | none => 0) s.eng.engines

/-- The whole room of a class: the class-0 reserve, or the shared part (R32). -/
def State.wholeRoom (s : State) (cls : Nat) : Nat :=
  if cls = 0 then min s.reserveBytes s.limitBytes else s.limitBytes - s.reserveBytes

/-- Free room for a charge of a class. -/
def State.freeRoom (s : State) (cls : Nat) : Nat :=
  if cls = 0 then s.wholeRoom 0 - s.lq.heldC0 else s.wholeRoom 1 - s.lq.heldShared - s.c1Reserved

/-- Modes in which LQ grants charges (R442). -/
def State.chargeMode (s : State) : Bool := s.inMode [.service, .degraded, .update]

/-- Whether a charge of a class may be granted at all now (R42, R43, R280, R442). -/
def State.chargeOpen (s : State) (cls : Nat) : Bool :=
  s.lq.limitValid && s.lq.armed && s.chargeMode && (if cls = 0 then !s.lq.overLimit || s.c0Covered else !s.lq.overLimit)

/-- The waiting charges of a class's queue (R44). -/
def Lq.queue (q : Lq) (c0 : Bool) : List Charge := if c0 then q.c0Queue else q.shQueue

/-- Put a charge into the shared queue: every class-1 charge stands ahead of classes 2 and 3, arrivals in order. -/
def insertShared (x : Charge) : List Charge → List Charge
  | [] => [x]
  | y :: t => if x.cls = 1 ∧ 2 ≤ y.cls then x :: y :: t else y :: insertShared x t

/-- What becomes of a charge when it is attempted. -/
inductive ChargeRes where
  | granted
  | waits
  | refused
  deriving DecidableEq, Repr

/-- No charge of the class is held but those of group `g` (R45). -/
def State.onlyGroup (s : State) (cls : Nat) (g : Option Nat) : Bool :=
  s.lq.groups.all (fun h => decide ((h.cls = 0) ≠ (cls = 0)) || decide (some h.id = g) || decide (h.held = 0))

/-- The charge of the program's open group. -/
def State.groupCharge (s : State) (g : Option Nat) : Nat :=
  match g with
  | none => 0
  | some i => sumBy (fun h => if h.id = i then h.charge else 0) s.lq.groups

/-- A charge that could never fit (R45); judged only while the limit is valid and the Quench programs are armed. -/
def State.neverFits (s : State) (cls bytes : Nat) (g : Option Nat) : Bool :=
  s.lq.limitValid && s.lq.armed && decide (s.wholeRoom cls < s.groupCharge g + bytes) && s.onlyGroup cls g

/-- An earlier charge stands ahead of a new one of this class. -/
def State.standsBehind (s : State) (cls : Nat) : Bool :=
  if cls = 0 then !s.lq.c0Queue.isEmpty
  else if cls = 1 then s.lq.shQueue.any (fun c => decide (c.cls = 1)) else !s.lq.shQueue.isEmpty

/-- Attempt a charge of `bytes` for program `p` (R44, R45, R212). -/
def State.tryCharge (s : State) (p : Prog) (bytes : Nat) : ChargeRes :=
  if s.neverFits p.cls bytes p.group then .refused
  else if s.chargeOpen p.cls && decide (p.cls = 1) && decide (bytes ≤ p.reserve) then .granted
  else if s.chargeOpen p.cls && !s.standsBehind p.cls
      && decide (bytes ≤ s.freeRoom p.cls + (if p.cls = 1 then p.reserve else 0)) then .granted
  else if p.nowait then .refused else .waits

/-- Enter the waiting queue of the class. -/
def State.enqueueCharge (s : State) (e cls bytes : Nat) : State :=
  let x : Charge := { eng := e, cls := cls, bytes := bytes, tick := s.tick }
  if cls = 0 then { s with lq := { s.lq with c0Queue := s.lq.c0Queue ++ [x] } }
  else { s with lq := { s.lq with shQueue := insertShared x s.lq.shQueue } }

/-- Leave the waiting queues; the longest wait is kept in LQ_WAIT_MAX_NS. -/
def State.dropCharge (s : State) (e : Nat) : State :=
  let mine := (s.lq.c0Queue ++ s.lq.shQueue).filter (fun c => decide (c.eng = e))
  let w := mine.foldl (fun m c => max m (s.sinceNs c.tick)) s.lq.waitMaxNs
  let s := s.setsIf (decide (s.lq.waitMaxNs < min w 0xFFFFFFFF)) 0xB80034 0
  { s with lq := { s.lq with waitMaxNs := min w 0xFFFFFFFF
                             c0Queue := s.lq.c0Queue.filter (fun c => decide (c.eng ≠ e))
                             shQueue := s.lq.shQueue.filter (fun c => decide (c.eng ≠ e)) } }

/-! ## Commit groups (R34 to R40) -/

def State.group (s : State) (i : Nat) : Option Group := s.lq.groups.find? (fun g => decide (g.id = i))

def State.updGroup (s : State) (i : Nat) (f : Group → Group) : State :=
  { s with lq := { s.lq with groups := s.lq.groups.map (fun g => if g.id = i then f g else g) } }

/-- The program's open group, opened now if it has none: LQ gives it the next id (R34). -/
def State.openGroup (s : State) (e : Nat) (p : Prog) : Nat × State :=
  match p.group with
  | some g => (g, s)
  | none =>
    let i := s.lq.nextGroup
    let g : Group := { id := i, pid := p.pid, cls := p.cls, crew := p.crew, fn := p.fn, sqid := p.sqid, tag := p.tag,
                       writes := [], sealed := false, sealNo := 0, bell := p.bell, posted := false,
                       deadline := p.deadline, late := 0, missed := false, askedAt := 0 }
    let s := { s with lq := { s.lq with groups := s.lq.groups ++ [g], nextGroup := i + 1 } }
    (i, s.updProg e (fun p => { p with group := some i }))

/-- Bytes of a write that go to media for a group of class `cls`: a record's header and payload; the mapping units that a region write touches
(R57), at class 0 its own bytes, which the fast lane holds until they are folded (log 96); a TRIM's journal entry. -/
def WKind.media (cls : Nat) : WKind → Nat
  | .record _ _ _ d => 32 + d.length
  | .region _ off d => if cls = 0 then d.length else 16384 * ((off + d.length + 16383) / 16384 - off / 16384)
  | .trimStream _ _ => 64
  | .trimRegion _ _ _ => 64

/-- A write as it joins a group, or as it goes back to the Landing to be written elsewhere. -/
def GWrite.fresh (cls : Nat) (k : WKind) (charge : Nat) : GWrite :=
  { kind := k, charge := charge, left := k.media cls, seg := none, asked := false, reads := [], spots := [], pages := [], rows := [], released := false }

/-- Add a write to a group. -/
def State.addWrite (s : State) (g : Nat) (k : WKind) (charge : Nat) : State :=
  s.updGroup g (fun h => { h with writes := h.writes ++ [GWrite.fresh h.cls k charge] })

/-- Replace the bytes of `n` 4 KiB units from `u` on, save where a later SEAL has already done so. -/
def putUnits (order : Nat) : Nat → List Byte → Nat → Tbl RUnit → Tbl RUnit
  | _, _, 0, t => t
  | u, d, n + 1, t =>
    let old := match t.find u with | some x => x.order | none => 0
    let t := if old ≤ order then t.put u { data := d.take 4096, order := order, seg := none, places := [] } else t
    putUnits order (u + 1) (d.drop 4096) n t

def dropUnits : Nat → Nat → Tbl RUnit → Tbl RUnit
  | _, 0, t => t
  | u, n + 1, t => dropUnits (u + 1) n (t.del u)

/-! ## Media-durable and release (R27, R31) -/

/-- A write's data is media-durable: all of it has left the Landing toward pages and every page has passed. -/
def GWrite.durable (w : GWrite) : Bool := decide (w.left = 0) && w.pages.isEmpty

def Group.durable (g : Group) : Bool := g.sealed && g.writes.all (·.durable)

/-- The charge of a write may be released (R31). -/
def GWrite.releasable (w : GWrite) : Bool := w.durable && w.rows.isEmpty

/-- Release every charge that may be released, drop groups that hold none, and clear OVER_LIMIT when the bytes held
have fallen to the limit (R31, R43). -/
def State.settle (s : State) : State :=
  let gs := s.lq.groups.map (fun g => if g.sealed then
    { g with writes := g.writes.map (fun w => if w.releasable then { w with released := true } else w) } else g)
  let gs := gs.filter (fun g => !(g.sealed && g.writes.all (·.released)))
  let lq := { s.lq with groups := gs }
  { s with lq := { lq with overLimit := lq.overLimit && decide (lq.limitMib * mib < lq.heldAll) } }

/-- The Landing drain holds at least one accepted group (DRAIN_ACTIVE). -/
def State.drainActive (s : State) : Bool := s.lq.groups.any (fun g => g.sealed)

/-! ## Sequence registers of a stream (R53, R65, Table 2.14) -/

/-- Every number below it is accepted or retired. -/
def Stream.accSeq (x : Stream) : Nat := x.reserved.foldl (fun m r => min m r.1) x.next

/-- The records that no TRIM has released. -/
def Stream.live (x : Stream) : List Rec := x.recs.filter (fun r => !r.gone)

/-- Every number below it is media-durable or retired. -/
def Stream.durSeq (x : Stream) : Nat :=
  x.live.foldl (fun m r => if r.durable then m else min m r.seq) x.accSeq

/-- The lowest retained number, never above `durSeq` (R54, log 6). -/
def Stream.oldSeq (x : Stream) : Nat :=
  min x.durSeq (match x.live.head? with | some r => r.seq | none => x.durSeq)

/-- Bytes retained, headers included. -/
def Stream.bytes (x : Stream) : Nat := sumBy (fun r => 32 + r.payload.length) x.live

/-- The 32-byte header of a record (Table 2.4), its CRC-32C computed over the header with that field zero, then the
payload. -/
def headerOf (stream seq : Nat) (ts : W64) (payload : List Byte) (group : Nat) : List Byte :=
  let pre := leBytes 2 0xD2E5 ++ leBytes 2 stream ++ leBytes 4 payload.length ++ leBytes 8 seq ++ leBytes 8 ts.toNat
  let post := leBytes 4 (group % 2 ^ 32)
  pre ++ leBytes 4 (crc32c (pre ++ leBytes 4 0 ++ post ++ payload)).toNat ++ post

def recHeader (stream : Nat) (r : Rec) : List Byte := headerOf stream r.seq r.ts r.payload r.group

end Sys2Proof.Machine
end

