-- ==== Sys2Proof/Machine/Wear.lean ====
section
/-! DEFINITION. The media vendor table (Tables 8.9, 8.17), erase and read counts (R247, R249), and the record of lost accepted
data (R258, R380, Table 2.7). -/
namespace Sys2Proof.Machine

/-! ## The vendor table -/

/-- The vendor table entry of a LUN. -/
def State.vendor (s : State) (l : Nat) : List Byte := s.mm.vendor.getD (s.lun l).vend []

def State.pageBytesOf (s : State) (l : Nat) : Nat := leAt (s.vendor l) 8 4
def State.rowsTlc (s : State) (l : Nat) : Nat := leAt (s.vendor l) 14 2
def State.rowsPslc (s : State) (l : Nat) : Nat := leAt (s.vendor l) 16 2
def State.blocksOf (s : State) (l : Nat) : Nat := leAt (s.vendor l) 18 4
def State.tReadUs (s : State) (l : Nat) : Nat := leAt (s.vendor l) 22 2
def State.tProgUs (s : State) (l : Nat) (pslc : Bool) : Nat := if pslc then leAt (s.vendor l) 26 2 else leAt (s.vendor l) 24 2
def State.tErsUs (s : State) (l : Nat) (pslc : Bool) : Nat := if pslc then leAt (s.vendor l) 32 4 else leAt (s.vendor l) 28 4
def State.tSusUs (s : State) (l : Nat) : Nat := max (leAt (s.vendor l) 36 2) (leAt (s.vendor l) 38 2)
def State.tResMinUs (s : State) (l : Nat) : Nat := leAt (s.vendor l) 40 2
def State.susMax (s : State) (l : Nat) : Nat := leAt (s.vendor l) 42 1
def State.spareOf (s : State) (l : Nat) : Nat := leAt (s.vendor l) 12 2
/-- Opcodes of program suspend 0, program resume 1, erase suspend 2 and erase resume 3. -/
def State.suspendCode (s : State) (l k : Nat) : Byte := (s.vendor l).getD (44 + k) 0
/-- The pSLC mode feature and its parameters; the read-retry feature with its levels; the temperature feature, where one is defined. -/
def State.pslcFeature (s : State) (l : Nat) : Byte × List Byte := ((s.vendor l).getD 48 0, ((s.vendor l).drop 49).take 4)
def State.retryFeature (s : State) (l : Nat) : Byte := (s.vendor l).getD 53 0
def State.retryLevels (s : State) (l : Nat) : List Byte := ((s.vendor l).drop 56).take (min 16 (leAt (s.vendor l) 54 1))
def State.dieSensor (s : State) (l : Nat) : Bool := (leAt (s.vendor l) 43 1).testBit 3
def State.endurance (s : State) (l : Nat) : Nat := leAt (s.vendor l) 72 4
def State.readLimit (s : State) (l : Nat) (pslc : Bool) : Nat :=
  let k := fld s.mm.rdCfg (if pslc then 16 else 0) 16
  if k ≠ 0 then k * 1000 else if pslc then leAt (s.vendor l) 84 4 else leAt (s.vendor l) 80 4

/-! ## Counts -/

/-- Key of a block in the erase and read counts; pSLC counts lie 2⁴⁰ higher. -/
def blockKey (l b : Nat) (pslc : Bool) : Nat := l * 2 ^ 24 + b + bitN pslc 40

/-- Rows of fast-lane sets are numbered from 65,536 on, above every segment. -/
def segKeys : Nat := 65536

/-- Queue an Anneal task, once. -/
def State.queueTask (s : State) (t : Task) : State :=
  if s.mm.tasks.contains t then s else { s with mm := { s.mm with tasks := s.mm.tasks ++ [t] } }

/-- Queue a segment, or a set of fast-lane blocks, for relocation (Table 8.5, rank 2). -/
def State.relocate (s : State) (seg : Nat) : State := s.queueTask (Task.fresh 2 seg 0 0)

/-- `n` page reads of a block; at the read-disturb limit of its mode its segment is queued for relocation (R249). -/
def State.countReads (s : State) (l b n seg : Nat) (pslc : Bool) : State :=
  let c := s.mm.reads.get (blockKey l b pslc) 0 + n
  let s := { s with mm := { s.mm with reads := s.mm.reads.put (blockKey l b pslc) c } }
  let lim := s.readLimit l pslc
  if decide (lim ≠ 0) && decide (lim ≤ c) then s.relocate seg else s

/-! ## Lost data -/

/-- Loss entries of type 0x04 (a stream) and 0x05 (a region), 32 bytes (Tables 2.7 and 13.11). -/
def lostStream (id first n : Nat) : LossEntry :=
  leBytes 1 4 ++ leBytes 1 0 ++ leBytes 2 id ++ leBytes 4 0 ++ leBytes 8 first ++ leBytes 4 n ++ leBytes 12 0
def lostRegion (id off units : Nat) : LossEntry :=
  leBytes 1 5 ++ leBytes 1 0 ++ leBytes 1 id ++ leBytes 5 0 ++ leBytes 8 off ++ leBytes 4 units ++ leBytes 12 0

/-- BAR0 block of the FCS registers. -/
def fcsBlock : Nat := blockOf 0xE00000

/-- Record a lost range in log type 0x05, raise class 0x05 and post LOSS_RECORDED (R380, Table 13.12). Which LUN the report
names is not stated for a range that spans several (log 2). -/
def State.recordLoss (s : State) (entry : LossEntry) (id : Nat) (region : Bool) : State :=
  let (i, s) := s.takeFree
  let s := { s with fcs := { s.fcs with lostData := s.fcs.lostData ++ [entry] } }
  let s := s.report 0x05 0 kindLun (Config.freeNat i % 512) 0
  s.postEventAll fcsBlock 0x0073 id (if region then 5 else 4)

/-- A read ladder ended without success (R258): the word ends with DATA_FAULT and the range is recorded as lost. -/
def State.ladderFailed (s : State) (entry : LossEntry) (id : Nat) (region : Bool) : State :=
  ({ s with fc := { s.fc with uncorr := satAdd 32 s.fc.uncorr 1 } }).recordLoss entry id region

end Sys2Proof.Machine
end

