-- ==== Sys2Proof/Machine/Segments.lean ====
section
/-! DEFINITION. Segments and their pages (R236 to R239, R247, R254 to R262): page jobs, page tags, codewords and encryption at rest, filling
and padding rows, retirement of blocks, what the decoding of a read comes to, and release. -/
namespace Sys2Proof.Machine

/-- A LUN is fenced, alone or with its channel (R379, R381). -/
def State.lunFenced (s : State) (l : Nat) : Bool := (s.lun l).fenced || (s.chan (l / 32)).fenced

def ceilDiv (a b : Nat) : Nat := if b = 0 then 0 else (a + b - 1) / b

/-- BAR0 block of the MM registers. -/
def mmBlock : Nat := blockOf 0xB00000

/-! ## Free segments (R237, R256) -/

/-- A stripe set that may open a segment: no fenced LUN. -/
def State.setOpen (s : State) (x : StripeSet) : Bool := x.members.all (fun l => (s.lun l).present && !s.lunFenced l)

/-- Segments that a set's free good blocks can form. -/
def State.freeSegs (s : State) (x : StripeSet) : Nat := (x.members.map (fun l => (s.lun l).free.length)).foldl min 65536

/-- Sets that can give a segment now. -/
def State.segSets (s : State) : List Nat := s.mm.sets.keys (fun _ x => s.setOpen x && decide (0 < s.freeSegs x))

/-- MEDIA_LOW, once while the free segments of a set stand below LOW_SEGS (R256). -/
def State.lowCheck (s : State) (i : Nat) : State :=
  match s.mm.sets.find i with
  | none => s
  | some x =>
    let low := decide (s.freeSegs x < fld s.mm.capCfg 0 16)
    let s' := if low && !x.low then s.postEventAll mmBlock 0x0031 i (BitVec.ofNat 64 (s.freeSegs x)) else s
    { s' with mm := { s'.mm with sets := s'.mm.sets.upd i (fun y => { y with low := low }) } }

/-- The stripe sets that hold a LUN are judged again. -/
def State.lowChecks (s : State) (l : Nat) : State :=
  (s.mm.sets.keys (fun _ x => x.members.contains l)).foldl State.lowCheck s

/-- Retire a block: it leaves every pool and the open fast-lane row; a replacement block of the LUN takes its place in its segment, and Anneal
moves the content there; without one a LUN fence is requested (R246, R248). -/
def State.retire (s : State) (l b : Nat) : State :=
  let s := { s with mm := { s.mm with retired := (l, b) :: s.mm.retired
                                      flRows := s.mm.flRows.all (fun _ r => if r.blocks.find l = some b then { r with blocks := r.blocks.del l } else r) } }
  let repl := (s.lun l).repl
  let s := s.updLun l (fun u => { u with erased := u.erased.erase b, used := u.used.filter (fun x => decide (x.1 ≠ b)), free := u.free.erase b, repl := u.repl.erase b })
  let s := s.lowChecks l
  match repl with
  | [] => s.report 0x19 0 kindLun l (BitVec.ofNat 64 b)
  | n :: rest =>
    match s.mm.segs.find? (fun p => decide (p.2.blocks.find l = some b)) with
    | some (g, _) => ((s.updLun l (fun u => { u with repl := rest })).updSeg g (fun x => { x with blocks := x.blocks.put l n })).relocate g
    | none => s

/-! ## What the decoding of a page comes to (R252, R257 to R260) -/

/-- Hard retries at step 2, and the steps of Table 8.6 that ECX_CFG lets run. -/
def State.retryMax (s : State) (l : Nat) : Nat := min (fld s.fc.ecxCfg 0 4) (s.retryLevels l).length
def State.ladder (s : State) (l : Nat) : List Nat :=
  [1] ++ (if 0 < s.retryMax l then [2] else []) ++ (if 1 ≤ fld s.fc.ecxCfg 4 2 then [3] else [])
    ++ (if fld s.fc.ecxCfg 4 2 = 2 then [4] else []) ++ (if s.fc.ecxCfg.getLsbD 6 then [5] else [])

/-- Page reads that a codeword takes beyond its first when it succeeds at a step, at retry level `k` of step 2. -/
def State.extraReads (s : State) (l step k : Nat) : Nat :=
  let soft := (if 1 ≤ fld s.fc.ecxCfg 4 2 then 3 else 0) + (if fld s.fc.ecxCfg 4 2 = 2 then 7 else 0)
  if step ≤ 1 then 0 else if step = 2 then k + 1 else if step = 3 then s.retryMax l + 3 else s.retryMax l + soft

/-- The read-retry level is set and the page is read again, once for each level up to `k` (Table 8.6, step 2). -/
def State.driveRetries (s : State) (l b page k : Nat) : State :=
  (((s.retryLevels l).take (k + 1)).foldl (fun s v => (s.drive (.nandSet l (s.retryFeature l) [v])).drive (.nandRead l b page)) s)

/-- The threshold offset of a block becomes that of the level which succeeded (R260). -/
def State.moveThr (s : State) (l b : Nat) (pslc : Bool) (k : Nat) : State :=
  let key := blockKey l b pslc
  { s with mm := { s.mm with blkThr := s.mm.blkThr.put key (((s.retryLevels l).getD k 0).toInt)
                             thrMoved := if s.mm.thrMoved.contains key then s.mm.thrMoved else key :: s.mm.thrMoved } }

/-- How a page was decoded: the step at which the worst of its codewords succeeded, how many took that step, the retry level, the most bits
corrected in a codeword, and whether a CRC-32C of it failed its check. -/
structure Decode where
  step : Nat
  words : Nat
  level : Nat
  bits : Nat
  crcBad : Bool

/-- None of this is stated of a read: free values, within what ECX_CFG lets run (log 2). A CRC mismatch goes on at step 5 (R259). -/
def State.drawDecode (s : State) (l : Nat) : Decode :=
  let i := s.free
  let steps := s.ladder l
  let bad := decide (Config.freeNat (i + 1) % 2 = 1) && steps.contains 5
  { step := if bad then 5 else steps.getD (Config.freeNat i % steps.length) 1, words := 1 + Config.freeNat (i + 2) % max 1 (s.pageBytesOf l / 4096)
    level := Config.freeNat (i + 3) % max 1 (s.retryMax l), bits := Config.freeNat (i + 4), crcBad := bad }

/-- The codewords of a page of `n` count in the ECX registers (Table 8.16). -/
def Fc.countDecode (f : Fc) (d : Decode) (n : Nat) : Fc :=
  { f with
    corrected := f.corrected + BitVec.ofNat 64 (min (if d.step = 1 then n else n - d.words) d.bits)
    retries := if d.step = 2 then wrapAdd 32 f.retries d.words else f.retries
    soft := if d.step = 3 ∨ d.step = 4 then wrapAdd 32 f.soft d.words else f.soft
    xor := if d.step = 5 then wrapAdd 32 f.xor d.words else f.xor }

/-- A read needed XOR reconstruction: the second one within a scrub period retires the block (R248). -/
def State.reconstructed (s : State) (l b : Nat) (pslc : Bool) : State :=
  let key := blockKey l b pslc
  let m := s.mm.recons.get key 0 + 1
  let s := { s with mm := { s.mm with recons := s.mm.recons.put key m } }
  if m = 2 then s.retire l b else s

/-- The codewords of a page have been decoded: a success at step 2 moves the block's threshold, a CRC mismatch queues the segment, and a
reconstruction counts toward retirement (R248, R249, R258 to R260). -/
def State.decodedAs (s : State) (d : Decode) (l b page seg : Nat) (pslc : Bool) : State :=
  let s := { s with fc := s.fc.countDecode d (max 1 (s.pageBytesOf l / 4096)) }
  let s := s.countReads l b (1 + s.extraReads l d.step d.level) seg pslc
  let s := if d.step = 2 then (s.driveRetries l b page d.level).moveThr l b pslc d.level else s
  let s := if d.crcBad then s.relocate seg else s
  if d.step = 5 then s.reconstructed l b pslc else s

def State.decoded (s : State) (l b page seg : Nat) (pslc : Bool) : State :=
  ({ s with free := s.free + 5 }).decodedAs (s.drawDecode l) l b page seg pslc

/-- A scrub relocates the segment: a codeword took a step beyond the first, or more corrected bits than BER_THRESH (R252). -/
def State.scrubFinds (s : State) (d : Decode) : Bool := decide (d.step ≠ 1) || decide (fld s.mm.scrubCfg 0 8 < d.bits)

/-! ## Page jobs (R216, R217) -/

/-- Bytes of one page-data burst on a channel (R217). -/
def Chan.burst (c : Chan) : Nat :=
  if 4096 * 1000 ≤ 1800 * c.rate then 4096 else if 2048 * 1000 ≤ 1800 * c.rate then 2048 else 1024

/-- Bursts of a page on a LUN's channel. -/
def State.bursts (s : State) (l : Nat) : Nat := ceilDiv 16384 (s.chan (l / 32)).burst

/-- A job that only reads or erases at first: no burst before its array operation. -/
def PageJob.bare (j : PageJob) : Bool := decide (j.kind = 0) || decide (j.kind = 9) || decide (j.kind = 10)

/-- Put a page job on its way: suspend and status read where its LUN is busy, one unit for command and address, then its data bursts (R217,
R244). -/
def State.addJob (s : State) (id : Nat) (j : PageJob) : State :=
  let n := (if j.suspends then 2 else 0) + 1 + (if j.bare then 0 else s.bursts j.lun)
  { s with mm := { s.mm with jobs := s.mm.jobs.put id { j with units := n, askedAt := s.tick } } }

def State.freshJob (s : State) : Nat × State := (s.mm.nextJob, { s with mm := { s.mm with nextJob := s.mm.nextJob + 1 } })

/-- A job of a kind on a page, with nothing in it. -/
def PageJob.plain (kind cls crew : Nat) (dl : W64) (lun block page seg row : Nat) : PageJob :=
  { lun := lun, block := block, page := page, kind := kind, seg := seg, row := row, cls := cls, crew := crew, deadline := dl, units := 0, bytes := 0,
    data := [], tag := [], writes := [], suspends := false, issued := false, ready := false, askedAt := 0 }

/-- Add a job under a new number. -/
def State.newJob (s : State) (j : PageJob) : Nat × State :=
  let (id, s) := s.freshJob
  (id, s.addJob id j)

/-- A page read for a class and crew (R216, R217): its job. -/
def State.askRead (s : State) (cls crew : Nat) (dl : W64) (seg : Nat) (pl : Nat × Nat × Nat) : Nat × State :=
  s.newJob (PageJob.plain 0 cls crew dl pl.1 pl.2.1 pl.2.2 seg pl.2.2)

/-- The other pages of the row in which a page of segment or fast-lane set `seg` lies. -/
def State.rowMates (s : State) (seg : Nat) (pl : Nat × Nat × Nat) : List (Nat × Nat × Nat) :=
  let all : Tbl Nat := match s.mm.segs.find seg with
    | some g => g.blocks
    | none =>
      let used := fun (u : Nat × Lun) => (u.2.used.filter (fun b => decide (b.2 = seg))).map (fun b => (u.1, b.1))
      let open_ := fun (r : Nat × FlRow) => if r.2.seg = seg then r.2.blocks else []
      s.fc.luns.flatMap used ++ s.mm.flRows.flatMap open_
  (all.filter (fun b => decide (b.1 ≠ pl.1))).map (fun b => (b.1, b.2, pl.2.2))

/-- A page that can be neither read nor reconstructed: its LUN and another of its row are fenced (R380). -/
def State.pageLost (s : State) (seg : Nat) (pl : Nat × Nat × Nat) : Bool :=
  s.lunFenced pl.1 && (s.rowMates seg pl).any (fun x => s.lunFenced x.1)

/-- The pages that are read for a page: it alone, or the others of its row where its LUN is fenced (R379). -/
def State.readFor (s : State) (x : Nat × Nat × Nat × Nat) : List (Nat × Nat × Nat × Nat) :=
  if s.lunFenced x.2.1 then ((s.rowMates x.1 x.2).filter (fun y => !s.lunFenced y.1)).map (fun y => (x.1, y)) else [x]

/-- Page reads of several pages, each with its segment. -/
def State.askEach (cls crew : Nat) (dl : W64) : List (Nat × Nat × Nat × Nat) → State → List Nat × State
  | [], s => ([], s)
  | x :: t, s =>
    let r := s.askRead cls crew dl x.1 x.2
    let q := State.askEach cls crew dl t r.2
    (r.1 :: q.1, q.2)

/-- Page reads for several pages, each with its segment. -/
def State.askReads (cls crew : Nat) (dl : W64) (l : List (Nat × Nat × Nat × Nat)) (s : State) : List Nat × State :=
  State.askEach cls crew dl (l.flatMap s.readFor) s

/-- Erase a block of segment or fast-lane set `seg` on Anneal's account. -/
def State.annealErase (s : State) (l b seg : Nat) : Nat × State := s.newJob (PageJob.plain 9 4 256 0 l b 0 seg 0)

/-- Page jobs and blocks in pSLC mode: the fast lane, Quench content, journal and checkpoint. -/
def PageJob.pslc (j : PageJob) : Bool :=
  decide (segKeys ≤ j.seg) || decide (j.kind = 4) || decide (j.kind = 5) || decide (j.kind = 6)

/-! ## Content of a page (R60, R237, R239, R257) -/

/-- Kind of a data page, and of the object in a page tag. -/
def SegKind.code : SegKind → Nat
  | .stream _ => 1
  | .region _ => 2
def SegKind.object : SegKind → Nat
  | .stream i => i
  | .region i => i

/-- An object's key pair, by the draw of the random source that gave it, where the object is encrypted (R60, R408). -/
def State.objectKey (s : State) (k : SegKind) : Option Nat :=
  match k with
  | .stream i => (match s.stream i with | some x => if x.enc then some x.keyPair else none | none => none)
  | .region i => (match s.region i with | some x => if x.enc then some x.keyPair else none | none => none)

/-- Bytes of an object on their way to NAND, from its 4 KiB unit `index` on (R60). -/
def State.atRest (s : State) (k : SegKind) (index : Nat) (bs : List Byte) : List Byte :=
  match s.objectKey k with
  | none => bs
  | some pair => (List.range (ceilDiv bs.length 4096)).flatMap (fun j =>
      let u := (bs.drop (4096 * j)).take 4096
      (List.range u.length).map (Config.xts k.code k.object pair (index + j) u))

/-- A segment takes no more data: what its open row holds is gone. -/
def Segment.shut (g : Segment) : Segment :=
  { g with closed := true, fill := 0, page := [], pageWrites := [], pageFirst := none, pageGroup := 0, xor := [], rowAt := none }

/-- A page of `size` bytes, its rest padded. -/
def padPage (id size : Nat) (bs : List Byte) : List Byte :=
  bs ++ (List.range (size - bs.length)).map (fun k => Config.padByte id (bs.length + k))

def xorBytes (a b : List Byte) : List Byte := if a.isEmpty then b else List.zipWith (fun x y => x ^^^ y) a b

/-- A page tag (Table 8.2). `pos` is none where no record header and no unit starts in the page. Of a fast-lane set the segment field carries
the low 16 bits of its number (log 95). -/
def pageTag (seg row ch kind : Nat) (obj : List Byte) (gen : Nat) (pos : Option Nat) (group : Nat) : List Byte :=
  let t := leBytes 2 0xD2E6 ++ leBytes 2 seg ++ leBytes 2 row ++ leBytes 1 ch ++ leBytes 1 kind ++ obj ++ leBytes 2 0 ++ leBytes 4 gen
    ++ leBytes 8 (pos.getD (2 ^ 64 - 1)) ++ leBytes 4 group
  t ++ leBytes 4 (crc32c t).toNat

/-- Bytes 8 and 9 of a tag. -/
def SegKind.tagBytes (k : SegKind) : List Byte := match k with | .stream i => leBytes 2 i | .region i => leBytes 1 i ++ leBytes 1 0

/-- The LDPC codewords of a page: each 4 KiB of data, the tag with the last, and check bytes to the size of the spare area (R257). -/
def codewords (data tag : List Byte) (spare : Nat) : List Byte :=
  let n := max 1 (data.length / 4096)
  let chk := (spare - 32) / n
  (List.range n).flatMap (fun k =>
    let m := (data.drop (4096 * k)).take 4096 ++ (if k + 1 = n then tag else [])
    m ++ (List.range chk).map (Config.ldpc chk m))

/-- A page program is issued to the array: pSLC mode is selected where the page is one, then the codewords go out (R234, R257). -/
def State.program (s : State) (j : PageJob) : State :=
  let f := s.pslcFeature j.lun
  let s := if j.pslc then s.drive (.nandSet j.lun f.1 f.2) else s
  s.drive (.nand j.lun j.block j.page j.pslc (codewords j.data j.tag (s.spareOf j.lun)))

/-! ## Journal (R261, R262) -/

/-- The current checkpoint: the valid one with the higher generation. -/
def Mm.current (m : Mm) : Option Checkpoint :=
  match m.ckptA, m.ckptB with
  | some a, some b => some (if b.gen < a.gen then a else b)
  | some a, none => some a
  | none, b => b

/-- The current checkpoint stands in area B. -/
def Mm.inB (m : Mm) : Bool :=
  match m.ckptA, m.ckptB with
  | some a, some b => !decide (b.gen < a.gen)
  | none, some _ => true
  | _, none => false

/-- Members of stripe set 0, which hold the checkpoint areas. -/
def State.areaLuns (s : State) : List Nat := match s.mm.sets.find 0 with | some x => x.members | none => []

/-- Where journal page `n` lies: after the checkpoint in its area, row by row over the LUNs of set 0, beginning again when the area is full
(DESIGN CHOICE, log 97). -/
def State.journalPlace (s : State) (n : Nat) : Option (Nat × Nat × Nat) :=
  let ls := s.areaLuns
  match ls[n % ls.length]? with
  | none => none
  | some l => ((if s.mm.inB then s.mm.areaB else s.mm.areaA).find l).map (fun b => (l, b, 1 + n / ls.length % max 1 (s.rowsPslc l - 1)))

/-- A journal page goes out for a class and crew (kind 0x04): its job, where the checkpoint areas exist. -/
def State.journalPage (s : State) (cls crew : Nat) (dl : W64) : Option (Nat × State) :=
  (s.journalPlace s.mm.jPage).map (fun pl =>
    let (id, s) := s.freshJob
    let size := s.pageBytesOf pl.1
    let gen := match s.mm.current with | some c => c.gen | none => 0
    let j := { PageJob.plain 4 cls crew dl pl.1 pl.2.1 pl.2.2 0 pl.2.2 with
      bytes := size, data := padPage id size [], tag := pageTag 0 pl.2.2 (pl.1 / 32) 4 [0, 0] gen none 0 }
    (id, ({ s with mm := { s.mm with jPage := s.mm.jPage + 1, jTime := s.tmr.time } }).addJob id j))

/-- Journal pages on their way, and the bytes that they will have written. -/
def State.journalOut (s : State) : Nat := sumBy (fun p => if p.2.kind = 4 then p.2.bytes else 0) s.mm.jobs

/-- Whether Anneal stands still for the journal: from 1.5 MiB held until less than 1 MiB is (R262). -/
def pausedAt (was : Bool) (held : Nat) : Bool := decide (3 * mib / 2 ≤ held) || (was && decide (mib ≤ held))

/-- Metadata changes enter the journal; how many bytes they take is not stated (log 2). A full page of it goes out as part of the unit that made
the changes, at its class and crew (R262). -/
def State.journal (s : State) (cls crew : Nat) (dl : W64) : State :=
  let (i, s) := s.takeFree
  let n := Config.freeNat i
  let held := min (s.mm.jHeld + n) (2 * mib)
  let s := { s with mm := { s.mm with jSince := s.mm.jSince + n, jHeld := held, annealPaused := pausedAt s.mm.annealPaused held } }
  if 16384 ≤ s.mm.jHeld - s.journalOut then (match s.journalPage cls crew dl with | some r => r.2 | none => s) else s

/-- A journal page has been written: held bytes fall. -/
def State.journalWritten (s : State) (n : Nat) : State :=
  let held := s.mm.jHeld - n
  { s with mm := { s.mm with jHeld := held, annealPaused := s.mm.annealPaused && decide (mib ≤ held) } }

/-! ## Opening segments (R237, R247, R256) -/

/-- Free good block of a LUN with the lowest erase count (R247). -/
def State.coolest (s : State) (l : Nat) : Option Nat := minBy (fun b => s.mm.erases.get (blockKey l b false) 0) (s.lun l).free

/-- Free good block of a LUN with the highest erase count (R247, static wear levelling). -/
def State.hottest (s : State) (l : Nat) : Option Nat :=
  minBy (fun b => 2 ^ 24 - s.mm.erases.get (blockKey l b false) 0) (s.lun l).free

/-- Open segment `n` on stripe set `i` for an object, on the blocks that `pick` chooses. -/
def State.openSegAt (s : State) (k : SegKind) (i n : Nat) (pick : State → Nat → Option Nat) : State :=
  match s.mm.sets.find i with
  | none => s
  | some x =>
    let take := fun (st : State × Tbl Nat) (l : Nat) => match pick st.1 l with
      | some b => (st.1.updLun l (fun u => { u with free := u.free.erase b }), st.2.put l b)
      | none => st
    let (s, blocks) := x.members.foldl take (s, [])
    let g : Segment := {
      set := i, kind := k, gen := s.mm.nextGen, blocks := blocks, row := 0, fill := 0, page := [], pageWrites := [], pageFirst := none,
      pageGroup := 0, xor := [], rowAt := none, pageId := 0, closed := false, programmedAt := s.mm.retClock, heatAt := s.mm.heat, age := 0,
      scrubAt := s.mm.retClock, scrubRow := 0 }
    let s := { s with mm := { s.mm with segs := s.mm.segs.put n g, nextGen := s.mm.nextGen + 1 } }
    let s := match k with | .stream st => s.updStream st (fun y => { y with segs := y.segs ++ [n] }) | .region _ => s
    s.lowCheck i

/-- A free segment number: which one is taken is not stated (log 2). -/
def State.segNumber (s : State) : Option Nat :=
  let nums := (List.range segKeys).filter (fun n => !s.mm.segs.has n)
  nums[Config.freeNat s.free % nums.length]?

/-- Open a segment for an object: which of the stripe sets gives it is not stated (log 2). -/
def State.openSeg (s : State) (k : SegKind) : Option (Nat × State) :=
  let sets := s.segSets
  match sets[Config.freeNat (s.free + 1) % sets.length]?, s.segNumber with
  | some i, some n => some (n, ({ s with free := s.free + 2 }).openSegAt k i n State.coolest)
  | _, _ => none

/-- The object's open segment. -/
def State.openSegOf (s : State) (k : SegKind) : Option (Nat × Segment) := s.mm.segs.find? (fun p => decide (p.2.kind = k) && !p.2.closed)

/-- A member LUN of a segment, and the rows and page size of its blocks. -/
def State.segLun (s : State) (g : Segment) : Nat := match s.mm.sets.find g.set with | some x => x.members.headD 0 | none => 0
def State.segRows (s : State) (g : Segment) : Nat := s.rowsTlc (s.segLun g)
def State.segPage (s : State) (g : Segment) : Nat := s.pageBytesOf (s.segLun g)

/-- Data bytes a segment still takes. -/
def State.segRoom (s : State) (g : Segment) : Nat :=
  (15 * (s.segRows g - g.row) - g.fill) * s.segPage g - g.page.length

/-- The channel of the parity page of row `r` (R237). -/
def parityChannel (seg r : Nat) : Nat := (seg + r) % 16

/-- The channel of the data page being filled: ascending, the parity page skipped. -/
def Segment.chan (n : Nat) (g : Segment) : Nat :=
  (((List.range 16).filter (fun c => decide (c ≠ parityChannel n g.row)))[g.fill]?).getD 0

/-- Member LUN of a set on channel `ch`. -/
def StripeSet.member (x : StripeSet) (ch : Nat) : Nat := (x.members.find? (fun l => decide (l / 32 = ch))).getD 0
def State.segMember (s : State) (g : Segment) (ch : Nat) : Nat := match s.mm.sets.find g.set with | some x => x.member ch | none => 0

/-- The page being filled, as (LUN, block, page). -/
def State.fillPlace (s : State) (n : Nat) (g : Segment) : Nat × Nat × Nat :=
  let l := s.segMember g (g.chan n)
  (l, g.blocks.get l 0, g.row)

/-- A page of row `g.row` of segment `n` on channel `ch`. -/
def State.segJob (s : State) (n : Nat) (g : Segment) (ch kind cls crew : Nat) (dl : W64) (data : List Byte) : PageJob :=
  let l := s.segMember g ch
  { PageJob.plain kind cls crew dl l (g.blocks.get l 0) g.row n g.row with
    bytes := g.page.length, data := data, writes := if kind = 3 then [] else g.pageWrites
    tag := pageTag n g.row ch kind g.kind.tagBytes g.gen (if kind = 3 then none else g.pageFirst) (if kind = 3 then 0 else g.pageGroup) }

/-- The page being filled in segment `n` goes out, encrypted where its object is; with the 15th data page the parity page follows, the XOR of the
others, and the next row begins (R60, R237, R238). `kind` 8 is a pad page. -/
def State.emitPage (s : State) (n cls crew : Nat) (dl : W64) (kind : Nat) : State :=
  match s.mm.segs.find n with
  | none => s
  | some g =>
    let (id, s) := if g.page.isEmpty then s.freshJob else (g.pageId, s)
    let size := s.segPage g
    let plain := padPage id size g.page
    let data := if kind = 8 then plain else s.atRest g.kind ((15 * g.row + g.fill) * (size / 4096)) plain
    let x := xorBytes g.xor data
    let s := s.addJob id (s.segJob n g (g.chan n) kind cls crew dl data)
    let g' := { g with fill := g.fill + 1, page := [], pageWrites := [], pageFirst := none, pageGroup := 0, xor := x }
    if g.fill + 1 < 15 then s.updSeg n (fun _ => g')
    else
      let (_, s) := s.newJob (s.segJob n { g' with page := [] } (parityChannel n g.row) 3 cls crew dl x)
      s.updSeg n (fun _ => { g' with fill := 0, xor := [], row := g.row + 1, rowAt := none, closed := decide (s.segRows g ≤ g.row + 1) })

/-- Pad and close the open row of segment `n` at a class and crew (R238). -/
def State.padRowFor (s : State) (n cls crew : Nat) (dl : W64) : State :=
  match s.mm.segs.find n with
  | none => s
  | some g =>
    if g.fill = 0 ∧ g.page.isEmpty then s
    else
      let s := if g.page.isEmpty then s else s.emitPage n cls crew dl g.kind.code
      let left := match s.mm.segs.find n with | some h => if h.row = g.row then 15 - h.fill else 0 | none => 0
      (List.range left).foldl (fun s _ => s.emitPage n cls crew dl 8) s

/-- Class, crew and deadline of the group whose bytes stand in the open row of a segment; of Anneal's data Anneal (R198). -/
def State.rowOwner (s : State) (n : Nat) : Nat × Nat × W64 :=
  match s.lq.groups.find? (fun h => h.writes.any (fun w => w.rows.any (fun r => match s.mm.segs.find n with
      | some g => decide (r = (n, g.row)) | none => false))) with
  | some h => (h.cls, h.crew, h.deadline)
  | none => (4, 256, 0)

def State.padRow (s : State) (n : Nat) : State :=
  let o := s.rowOwner n
  s.padRowFor n o.1 o.2.1 o.2.2

/-- A segment of the object with room for `need` bytes, opened where needed; none when no segment can be opened (R237,
R256). -/
def State.ensureSeg (s : State) (k : SegKind) (need : Nat) : Option (Nat × State) :=
  match s.openSegOf k with
  | some (n, g) =>
    if need ≤ s.segRoom g then some (n, s)
    else (((s.padRow n).updSeg n (fun g => { g with closed := true }))).openSeg k
  | none => s.openSeg k

def State.updWrite (s : State) (g i : Nat) (f : GWrite → GWrite) : State :=
  s.updGroup g (fun h => { h with writes := h.writes.mapIdx (fun j w => if j = i then f w else w) })

/-- A page that took bytes: its job and its place. -/
abbrev Spot := Nat × (Nat × Nat × Nat)

/-- Put bytes into segment `n`, page by page; `w` names the write that they belong to, and `pos` what starts with the first of them, for the
page tag. The pages that took them. -/
def State.fillSeg (n cls crew : Nat) (dl : W64) (w : Option (Nat × Nat)) (pos : Option Nat) : Nat → List Byte → State → List Spot × State
  | 0, _, s => ([], s)
  | _, [], s => ([], s)
  | fuel + 1, bs, s =>
    match s.mm.segs.find n with
    | none => ([], s)
    | some g =>
      let (id, s) := if g.page.isEmpty then s.freshJob else (g.pageId, s)
      let k := s.segPage g - g.page.length
      let here := s.fillPlace n g
      let s := s.updSeg n (fun g => { g with
        page := g.page ++ bs.take k, pageId := id, rowAt := some (g.rowAt.getD s.tick), pageFirst := if g.pageFirst.isSome then g.pageFirst else pos
        pageGroup := match w with | some w => max g.pageGroup w.1 | none => g.pageGroup
        pageWrites := match w with | some w => if g.pageWrites.contains w then g.pageWrites else g.pageWrites ++ [w] | none => g.pageWrites })
      let s := match w with
        | some (a, i) => s.updWrite a i (fun x => { x with pages := if x.pages.contains id then x.pages else id :: x.pages,
                                                           rows := if x.rows.contains (n, g.row) then x.rows else (n, g.row) :: x.rows })
        | none => s
      let s := if k ≤ bs.length then s.emitPage n cls crew dl g.kind.code else s
      let r := State.fillSeg n cls crew dl w none fuel (bs.drop k) s
      ((id, here) :: r.1, r.2)

/-! ## Release (R50, R55, R56, R255) -/

/-- A segment is no longer used: the pages of it that have not been issued are not written, and its blocks are erased. -/
def State.dropSeg (s : State) (n : Nat) : State :=
  match s.mm.segs.find n with
  | none => s
  | some g =>
    let idle := fun (j : PageJob) => decide (j.seg = n) && !j.issued && !j.bare
    let s := { s with mm := { s.mm with
      segs := s.mm.segs.del n, jobs := s.mm.jobs.sel (fun _ j => !idle j)
      streams := s.mm.streams.all (fun _ x => { x with segs := x.segs.filter (fun k => decide (k ≠ n)) }) } }
    g.blocks.foldl (fun s b => (s.annealErase b.1 b.2 n).2) s

/-- Anneal stops what it does with segment `g`: a relocation or compaction of it ends, the data moved so far is dropped with the segment that took
it, and a fold drops what it has moved into it (R255). -/
def State.stopMoves (s : State) (g : Nat) : State :=
  let mine := fun (t : Task) => decide (t.seg = g) && decide (t.rank ≠ 1) && decide (t.rank ≠ 3)
  let drop := fun (t : Task) => { t with recs := t.recs.filter (fun m => decide (m.2.1 ≠ g)), units := t.units.filter (fun m => decide (m.2.1 ≠ g)) }
  let copies := ((s.mm.running.toList ++ s.mm.tasks).filter mine).flatMap (fun t => (t.recs.map (fun m => m.2.1) ++ t.units.map (fun m => m.2.1)).eraseDups)
  let s := { s with mm := { s.mm with running := match s.mm.running with | some t => if mine t then none else some (drop t) | none => none
                                      tasks := (s.mm.tasks.filter (fun t => !mine t)).map drop } }
  (copies.eraseDups).foldl State.dropSeg s

/-- A READ_STREAM that has begun delivers records of segment `g` of stream `st` (R55). -/
def State.readingSeg (s : State) (st g : Nat) : Bool :=
  s.eng.engines.any (fun x => match x.2.prog with
    | some p => (match p.op.head?, p.xf with
      | some w, some f => decide (w.opc = 0x12) && decide (fld w.addr 48 16 = st) && (match s.stream st with
        | some y => y.recs.any (fun r => decide (r.seg = some g) && decide (r.seq < f.next))
        | none => false)
      | _, _ => false)
    | none => false)

/-- Release segment `g` of a stream: its records go, what Anneal does with it stops, and its blocks are erased (R50, R55, R56, R255). -/
def State.releaseSeg (s : State) (st g : Nat) : State :=
  let s := s.updStream st (fun x =>
    let left := x.recs.filter (fun r => decide (r.seg = some g))
    { x with recs := x.recs.filter (fun r => decide (r.seg ≠ some g)), segs := x.segs.filter (fun k => decide (k ≠ g)),
             old := left.foldl (fun m r => max m (r.seq + 1)) x.old, full := false })
  (s.stopMoves g).dropSeg g

/-- The trimmed segments of a stream that are wholly media-durable are released, and trimmed records that lie in the fast lane are dropped at
their fold (R50, R56). -/
def State.releaseGone (s : State) (st : Nat) : State :=
  match s.stream st with
  | none => s
  | some x =>
    let free := x.segs.filter (fun g =>
      let mine := x.recs.filter (fun r => decide (r.seg = some g))
      !mine.isEmpty && mine.all (fun r => r.gone && r.durable) && !s.readingSeg st g)
    let s := free.foldl (fun s g => s.releaseSeg st g) s
    s.updStream st (fun x => { x with recs := x.recs.filter (fun r => !(r.gone && r.durable && (match r.seg with | some g => decide (segKeys ≤ g) | none => true))) })

end Sys2Proof.Machine
end

