-- ==== Sys2Proof/Machine/Commit.lean ====
section
/-! DEFINITION. Accepting and discarding commit groups (R26, R29, R34 to R40, R56, R57), and what becomes media-durable (R27). -/
namespace Sys2Proof.Machine

/-- TRIM on a stream at `below`: every segment whose records all have numbers below it is released, as are records that stand in no segment (in
the Landing, or in the fast lane); readers no longer see them (R56). -/
def Stream.trimBelow (st : Stream) (below : Nat) : Stream :=
  let keep := fun (r : Rec) => decide (below ≤ r.seq) || (match r.seg with
    | none => false
    | some g => decide (g < segKeys) && st.recs.any (fun q => decide (q.seg = some g) && decide (below ≤ q.seq)))
  let recs := st.recs.map (fun r => if keep r then r else { r with gone := true })
  { st with full := false, recs := recs, old := (st.recs.filter (fun r => !keep r)).foldl (fun m r => max m (r.seq + 1)) st.old }

/-- Make one write of group `g` accepted (R26, R29, R35, R56, R57). -/
def State.acceptWrite (s : State) (g order : Nat) (k : WKind) : State :=
  match k with
  | .record st seq ts payload =>
    s.updStream st (fun x =>
      { x with reserved := x.reserved.filter (fun r => decide (r.1 ≠ seq))
               recs := (x.recs.filter (fun r => decide (r.seq < seq)))
                 ++ { seq := seq, ts := ts, payload := payload, group := g, clock := s.mm.retClock, durable := false, posted := false, seg := none, places := [], gone := false }
                 :: (x.recs.filter (fun r => decide (seq < r.seq))) })
  | .region r off data => s.updRegion r (fun x => { x with units := putUnits order (off / 4096) data (data.length / 4096) x.units })
  | .trimStream st below => (s.updStream st (fun x => x.trimBelow below)).releaseGone st
  | .trimRegion r off units => s.updRegion r (fun x => { x with units := dropUnits (off / 4096) units x.units })

/-- SEAL of group `g` for the program on engine `e` (R26, R34, R35). LQ_ACC_BYTES counts the charges of its writes, as LQ_DUR_BYTES does
(DESIGN CHOICE, log 98). -/
def State.sealGroup (s : State) (e g : Nat) : State :=
  match s.group g with
  | none => s
  | some h =>
    let n := s.lq.nextSeal
    let s := s.updGroup g (fun h => { h with sealed := true, sealNo := n, askedAt := s.tick })
    let s := { s with lq := { s.lq with nextSeal := n + 1, accBytes := s.lq.accBytes + BitVec.ofNat 64 h.charge } }
    let s := h.writes.foldl (fun s w => s.acceptWrite g n w.kind) s
    s.updProg e (fun p => { p with group := none, sealed := p.sealed ++ [g] })

/-- SEAL of the program's open group; nothing at all when none is open (R40). -/
def State.sealOpen (s : State) (e : Nat) : State :=
  match (s.prog e).bind (·.group) with
  | none => s
  | some g => s.sealGroup e g

/-- Discard group `g`: its reserved numbers are retired and its charges released (R38, R39, R43). -/
def State.discardGroup (s : State) (g : Nat) : State :=
  let drop := fun (_ : Nat) (x : Stream) => { x with reserved := x.reserved.filter (fun r => decide (r.2 ≠ g)) }
  State.settle { s with
    lq := { s.lq with groups := s.lq.groups.filter (fun h => decide (h.id ≠ g)), discards := satAdd 32 s.lq.discards 1 }
    mm := { s.mm with streams := s.mm.streams.all drop } }

/-- Discard the open group of the program on engine `e`, where there is one. -/
def State.discardOpen (s : State) (e : Nat) : State :=
  match (s.prog e).bind (·.group) with
  | none => s
  | some g => (s.discardGroup g).updProg e (fun p => { p with group := none })

/-- Units `u` to `u + n - 1` are media-durable with the content that SEAL `order` gave them (R62). -/
def Region.keep (x : Region) (order u : Nat) (data : List Byte) (n : Nat) : Region :=
  let put := fun (t : Tbl RUnit) (i : Nat) => match x.units.find (u + i) with
    | some v => if v.order = order then t.put (u + i) v else t
    | none => t
  { x with durUnits := (List.range n).foldl put (putUnits order u data n x.durUnits) }

/-- Record that a write has become media-durable. -/
def State.markDurable (s : State) (g order : Nat) (w : GWrite) : State :=
  let s := match w.kind with
    | .record st seq _ _ => (s.updStream st (fun x =>
        { x with recs := x.recs.map (fun (r : Rec) => if r.seq = seq ∧ r.group = g then { r with durable := true } else r) })).releaseGone st
    | .region r off data => s.updRegion r (fun x => x.keep order (off / 4096) data (data.length / 4096))
    | .trimStream _ _ => s
    | .trimRegion r off units => s.updRegion r (fun x => { x with durUnits := putUnits order (off / 4096) [] units x.durUnits })
  { s with lq := { s.lq with durBytes := s.lq.durBytes + BitVec.ofNat 64 w.charge } }

end Sys2Proof.Machine
end

