-- ==== Sys2Proof/Machine/Program.lean ====
section
/-! DEFINITION. The life of a program on its engine (chapter 4): completions, endings, word completion, waits,
suspension. -/
namespace Sys2Proof.Machine

/-! ## Status codes (Table 6.4) and endings (Tables 3.15, 3.16, 4.5) -/

def Status.success : BitVec 16 := 0x0000
def Status.notice : BitVec 16 := 0x0001
def Status.suspended : BitVec 16 := 0x0002
def Status.admitRefused : BitVec 16 := 0x0010
def Status.guaranteeUnavailable : BitVec 16 := 0x0011
def Status.energyLimit : BitVec 16 := 0x0012
def Status.programFault : BitVec 16 := 0x0020
def Status.protectionFault : BitVec 16 := 0x0021
def Status.chainFault : BitVec 16 := 0x0022
def Status.lengthMismatch : BitVec 16 := 0x0023
def Status.dataFault : BitVec 16 := 0x0024
def Status.linkFault : BitVec 16 := 0x0025
def Status.stepTimeout : BitVec 16 := 0x0026
def Status.deadlineMissed : BitVec 16 := 0x0027
def Status.dataGone : BitVec 16 := 0x0028
def Status.halted : BitVec 16 := 0x0030
def Status.abortedReset : BitVec 16 := 0x0031
def Status.abortedQuench : BitVec 16 := 0x0032
def Status.unitFenced : BitVec 16 := 0x0040
def Status.versionMismatch : BitVec 16 := 0x0050
def Status.badOpcode : BitVec 16 := 0x0100
def Status.badParam : BitVec 16 := 0x0101
def Status.notPermitted : BitVec 16 := 0x0102
def Status.consentPending : BitVec 16 := 0x0103
def Status.consentExpired : BitVec 16 := 0x0104
def Status.busy : BitVec 16 := 0x0105
def Status.modeWrong : BitVec 16 := 0x0106
def Status.resourceExhausted : BitVec 16 := 0x0107

/-- How a program ends: its status with the DEVSTAT and CHSTAT of Table 4.5. -/
structure Ending where
  status : BitVec 16
  dev : Byte
  ch : Byte
  deriving DecidableEq, Repr

def Ending.programFault : Ending := ⟨Status.programFault, 0, 0x04⟩
def Ending.protectionFault : Ending := ⟨Status.protectionFault, 0, 0x08⟩
def Ending.chainFault : Ending := ⟨Status.chainFault, 0, 0x20⟩
def Ending.lengthMismatch : Ending := ⟨Status.lengthMismatch, 0x01, 0x02⟩
def Ending.dataFault : Ending := ⟨Status.dataFault, 0x02, 0x10⟩
def Ending.linkFault : Ending := ⟨Status.linkFault, 0x02, 0x40⟩
def Ending.stepTimeout : Ending := ⟨Status.stepTimeout, 0, 0x80⟩
def Ending.deadlineMissed : Ending := ⟨Status.deadlineMissed, 0, 0x80⟩
def Ending.dataGone : Ending := ⟨Status.dataGone, 0x04, 0⟩
def Ending.energyLimit : Ending := ⟨Status.energyLimit, 0x04, 0⟩
def Ending.resourceExhausted : Ending := ⟨Status.resourceExhausted, 0x04, 0⟩
def Ending.versionMismatch : Ending := ⟨Status.versionMismatch, 0, 0x04⟩
def Ending.halted : Ending := ⟨Status.halted, 0, 0⟩
def Ending.abortedReset : Ending := ⟨Status.abortedReset, 0, 0⟩
def Ending.unitFenced : Ending := ⟨Status.unitFenced, 0, 0⟩

/-! ## Completions (R126, R131, R132, R169) -/

/-- Bytes 8 to 23 of a program's completion. -/
def cqeBody (ccw : W64) (residual : Nat) (dev ch : Byte) (cluster slot : Nat) : BitVec 128 :=
  BitVec.ofNat 128 (ccw.toNat + min residual 0xFFFFFF * 2 ^ 64 + dev.toNat * 2 ^ 88 + ch.toNat * 2 ^ 96
    + (cluster % 256) * 2 ^ 104 + (slot % 256) * 2 ^ 112)

/-- The low 56 bits of device time. -/
def State.time56 (s : State) : BitVec 56 := s.tmr.time.truncate 56

/-- A completion of the program on engine `e`, stamped with `time`: a notice with the time its word was fetched, any other with the time
it is made (R132). -/
def progCqe (e : Nat) (p : Prog) (n : Ending) (ccw : W64) (residual : Nat) (time : BitVec 56) : Cqe :=
  { tag := p.tag, sqid := BitVec.ofNat 16 p.sqid, status := n.status,
    body := cqeBody ccw residual n.dev n.ch (e / engPerCluster) (e % engPerCluster), time := time }

/-- A completion that no engine produced: bytes 21 and 22 read 0xFF (Tables 4.5, 4.6). -/
def State.qeCqe (s : State) (sq : Nat) (tag : W32) (n : Ending) (ccw : W64) : Cqe :=
  { tag := tag, sqid := BitVec.ofNat 16 sq, status := n.status, body := cqeBody ccw 0 n.dev n.ch 0xFF 0xFF, time := s.time56 }

/-- Make a completion ready to post (R171). It is lost only where its queue no longer exists (R130). While a class-0 ring is full, no
posting bound holds for its completions (R180). -/
def State.pushReady (s : State) (cqid : Nat) (w : Waiting) : State :=
  s.updCq cqid (fun q => { q with ready := q.ready ++ [if q.c0Full then { w with bell := none } else w] })

def State.pushQe (s : State) (sqid : Nat) (tag : W32) (n : Ending) (ccw : W64) : State :=
  match s.sq sqid with
  | none => s
  | some q => s.pushReady q.cqid { cqe := s.qeCqe sqid tag n ccw, src := .qe sqid, groups := [], pid := 0, bell := none }

/-- Completions of engine `e`'s program that wait for room: notices and SUSPENDED completions (R175). -/
def State.notesHeld (s : State) (e : Nat) (cqid : Nat) : Nat :=
  match s.cq cqid with
  | none => 0
  | some q => countP (fun w => decide (w.src = .note e)) (q.ready ++ q.held)

/-- Make a notice or a SUSPENDED completion of the program on engine `e` ready to post. -/
def State.raiseNote (s : State) (e : Nat) (p : Prog) (c : Cqe) : State :=
  s.pushReady p.cqid { cqe := c, src := .note e, groups := [], pid := p.pid, bell := none }

/-- Post a notice of the program on engine `e`, stamped with the time at which its word was fetched (R132). -/
def State.pushNotice (s : State) (e : Nat) (p : Prog) (residual : Nat) : State :=
  s.raiseNote e p (progCqe e p ⟨Status.notice, 0, 0x01⟩ p.pc residual (p.fetchedAt.truncate 56))

/-- Raise the SUSPENDED completion that waited for one of four to be posted (R175). -/
def State.raiseOwed (s : State) (e : Nat) : State :=
  match s.prog e with
  | none => s
  | some p => match p.owed with
    | none => s
    | some c => (s.raiseNote e p c).updProg e (fun p => { p with owed := none })

/-! ## Broadcasts (R151) -/

/-- Engine `e` has reached a handover point, or is free: it acts on the orders sent to it and acknowledges them. -/
def State.ack (s : State) (e : Nat) : State :=
  { s with eng := { s.eng with bcast := s.eng.bcast.map (fun b => { b with left := b.left.erase e }) } }

/-! ## Endings -/

/-- The engine clears its local store and is free again (R111, R174). -/
def State.freeEngine (s : State) (e : Nat) : State :=
  let s := (s.ack e).updEngine e (fun g => { g with prog := none, store := [] })
  s.updCluster (e / engPerCluster) (fun c => { c with idleSince := s.tick })

/-- Whether the class-0 posting bound is timed for a program: it sealed or opened a group that holds a record (R388). -/
def Prog.timedBell (p : Prog) : Option Nat :=
  if p.cls = 0 && !p.judged && (!p.sealed.isEmpty || p.group.isSome) then some p.bell else none

/-- The final completion of program `p` of engine `e` becomes ready; the engine waits until it is posted, and is free at once where it is fenced, or where
the completion queue no longer exists (R130, R131, R174). -/
def State.postFinal (s : State) (e : Nat) (p : Prog) (n : Ending) (ccw : W64) (bell : Option Nat) : State :=
  let fin := progCqe e p n ccw p.residual s.time56
  let src := if (s.engine e).fenced then CSrc.fence e else CSrc.final e
  match s.cq p.cqid with
  | none => s.freeEngine e
  | some _ =>
    let s := s.pushReady p.cqid { cqe := fin, src := src, groups := p.sealed, pid := p.pid, bell := bell }
    if (s.engine e).fenced then s.freeEngine e
    else (s.ack e).updProg e (fun p => { p with phase := .postwait, op := [], reserve := 0, xf := none })

/-- End the program on engine `e` with ending `n` and last CCW `ccw`: the open group is discarded, waiting charges
leave their queue, and the final completion becomes ready (R38, R130, R131). A program whose completion queue no longer
exists posts none. A fenced engine hands its completion to the Queue Engine (R174). -/
def State.endProg (s : State) (e : Nat) (n : Ending) (ccw : W64) : State :=
  match s.prog e with
  | none => s
  | some p =>
    if p.phase = .postwait then s else
    let bell := p.timedBell
    let s := (((s.discardOpen e).dropCharge e).dropChan e dsAborted).raiseOwed e
    let s := if n.status = Status.energyLimit then ({ s with lq := { s.lq with energyRefused := true } }).sets 0xB80000 9 else s
    s.postFinal e p n ccw bell

/-- End it at the last word it completed; its PROGRAM address when none has completed (Table 4.5). -/
def State.endAtLast (s : State) (e : Nat) (n : Ending) : State :=
  match s.prog e with
  | none => s
  | some p => s.endProg e n (if p.anyDone then p.last else p.start)

/-- The size of a word of the program (R66, R106), and the address of word `i` of the delivered operation. -/
def Prog.wordSize (p : Prog) : Nat := if p.v1 then 8 else 16
def Prog.opAddr (p : Prog) (i : Nat) : W64 := p.pc + BitVec.ofNat 64 (i * p.wordSize)

/-- End it at word `i` of the operation in hand. -/
def State.endAtWord (s : State) (e : Nat) (n : Ending) (i : Nat) : State :=
  match s.prog e with
  | none => s
  | some p => s.endProg e n (p.opAddr i)

/-- The policy in force (R36): Explicit 0, Seal at end 1, Seal each write 2; Seal at end without HDR. -/
def Prog.policy (p : Prog) : Nat := match p.hdr with | some h => h.policy | none => 1

/-- End the program normally: the commit-group policy at the end, then SUCCESS (R36, R37, R87, Table 4.5). -/
def State.endNormal (s : State) (e : Nat) (unitException : Bool) : State :=
  match s.prog e with
  | none => s
  | some p =>
    if p.policy = 0 && p.group.isSome then s.endProg e Ending.programFault p.last
    else
      let s := s.sealOpen e
      let dev : Byte := 0x01 ||| (p.devstat &&& 0x1A) ||| (if unitException then 0x04 else 0)
      s.endProg e ⟨Status.success, dev, 0⟩ p.last

/-! ## Suspension (R120) -/

/-- Suspend the program on engine `e`, and post SUSPENDED with address `ccw`. While four completions are held it waits to be raised
(R175); the program is suspended from now on. -/
def State.suspendProg (s : State) (e : Nat) (k : Susp) (ccw : W64) : State :=
  match s.prog e with
  | none => s
  | some p =>
    let s := ((s.dropCharge e).dropChan e dsAborted).ack e
    let s := s.updProg e (fun p => { p with phase := .susp k, holdPend := false, xf := none, moved := 0, further := false })
    let c := progCqe e p ⟨Status.suspended, 0, 0⟩ ccw 0 s.time56
    if 4 ≤ s.notesHeld e p.cqid then s.updProg e (fun p => { p with owed := some c }) else s.raiseNote e p c

/-! ## Completing a word (R70, R103, R113) -/

/-- Where a completed word continues. -/
inductive Dest where
  | next            -- the next word, when LNK is set
  | jump (t : W64)  -- a branch or call target
  | stop (ue : Bool) -- HALT: end normally
  deriving DecidableEq, Repr

/-- LNK, SPN, NOF, BAR, BRK, DRP, TOL of a word (Table 3.2). -/
def Ccw.lnk (w : Ccw) : Bool := w.flags.getLsbD 0
def Ccw.spn (w : Ccw) : Bool := w.flags.getLsbD 1
def Ccw.nof (w : Ccw) : Bool := w.flags.getLsbD 2
def Ccw.bar (w : Ccw) : Bool := w.flags.getLsbD 3
def Ccw.brk (w : Ccw) : Bool := w.flags.getLsbD 4
def Ccw.drp (w : Ccw) : Bool := w.flags.getLsbD 5
def Ccw.tol (w : Ccw) : Bool := w.flags.getLsbD 6

/-- The word of an operation that decides LNK and TOL: its last. -/
def Prog.lastWord (p : Prog) : Option Ccw := p.op.getLast?
def Prog.opLnk (p : Prog) : Bool := match p.lastWord with | some w => w.lnk | none => false
def Prog.opTol (p : Prog) : Bool := match p.lastWord with | some w => w.tol | none => false

/-- At a word boundary: a pending halt ends the program, a pending hold suspends it (R120, R123). -/
def State.atBoundary (s : State) (e : Nat) : State :=
  match s.prog e with
  | none => s
  | some p =>
    if p.haltPend then s.endAtLast e Ending.halted
    else if p.holdPend then s.suspendProg e .host p.pc
    else s

/-- The word in hand completes: steps are counted and the program goes on, or ends (R70, R103); a pending halt ends it with HALTED
even where the word ends the program (R123). -/
def State.completeWord (s : State) (e : Nat) (d : Dest) : State :=
  match s.prog e with
  | none => s
  | some p =>
    let n := p.op.length
    let lnk := p.opLnk
    let after := p.opAddr n
    let go := fun (t : W64) => ((s.dropChan e dsOk).ack e).updProg e (fun p =>
      { p with steps := p.steps + n, last := p.opAddr (n - 1), anyDone := true, op := [], noted := false,
               moved := 0, further := false, xf := none, resumed := false, pc := t, phase := .boundary })
    match d with
    | .jump t => (go t).atBoundary e
    | .stop ue => if p.haltPend then (go after).atBoundary e else (go after).endNormal e ue
    | .next => if lnk || p.haltPend then (go after).atBoundary e else (go after).endNormal e false

/-- Set the flags of the program. -/
def Prog.setFlags (p : Prog) (z n c : Bool) : Prog := { p with z := z, n := n, c := c }

/-- Read and write a general register (R83 to R96). -/
def Prog.getGp (p : Prog) (i : Nat) : W64 := p.gp.toList.getD (i % 16) 0
def Prog.setGp (p : Prog) (i : Nat) (v : W64) : Prog :=
  { p with gp := p.gp.set (i % 16) v (Nat.mod_lt _ (by decide)) }

/-! ## Waits (R85, R116) -/

/-- A WAIT completes: Z tells the event from the expiry (R85). -/
def State.finishWait (s : State) (e : Nat) (z : Bool) : State :=
  (s.updProg e (fun p => { p with z := z })).completeWord e .next

/-- Engines in a WAIT whose kind meets `f`, in the order of R116: the WAIT that began first, then the lower cluster
and slot. -/
def State.waiters (s : State) (f : WaitKind → Bool) : List Nat :=
  s.engsWith (fun p => match p.phase with | .wait w => f w.kind | _ => false)

def State.waitStart (s : State) (e : Nat) : Nat :=
  match s.prog e with
  | some p => (match p.phase with | .wait w => w.startTick | _ => 0)
  | none => 0

def State.firstWaiter (s : State) (f : WaitKind → Bool) : Option Nat := minBy s.waitStart (s.waiters f)

/-- Complete every WAIT whose kind meets `f`. -/
def State.finishWaits (s : State) (f : WaitKind → Bool) : State :=
  (s.waiters f).foldl (fun s e => s.finishWait e true) s

/-- The step timeout of the program's crew, in µs (R127). -/
def State.stepUs (s : State) (p : Prog) : Nat :=
  match s.crew p.crew with | some k => if k.stepUs = 0 then 100 else k.stepUs | none => 100

/-! ## Placement on a spare (R136, R137, R139) -/

/-- Completions held for engine `a` are held for engine `b` after a handover. -/
def CSrc.move (a b : Nat) : CSrc → CSrc
  | .final e => if e = a then .final b else .final e
  | .note e => if e = a then .note b else .note e
  | c => c

def Cq.moveSrc (a b : Nat) (q : Cq) : Cq :=
  { q with ready := q.ready.map (fun w => { w with src := w.src.move a b })
           held := q.held.map (fun w => { w with src := w.src.move a b }) }

/-- Move the program of engine `a`, with its local store, to engine `b` (R137). -/
def State.handover (s : State) (a b : Nat) : State :=
  let ga := s.engine a
  let s := s.updEngine b (fun g => { g with prog := ga.prog, store := ga.store })
  let s := s.updEngine a (fun g => { g with prog := none, store := [] })
  let s := { s with qe := { s.qe with cqs := s.qe.cqs.all (fun _ q => q.moveSrc a b) } }
  let mv := fun (c : Charge) => if c.eng = a then { c with eng := b } else c
  { s with lq := { s.lq with c0Queue := s.lq.c0Queue.map mv, shQueue := s.lq.shQueue.map mv } }

/-- The tested spare with the lowest slot of cluster `c` (R139). -/
def State.testedSpare (s : State) (c : Nat) : Option Nat :=
  (clusterEngines c).find? (fun e => let g := s.engine e; !g.seated && g.tested && !g.fenced && !g.testing)

/-- A program may be handed over now: it is at a handover point (R137), which inside a device or data word comes with each further
64 KiB. -/
def Prog.atHandover (p : Prog) : Bool := match p.phase with | .fetched => p.further | .noteHold => false | _ => true

end Sys2Proof.Machine
end

