-- ==== Sys2Proof/Machine/CellPool.lean ====
section
/-! DEFINITION. The Cell Pool (R310 to R317): queue operations, and the commands CPL_PUSH, CPL_POP, CPL_FLUSH and
CPL_RESERVE_WRITE. -/
namespace Sys2Proof.Machine

/-- Cells in the pool, and payload words in a cell (R310). -/
def poolCells : Nat := 262144
def cellWords : Nat := 14

/-- Cells a queue holds: its words stand in consecutive cells, the first of them partly read. -/
def CQueue.used (q : CQueue) : Nat :=
  let n := q.words.length + q.opened.length
  if n = 0 then 0 else (q.headUsed + n + cellWords - 1) / cellWords

/-- Cells on the free list (CPL_GLB_STATUS), and the part of them no reserve holds back (R313). -/
def Cpl.free (c : Cpl) : Nat := poolCells - sumBy (fun p => p.2.used) c.queues
def Cpl.unreserved (c : Cpl) : Nat := poolCells - sumBy (fun p => max p.2.used p.2.reserve) c.queues
def Cpl.rsvTotal (c : Cpl) : Nat := sumBy (fun p => p.2.reserve) c.queues

/-- A queue is full while it holds CAP cells, or while no free cell is open to it and it holds its reserve (R313). -/
def State.cpFull (s : State) (q : Nat) : Bool :=
  let c := s.cpq q
  decide (c.cap ≤ c.used) || (decide (s.cpl.unreserved = 0) && decide (c.reserve ≤ c.used))

/-- A complete packet raises a notice (R315). -/
def State.cpNotice (s : State) (q : Nat) : State :=
  let c := s.cpq q
  if c.noticeEn then
    (s.updCpq q (fun c => { c with notices := wrapAdd 32 c.notices 1 })).sendMsix c.func c.vector
  else s

/-- Every engine that waits for the queue to be non-empty completes its WAIT (R116, R315). -/
def State.cpWake (s : State) (q : Nat) : State :=
  if (s.cpq q).words.isEmpty then s else s.finishWaits (fun k => decide (k = .cellq q))

/-- Commit one word to a queue (R311 to R314, R317). -/
def State.cpPush (s : State) (q : Nat) (w : CWord) : State :=
  let c := s.cpq q
  if !c.en then s
  else if c.pkt then
    if c.discarding then s.updCpq q (fun c => { c with discarding := !w.eop, pktOpen := !w.eop })
    else
      let s := if w.sop && c.pktOpen then
        s.updCpq q (fun c => { c with opened := [], pktOpen := false, drops := satAdd 32 c.drops 1 }) else s
      if s.cpFull q then
        (s.updCpq q (fun c => { c with opened := [], pktOpen := !w.eop, discarding := !w.eop, overrun := true, drops := satAdd 32 c.drops 1 })).sets
          (0x800004 + 0x10 * q) 8
      else if w.eop then
        ((s.updCpq q (fun c => { c with words := c.words ++ c.opened ++ [w], opened := [], pktOpen := false })).cpNotice q).cpWake q
      else s.updCpq q (fun c => { c with opened := c.opened ++ [w], pktOpen := true })
  else if s.cpFull q then (s.updCpq q (fun c => { c with overrun := true, drops := satAdd 32 c.drops 1 })).sets (0x800004 + 0x10 * q) 8
  else
    let s := s.updCpq q (fun c => { c with words := c.words ++ [w], pktOpen := !w.eop })
    (if w.eop then s.cpNotice q else s).cpWake q

/-- Remove the oldest visible word; nothing while the queue is disabled or shows none (R311, R317). -/
def State.cpPop (s : State) (q : Nat) : Option CWord × State :=
  let c := s.cpq q
  if !c.en then (none, s) else
  match c.words with
  | [] => (none, s)
  | w :: t =>
    let used := if t.isEmpty && c.opened.isEmpty then 0 else (c.headUsed + 1) % cellWords
    (some w, s.updCpq q (fun c => { c with words := t, headUsed := used }))

/-- Push the words of a byte string as one packet: SOP on the first word, EOP on the last, a final partial word padded
with zero bytes (R90, R311). `first` says that the next word is the packet's first. -/
def State.cpPushBytes (q : Nat) : Nat → Bool → List Byte → State → State
  | 0, _, _, s => s
  | fuel + 1, first, bs, s =>
    if bs.isEmpty then s
    else
      let rest := bs.drop 4
      let s := s.cpPush q { payload := BitVec.ofNat 32 (leNat (bs.take 4)), sop := first, eop := rest.isEmpty }
      State.cpPushBytes q fuel false rest s

/-- Take the payload of whole words until `n` bytes have been taken or an EOP word has been taken (R90). -/
def State.cpTake (q : Nat) : Nat → Nat → State → List Byte × State
  | 0, _, s => ([], s)
  | fuel + 1, n, s =>
    if n = 0 then ([], s)
    else match s.cpPop q with
      | (none, s) => ([], s)
      | (some w, s) =>
        let bs := (leBytes 4 w.payload.toNat).take n
        if w.eop then (bs, s)
        else
          let r := State.cpTake q fuel (n - bs.length) s
          (bs ++ r.1, r.2)

/-- The words of the next packet of a queue that are visible: up to its EOP. -/
def CQueue.packet (q : CQueue) : List CWord := q.words.takeWhile (fun w => !w.eop) ++ (q.words.dropWhile (fun w => !w.eop)).take 1

/-- Discard `n` words. -/
def State.cpSkip (q : Nat) : Nat → State → State
  | 0, s => s
  | n + 1, s => State.cpSkip q n (s.cpPop q).2

/-- Key of a held or latched half: per function and queue. -/
def cpKey (mid q : Nat) : Nat := 4096 * mid + q

/-- CPL_PUSH: a write of CPL_PUSH_HIq commits the held payload with [0] SOP, [1] EOP, [31] NV (R311). The function needs
the write right on the queue and on the block. -/
def execCplPush (mid q : Nat) (hi : W32) (s : State) : Answer :=
  occurs s (s.holds mid 7 q 1 && s.mayWrite mid (blockOf 0x800000)) (fun s =>
    if hi.getLsbD 31 then s
    else s.cpPush q { payload := s.cpl.pushLo.get (cpKey mid q) 0, sop := hi.getLsbD 0, eop := hi.getLsbD 1 })

/-- What a read of CPL_POP_LOq returns, and the high half that it latches (R311). -/
def State.cpShow (s : State) (mid q : Nat) (lo hi : W32) : State :=
  ({ s with cpl := { s.cpl with popHi := s.cpl.popHi.put (cpKey mid q) hi } } : State).drive (.cell mid q lo)

/-- CPL_POP: a read of CPL_POP_LOq removes one visible word and latches its HI half for the function, or NV (R311). -/
def execCplPop (mid q : Nat) (s : State) : Answer :=
  if !s.mayRead mid (blockOf 0x800000) false then .next s
  else if !s.holds mid 7 q 0 then .next (s.cpShow mid q 0 0x80000000)
  else match s.cpPop q with
    | (none, s) => .next (s.cpShow mid q 0 0x80000000)
    | (some w, s) => .next (s.cpShow mid q w.payload (BitVec.ofNat 32 (bitN w.sop 0 + bitN w.eop 1)))

/-- CPL_FLUSH: accepted only while EN is 0; every cell returns to the free list (R317). -/
def execCplFlush (mid q : Nat) (s : State) : Answer :=
  occurs s (s.mayWrite mid (blockOf 0x81C000) && !(s.cpq q).en) (fun s =>
    s.updCpq q (fun c => { c with words := [], opened := [], pktOpen := false, discarding := false, headUsed := 0 }))

/-- CPL_RESERVE_WRITE: a write to CPL_Q_RSVq; ignored with RSV_ERR when the sum of all reserves would exceed the pool
(R313). -/
def execCplReserveWrite (mid q : Nat) (v : W32) (s : State) : Answer :=
  occurs s (s.mayWrite mid (blockOf 0x800000)) (fun s =>
    let r := fld v 0 19
    if poolCells < s.cpl.rsvTotal - (s.cpq q).reserve + r then { s with cpl := { s.cpl with rsvErr := true } }
    else s.updCpq q (fun c => { c with reserve := r }))

end Sys2Proof.Machine
end

