-- ==== Sys2Proof/Machine/Operands.lean ====
section
/-! DEFINITION. Operand forms of the channel command words (chapter 3): effective space and address, buffer pieces, the
encoding checks of Table 3.21, the access checks of Table 3.6, and the movement of bytes between object and buffer. -/
namespace Sys2Proof.Machine

/-! ## Outcomes of a check (R108) -/

/-- What a check finds: an effect the spec calls undefined, or an ending decided by word `i` of the operation. -/
inductive Bad where
  | undef
  | ends (n : Ending) (i : Nat)
  deriving DecidableEq, Repr

/-- Check results in the order of the rows of Table 3.21: the first that is not `none` decides. -/
def firstBad (l : List (Option Bad)) : Option Bad := l.findSome? id

/-- An ending decided by the first word of `op` that meets `p`. -/
def badAt (op : List Ccw) (p : Nat → Ccw → Bool) (n : Ending) : Option Bad :=
  match op.zipIdx.find? (fun x => p x.2 x.1) with
  | some x => some (.ends n x.2)
  | none => none

def badIf (b : Bool) (n : Ending) (i : Nat) : Option Bad := if b then some (.ends n i) else none
def undefIf (b : Bool) : Option Bad := if b then some .undef else none

/-! ## Spaces (R77, Table 3.4) -/

def spHost : Nat := 0
def spYard : Nat := 1
def spLocal : Nat := 2
def spStream : Nat := 3
def spRegion : Nat := 4
def spVault : Nat := 5
def spPort : Nat := 6
def spCellq : Nat := 7
def spGpref : Nat := 8
def spRaw : Nat := 15

/-- Bytes of a local store. -/
def localSize : Nat := 16 * kib

/-- The effective space, mode and address of a word (R78). -/
structure Eff where
  space : Nat
  mode : Nat
  addr : W64
  deriving DecidableEq, Repr

def Prog.eff (p : Prog) (w : Ccw) : Eff :=
  if w.space.toNat = spGpref then { space := fld w.addr 0 4, mode := fld w.addr 4 4, addr := p.getGp w.mode.toNat }
  else { space := w.space.toNat, mode := w.mode.toNat, addr := w.addr }

/-- Reserved space codes 0x9 to 0xE. -/
def spaceReserved (k : Nat) : Bool := decide (9 ≤ k) && decide (k ≤ 14)

/-- Reserved bits of an address in its space are not all 0. -/
def addrReserved (space : Nat) (a : W64) : Bool :=
  if space = spStream then decide (fld a 0 48 ≠ 0)
  else if space = spCellq then decide (fld a 12 52 ≠ 0)
  else if space = spRaw then decide (fld a 48 7 ≠ 0)
  else false

/-- A word's own reserved parts are not all 0 (R69): flag bit 7, byte 3, a reserved SPACE, and with GPREF the reserved
bits of ADDR and a reserved effective space. -/
def Ccw.reservedBits (w : Ccw) : Bool :=
  w.flags.getLsbD 7 || decide (w.rsv ≠ 0) || spaceReserved w.space.toNat
  || (decide (w.space.toNat = spGpref) && (decide (fld w.addr 8 56 ≠ 0) || spaceReserved (fld w.addr 0 4)))

/-- A range beyond the local store or the Yard (Table 3.21, row 4). -/
def rangeBad (space : Nat) (a : W64) (len : Nat) : Bool :=
  (decide (space = spLocal) && decide (localSize < a.toNat + len))
  || (decide (space = spYard) && decide (yardSize < a.toNat + len))

/-! ## Buffer pieces (R71, R79) -/

/-- One buffer piece of a data operation. -/
structure Piece where
  space : Nat
  addr : W64
  len : Nat
  deriving DecidableEq, Repr

/-- The buffer of a first word: SUB names it, or a translated v1 word carries it. -/
def Prog.bufPiece (p : Prog) (w : Ccw) : Piece :=
  match w.buf with
  | some a => { space := spHost, addr := a, len := w.count.toNat }
  | none => { space := fld w.sub 4 4, addr := p.getGp (fld w.sub 0 4), len := w.count.toNat }

/-- The piece of a continuation word. -/
def Prog.contPiece (p : Prog) (w : Ccw) : Piece :=
  let e := p.eff w
  { space := e.space, addr := e.addr, len := w.count.toNat }

/-- The pieces of a data operation. -/
def Prog.pieces (p : Prog) (op : List Ccw) : List Piece :=
  match op with
  | [] => []
  | w :: t => p.bufPiece w :: t.map p.contPiece

/-- The operation's length (R71). -/
def opLen (op : List Ccw) : Nat := sumBy (fun w => w.count.toNat) op

/-- Spaces a buffer may lie in (R79, Table 3.3). -/
def bufferSpace (k : Nat) : Bool := decide (k = spHost) || decide (k = spYard) || decide (k = spLocal) || decide (k = spCellq)

/-! ## Encoding checks of a data operation (Table 3.21) -/

/-- What an opcode permits: object spaces, GPREF, a buffer, SPN, DRP, the MODE bits it defines. -/
structure Form where
  spaces : List Nat
  gpref : Bool
  buffer : Bool
  spn : Bool
  drp : Bool
  modeMask : Nat
  deriving DecidableEq, Repr

/-- Row 1: the object space is permitted; a GPREF with effective GPREF or RAWFLASH is row 3's. -/
def spaceBad (f : Form) (p : Prog) (w : Ccw) : Bool :=
  let e := p.eff w
  if w.space.toNat = spGpref then
    !f.gpref || (!f.spaces.contains e.space && decide (e.space ≠ spGpref) && decide (e.space ≠ spRaw))
  else !f.spaces.contains w.space.toNat

/-- Row 3. -/
def gprefBad (w : Ccw) : Bool :=
  decide (w.space.toNat = spGpref) && (decide (fld w.addr 0 4 = spGpref) || decide (fld w.addr 0 4 = spRaw))

/-- Row 6: a continuation word (R71, Table 3.3). On GPREF the effective MODE is ADDR[7:4] of the register's value, as R71 says, and
ADDR[7:4] of the word, which R78 puts in the place of MODE, must be 0 too (log 9). -/
def contBad (p : Prog) (opc : BitVec 8) (w : Ccw) : Bool :=
  decide (w.opc ≠ opc) || decide (w.sub ≠ 0) || w.drp || w.brk
  || (if w.space.toNat = spGpref then decide (fld w.addr 4 4 ≠ 0) || decide (fld (p.getGp w.mode.toNat) 4 4 ≠ 0) else decide (w.mode ≠ 0))
  || !bufferSpace (p.eff w).space

/-- The words of an operation whose effect is undefined (second group of Table 3.21). The reserved bits of an address are judged in a
space that the table permits there; another space ends the program by its own row. -/
def dataUndef (f : Form) (p : Prog) (op : List Ccw) : Bool :=
  match op with
  | [] => false
  | w :: t =>
    let e := p.eff w
    w.reservedBits || (f.spaces.contains e.space && addrReserved e.space e.addr) || decide (e.mode &&& (15 - f.modeMask) ≠ 0)
    || (f.buffer && w.buf.isNone && bufferSpace (fld w.sub 4 4) && addrReserved (fld w.sub 4 4) (p.getGp (fld w.sub 0 4)))
    || t.any (fun v => v.reservedBits || (decide ((p.eff v).space = spCellq) && addrReserved spCellq (p.eff v).addr))

/-- Flag misuse: DRP, SPN, and BRK at class 0 or 1 (R71 to R73). The row names two outcomes and no order between them: PROGRAM_FAULT
stands first (DESIGN CHOICE, log 85). -/
def flagChecks (p : Prog) (w : Ccw) (spn drp : Bool) : Option Bad :=
  firstBad [badIf ((w.drp && !drp) || (w.brk && decide (p.cls ≤ 1))) Ending.programFault 0,
    badIf (w.spn && !spn) Ending.chainFault 0]

/-- The rows that a data operation shares, with `extra` for the rows of its opcode after row 7. `objLen` is the range
of an object that is memory. -/
def dataChecks (f : Form) (p : Prog) (op : List Ccw) (objLen : Nat) (drpOk : Bool) (extra : List (Option Bad)) : Option Bad :=
  match op with
  | [] => none
  | w :: t =>
    let e := p.eff w
    let pieces := if f.buffer then p.pieces op else []
    let rangeIdx := (pieces.zipIdx.find? (fun x => rangeBad x.1.space x.1.addr x.1.len)).map (·.2)
    firstBad ([
      undefIf (dataUndef f p op),
      badIf (spaceBad f p w) Ending.programFault 0,
      badIf (f.buffer && w.buf.isNone && !bufferSpace (fld w.sub 4 4)) Ending.programFault 0,
      badAt op (fun _ v => gprefBad v) Ending.programFault,
      badIf (rangeBad e.space e.addr objLen) Ending.programFault 0,
      rangeIdx.map (fun i => Bad.ends Ending.programFault i),
      flagChecks p w (f.spn && decide (e.space ≠ spRaw)) drpOk,
      badAt t (fun _ v => contBad p w.opc v) Ending.chainFault |>.map (fun b => match b with
        | .ends n i => .ends n (i + 1) | .undef => .undef),
      badIf (decide (256 ≤ op.length) && (match op.getLast? with | some v => v.spn | none => false)) Ending.chainFault 255,
      badAt op (fun _ v => decide (v.count = 0)) Ending.programFault] ++ extra)

/-! ## Declared bounds (R103, R104) -/

/-- Media operations of an operation of `n` bytes. -/
def mediaOps (n : Nat) : Nat := (n + 16383) / 16384

/-- The word would exceed a declared bound. -/
def Prog.overBounds (p : Prog) (len ops : Nat) : Bool :=
  match p.hdr with
  | none => false
  | some h => decide (h.maxSteps < p.steps + p.op.length) || decide (h.maxBytes < p.bytes + len) || decide (h.maxOps < p.ops + ops)

/-! ## Access (R80, Table 3.6) -/

/-- MID of the program. -/
def Prog.mid (p : Prog) : Nat := midOf p.fn

/-- The MID may read or write a memory range. -/
def State.memAllowed (s : State) (p : Prog) (space : Nat) (a : W64) (len : Nat) (write : Bool) : Bool :=
  if space = spYard then s.yardGranted p.mid a.toNat len write
  else if space = spCellq then s.holds p.mid 7 (fld a 0 12) (if write then 1 else 0)
  else true

/-- The first buffer piece that the MID may not use. -/
def State.pieceDenied (s : State) (p : Prog) (ps : List Piece) (write : Bool) : Option Bad :=
  (ps.zipIdx.find? (fun x => !s.memAllowed p x.1.space x.1.addr x.1.len write)).map
    (fun x => Bad.ends Ending.protectionFault x.2)

/-! ## Moving bytes -/

/-- The local store of an engine. -/
def State.localStore (s : State) (e : Nat) : Memory := (s.engine e).store

/-- What reading a source gave: the bytes, the bytes of the host's answer not yet used, the word and kind of a failure
met, and the state after (Cell Pool words are consumed). -/
structure Got where
  bytes : List Byte
  host : List Byte
  fail : Option (Nat × Ending)
  st : State

/-- Read one range. HOST bytes come from what the outside supplied; an uncorrectable Yard word stops the read, the bytes before it being
delivered (R485). -/
def State.readPiece (s : State) (e : Nat) (x : Piece) (host : List Byte) : Got :=
  if x.space = spHost then
    { bytes := host.take x.len, host := host.drop x.len, fail := none, st := s }
  else if x.space = spYard then
    let a := x.addr.toNat
    match s.yard.firstBad a x.len with
    | some w => { bytes := s.yard.read a (w - a), host := host, fail := some (0, Ending.dataFault), st := s.reportBad w 1 }
    | none => { bytes := s.yard.read a x.len, host := host, fail := none, st := s }
  else if x.space = spLocal then { bytes := (s.localStore e).readN x.addr.toNat x.len, host := host, fail := none, st := s }
  else
    let r := State.cpTake (fld x.addr 0 12) (x.len + 1) x.len s
    { bytes := r.1, host := host, fail := none, st := r.2 }

/-- Read the pieces of a source in order; the first failure, or a Cell Pool queue that gives fewer bytes, stops it. -/
def State.gather (e : Nat) : Nat → List Piece → List Byte → State → Got
  | _, [], host, s => { bytes := [], host := host, fail := none, st := s }
  | i, x :: t, host, s =>
    let g := s.readPiece e x host
    match g.fail with
    | some f => { bytes := g.bytes, host := g.host, fail := some (i, f.2), st := g.st }
    | none =>
      if g.bytes.length < x.len then g
      else
        let h := State.gather e (i + 1) t g.host g.st
        { h with bytes := g.bytes ++ h.bytes }

/-- Write bytes to one range, as many as are given. A write to host memory awaits its acknowledgement (R75). -/
def State.writePiece (s : State) (e fn : Nat) (x : Piece) (bs : List Byte) : State :=
  if bs.isEmpty then s
  else if x.space = spHost then (s.updProg e (fun p => { p with unacked := true })).drive (.hostWrite fn x.addr bs)
  else if x.space = spYard then s.yardWrite x.addr.toNat bs
  else if x.space = spLocal then s.updEngine e (fun g => { g with store := g.store.writeN x.addr.toNat bs })
  else State.cpPushBytes (fld x.addr 0 12) (bs.length + 1) true bs s

/-- Write bytes over the pieces of a destination in order. Of a transfer that a Cell Pool queue takes in several pieces each piece is a packet of its own,
with SOP and EOP: R90 does not say whether the operation is one packet (DESIGN CHOICE, log 110). -/
def State.scatter (e fn : Nat) : List Piece → List Byte → State → State
  | [], _, s => s
  | x :: t, bs, s => State.scatter e fn t (bs.drop x.len) (s.writePiece e fn x (bs.take x.len))

/-! ## Pieces from an offset on -/

/-- The part of the pieces that covers `n` bytes from byte `off` on. -/
def slicePieces : List Piece → Nat → Nat → List Piece
  | [], _, _ => []
  | x :: t, off, n =>
    if n = 0 then []
    else if x.len ≤ off then slicePieces t (off - x.len) n
    else
      let k := min n (x.len - off)
      { x with addr := if x.space = spCellq then x.addr else x.addr + BitVec.ofNat 64 off, len := k } :: slicePieces t 0 (n - k)

/-- The piece in which byte `off` of the operation lies; the last one from its end on. -/
def pieceIndex : List Piece → Nat → Nat
  | [], _ => 0
  | [_], _ => 0
  | x :: t, off => if off < x.len then 0 else 1 + pieceIndex t (off - x.len)

/-- One of the pieces is a Cell Pool queue. -/
def hasCell (ps : List Piece) : Bool := ps.any (fun q => decide (q.space = spCellq))

/-- How a transfer that the outside served badly ends its word (Table 3.16, Table 10.4). `remote` says that HOST or PORT
takes part. -/
def xferEnding (st : XStatus) (remote : Bool) : Option Ending :=
  match st with
  | .ok => none
  | .link => some Ending.linkFault
  | .decode => some Ending.dataFault
  | .timeout => some (if remote then Ending.linkFault else Ending.dataFault)

/-- HOST bytes a list of pieces needs. -/
def hostNeed (ps : List Piece) : Nat := sumBy (fun x => if x.space = spHost then x.len else 0) ps

/-- `n` free bytes. -/
def freeBytes (i n : Nat) : List Byte := (List.range n).map (fun k => Config.freeByte (i + k))

/-- Draw `n` free bytes (log 2). -/
def State.takeFreeBytes (s : State) (n : Nat) : List Byte × State := (freeBytes s.free n, { s with free := s.free + n })

end Sys2Proof.Machine
end

