-- ==== Sys2Proof/Machine/Flags.lean ====
section
/-! DEFINITION. The flags Z, N, C and S (R76, R91, R96, R101). -/
namespace Sys2Proof.Machine

/-- Flags of ADDG: the sum modulo 2⁶⁴, Z and N of it, C the carry out of bit 63 (R96). -/
def addFlags (a b : W64) : W64 × Bool × Bool × Bool :=
  let r := a + b
  (r, decide (r = 0), r.msb, decide (2 ^ 64 ≤ a.toNat + b.toNat))

/-- Flags of TESTG: the difference, Z and N of it, C set when `a` is lower than `b` unsigned (R96). -/
def subFlags (a b : W64) : W64 × Bool × Bool × Bool :=
  let r := a - b
  (r, decide (r = 0), r.msb, decide (a.toNat < b.toNat))

/-- Z and N of a loaded value (R96). -/
def Prog.flagsOf (p : Prog) (r : W64) : Prog := { p with z := decide (r = 0), n := r.msb }

/-- Flags and counts of a data word that completes: Z when it transferred nothing, N unchanged, C on a mismatch, S on
any DEVSTAT bit but DEV_END (R91, R76, R101); the bytes actually moved, `heads` of them record headers, and the media operations are
counted (R103). -/
def Prog.dataDone (p : Prog) (moved heads ops : Nat) (mismatch : Bool) (dev : Byte) : Prog :=
  { p with z := decide (moved = 0), c := mismatch, s := decide (dev &&& 0xFE ≠ 0), devstat := dev,
           bytes := p.bytes + (moved - heads), ops := p.ops + ops, opsLeft := p.opsLeft - ops }

/-- Flags and counts of a persistence or device word, which sets S and leaves Z and N (R101). -/
def Prog.deviceDone (p : Prog) (moved ops : Nat) (dev : Byte) : Prog :=
  { p with s := decide (dev &&& 0xFE ≠ 0), devstat := dev, bytes := p.bytes + moved, ops := p.ops + ops,
           opsLeft := p.opsLeft - ops }

end Sys2Proof.Machine
end

