-- ==== Sys2Proof/Machine/Fetch.lean ====
section
/-! DEFINITION. The Program Fetch Unit (R106, R107, R112 to R114, R156): word decoding, ISA v1 translation, the cluster
fetch cache, the delivery of a word or data operation to its engine, and the command CCW_FETCH. -/
namespace Sys2Proof.Machine

/-! ## Words -/

/-- An ISA v2 word from its 16 bytes (Table 3.1). -/
def ccwOf (bs : List Byte) : Ccw :=
  { opc := BitVec.ofNat 8 (leAt bs 0 1), flags := BitVec.ofNat 8 (leAt bs 1 1), space := BitVec.ofNat 4 (leAt bs 2 1 % 16),
    mode := BitVec.ofNat 4 (leAt bs 2 1 / 16), rsv := BitVec.ofNat 8 (leAt bs 3 1), count := BitVec.ofNat 24 (leAt bs 4 3),
    sub := BitVec.ofNat 8 (leAt bs 7 1), addr := BitVec.ofNat 64 (leAt bs 8 8), buf := none, bad := false }

/-- ISA v2 flags of an ISA v1 flag byte (Table 3.19); its reserved bits show as flag bit 7. -/
def v1Flags (f : Nat) : BitVec 8 :=
  BitVec.ofNat 8 (bitN (f.testBit 0) 0 + bitN (f.testBit 1) 1 + bitN (f.testBit 2) 5 + bitN (f.testBit 3) 4
    + bitN (f.testBit 4) 2 + bitN (f.testBit 5) 6 + bitN (f.testBit 6 || f.testBit 7) 7)

/-- Translate an ISA v1 word (Table 3.20); `port` is GP0[7:0] and `first` tells it from a continuation word. -/
def v1Word (port : Nat) (first : Bool) (bs : List Byte) : Ccw :=
  let cmd := leAt bs 0 1
  let n := leAt bs 2 2
  let a := BitVec.ofNat 64 (leAt bs 4 4)
  let base : Ccw := { opc := 0, flags := v1Flags (leAt bs 1 1), space := 0, mode := 0, rsv := 0, count := 0, sub := 0,
                      addr := 0, buf := none, bad := decide (n = 0) }
  let obj : W64 := BitVec.ofNat 64 (port * 2 ^ 56)
  let data := fun (opc : BitVec 8) =>
    if first then { base with opc := opc, space := 6, count := BitVec.ofNat 24 n, addr := obj, buf := some a }
    else { base with opc := opc, space := 0, count := BitVec.ofNat 24 n, addr := a }
  if cmd = 1 then data 0x16
  else if cmd = 2 then data 0x17
  else if cmd = 3 then
    (if leAt bs 4 1 = 0 then base
     else { base with opc := 0x40, space := 6, sub := BitVec.ofNat 8 (leAt bs 4 1), addr := obj })
  else if cmd = 4 then { base with opc := 0x41, space := 6, count := BitVec.ofNat 24 n, addr := obj, buf := some a }
  else if cmd = 8 then { base with opc := 0x01, space := 0, addr := a }
  else { base with bad := true }

/-- Opcodes of chapter 3 that a delivered word may carry. -/
def opcListed (o : Nat) : Bool :=
  decide (o ≤ 0x0A) || (decide (0x10 ≤ o) && decide (o ≤ 0x18)) || (decide (0x20 ≤ o) && decide (o ≤ 0x24))
  || (decide (0x30 ≤ o) && decide (o ≤ 0x32)) || decide (o = 0x40) || decide (o = 0x41) || decide (o = 0x3F)

/-- Opcodes on which SPN is valid (R71): MOVE to PORT_IN. -/
def spnOpc (o : Nat) : Bool := decide (0x10 ≤ o) && decide (o ≤ 0x17)

/-! ## The fetch cache (R156, R196) -/

/-- Program lines of a cluster, and those held for class-0 programs. -/
def cacheLines : Nat := 3584
def cachePins : Nat := 1024

def lineOf (a : Nat) : Nat := a / 64 * 64

def Cluster.lookup (c : Cluster) (fn : Nat) (yard : Bool) (a : Nat) : Option Line :=
  c.lines.find? (fun l => decide (l.fn = fn) && decide (l.yard = yard) && decide (l.addr = a))

/-- Room for one more line: with the cache full, an unpinned line goes, which one is not stated (log 2). -/
def Cluster.evict (c : Cluster) (pick : Nat) : Cluster :=
  if c.lines.length < cacheLines then c
  else
    let free := c.lines.filter (fun l => !l.pinned)
    match free[pick % free.length]? with
    | some v => { c with lines := c.lines.filter (fun l => !(decide (l = v))) }
    | none => c

/-- Place a line that was read. -/
def State.putLine (s : State) (c : Nat) (l : Line) : State :=
  let k := s.cluster c
  let pin := l.pinned && decide (countP (fun l => l.pinned) k.lines < cachePins)
  let full := decide (cacheLines ≤ k.lines.length)
  let i := s.free
  let s := if full then { s with free := s.free + 1 } else s
  s.updCluster c (fun k =>
    let k := k.evict (Config.freeNat i)
    { k with lines := { l with pinned := pin } :: k.lines })

/-- Drop the lines that meet `p`, in every cluster. -/
def State.dropLines (s : State) (p : Line → Bool) : State :=
  { s with eng := { s.eng with clusters := s.eng.clusters.all (fun _ c => { c with lines := c.lines.filter (fun l => !p l) }) } }

/-- What a line read gives. -/
inductive FRes where
  | line (bs : List Byte) (s : State)
  | error (s : State)
  | absent          -- the outside has not supplied the line: the fetch has not happened

/-- The 64-byte line that holds the word at `t`, for the program on engine `e`: from the fetch cache, the Yard, or host memory. An
uncorrectable Yard word fails the fetch only where it lies in the word that the engine needs (R112, R485); a line that holds one is not
kept in the cache. -/
def State.fetchLine (s : State) (e : Nat) (p : Prog) (t : Nat) (host : List (Nat × Rd)) : FRes :=
  let c := e / engPerCluster
  let a := lineOf t
  match (s.cluster c).lookup p.fn p.yard a with
  | some l => .line l.bytes (s.updCluster c (fun k => { k with hits := wrapAdd 32 k.hits 1 }))
  | none =>
    let s := s.updCluster c (fun k => { k with misses := wrapAdd 32 k.misses 1 })
    let put := fun (bs : List Byte) => FRes.line bs
      (s.putLine c { fn := p.fn, yard := p.yard, addr := a, pinned := decide (p.cls = 0), bytes := bs })
    if p.yard then
      if s.yard.badIn t p.wordSize then .error (s.reportBad t p.wordSize)
      else if s.yard.badIn a 64 then .line (s.yard.read a 64) s
      else put (s.yard.read a 64)
    else match Tbl.find host a with
      | some (.data bs) => if bs.length = 64 then put bs else .error s
      | some .error => .error s
      | none => .absent

/-- What fetching a word or a whole data operation gives. -/
inductive OpRes where
  | words (op : List Ccw) (s : State)
  | error (i : Nat) (s : State)    -- word `i` could not be read
  | beyond (i : Nat) (s : State)   -- word `i` lies at or beyond the end of the Yard
  | absent

/-- Fetch words from `a` on: one, or while they carry SPN on an opcode that spans, at most 256 (R114). -/
def State.fetchOp (e : Nat) (p : Prog) (host : List (Nat × Rd)) : Nat → Nat → List Ccw → State → OpRes
  | 0, _, acc, s => .words acc s
  | fuel + 1, a, acc, s =>
    if p.yard && decide (yardSize ≤ a) then .beyond acc.length s
    else match s.fetchLine e p a host with
      | .absent => .absent
      | .error s => .error acc.length s
      | .line bs s =>
        let raw := (bs.drop (a % 64)).take p.wordSize
        let w := if p.v1 then v1Word (fld (p.getGp 0) 0 8) acc.isEmpty raw else ccwOf raw
        let s := if p.v1 then s.updCluster (e / engPerCluster) (fun k => { k with v1Words := wrapAdd 32 k.v1Words 1 }) else s
        let op := acc ++ [w]
        let spans := w.spn && spnOpc ((op.headD w).opc.toNat)
        if spans then State.fetchOp e p host fuel (a + p.wordSize) op s else .words op s

/-! ## CONTROL orders (Table 11.9) -/

/-- Port ids of Table 3.5. -/
def portListed (id : Nat) : Bool :=
  decide (id ≤ 3) || (decide (0x10 ≤ id) && decide (id ≤ 0x1F)) || (decide (0x20 ≤ id) && decide (id ≤ 0x27))
  || decide (id = 0x30) || decide (id = 0x31) || decide (id = 0x38) || decide (id = 0x39) || decide (id = 0x40)

/-- Whether port `id` defines order `k`. -/
def orderDefined (id k : Nat) : Bool :=
  if id ≤ 3 then decide (1 ≤ k) && decide (k ≤ 3)
  else if 0x20 ≤ id ∧ id ≤ 0x27 then decide (1 ≤ k) && decide (k ≤ 3)
  else if id = 0x40 then decide (0x10 ≤ k) && decide (k ≤ 0x12)
  else decide (k = 1)

/-- The port a PORT-space word names. -/
def Ccw.port (w : Ccw) : Nat := fld w.addr 56 8
def Ccw.portSub (w : Ccw) : Nat := fld w.addr 0 56

/-! ## Delivery (R113) -/

/-- A CONTROL word that no port defines: it ends its program, a flag misuse standing above the order (R108). -/
def controlBad (p : Prog) (w : Ccw) : Option Bad :=
  if decide (w.space.toNat = spPort) && orderDefined w.port w.sub.toNat then none
  else firstBad [badIf (p.overBounds 0 0) Ending.programFault 0, badIf (decide (w.space.toNat ≠ spPort)) Ending.programFault 0,
    flagChecks p w false false, some (.ends Ending.programFault 0)]

/-- Most notices of a class-0 program (R179). -/
def State.noticesMax (s : State) (p : Prog) : Nat := match s.sq p.sqid with | some q => q.noticesMax | none => 0

/-- A data operation (Table 3.11): its residual is its length from the moment it is reached (R126). -/
def dataOpc (o : Nat) : Bool := decide (0x10 ≤ o) && decide (o ≤ 0x18)

/-- An HDR word beyond the first word: its flag misuse stands above its position (Table 3.21). A jump back to the PROGRAM address finds
its HDR there no longer the first word to run (DESIGN CHOICE, log 86). -/
def hdrMisplaced (p : Prog) (w : Ccw) : Option Bad := firstBad [badIf (p.overBounds 0 0) Ending.programFault 0, flagChecks p w false false,
  some (Bad.ends Ending.programFault 0)]

/-- The operation in hand has been fetched: its notice is raised, BRK suspends, and it is ready to execute. A word that no
command carries out (a v1 word without a translation, HDR beyond the first word, a CONTROL order no port defines) ends its
program here (R74, R107, R108, R120, R175, R179). -/
def State.deliver (s : State) (e : Nat) : State :=
  match s.prog e with
  | none => s
  | some p =>
    match p.op with
    | [] => s
    | w :: _ =>
      let raise := w.nof && !p.noted
      if raise && decide (p.cls = 0) && decide (s.noticesMax p ≤ p.notices) then s.endAtWord e Ending.programFault 0
      else if raise && decide (4 ≤ s.notesHeld e p.cqid) then s.updProg e (fun p => { p with phase := .noteHold })
      else
        let s := if raise then
            (s.pushNotice e p 0).updProg e (fun p => { p with noted := true, notices := p.notices + 1 })
          else s
        if w.brk && !p.resumed && decide (2 ≤ p.cls) then s.suspendProg e .brk p.pc
        else
          let s := if dataOpc w.opc.toNat then s.updProg e (fun p => { p with residual := opLen p.op }) else s
          let bad := match p.op.findIdx? (fun v => v.bad) with
            | some i => some (Bad.ends Ending.programFault i)
            | none => if w.opc = 0x3F then hdrMisplaced p w else if w.opc = 0x40 then controlBad p w else none
          match bad with
          | some (.ends n i) => s.endAtWord e n i
          | _ => s.updProg e (fun p => { p with phase := .fetched, execAt := s.tick })

/-- A word whose effect is undefined before anything of it is checked (R69, R108): an unlisted opcode, a reserved SIGNAL or POST
kind, a CONTROL on a reserved port id, the reserved parts of an HDR (Table 3.17). -/
def wordUndef (w : Ccw) : Bool :=
  !w.bad && (!opcListed w.opc.toNat || (decide (w.opc = 0x05) && (decide (w.sub.toNat = 0) || decide (5 < w.sub.toNat)))
    || (decide (w.opc = 0x08) && decide (1 < w.sub.toNat))
    || (decide (w.opc = 0x40) && decide (w.space.toNat = spPort) && !portListed w.port)
    || (decide (w.opc = 0x3F) && (w.flags.getLsbD 7 || decide (w.rsv ≠ 0) || decide (2 < w.mode.toNat))))

/-- The program on engine `e`, while the engine runs at all: its cluster is neither gated nor waking (R155), and has no stop
or debug halt that it obeys at a handover point (R151). -/
def State.running (s : State) (e : Nat) : Option Prog :=
  let c := s.cluster (e / engPerCluster)
  if c.gated || c.waking.isSome then none
  else match s.prog e with
    | some p => if c.stop && p.atHandover then none else some p
    | none => none

/-- CCW_FETCH: the next word, or the whole data operation, of the program on engine `e` is fetched and delivered; a fetch
failure ends the program (R112 to R114). `host` supplies the 64-byte lines read from host memory. -/
def execCcwFetch (e : Nat) (host : List (Nat × Rd)) (s : State) : Answer :=
  match s.running e with
  | none => .next s
  | some p =>
    if p.phase ≠ .boundary then .next s
    else match State.fetchOp e p host 256 p.pc.toNat [] s with
      | .absent => .next s
      | .error i s =>
        .next ((s.updProg e (fun p => { p with op := [] })).endAtWord e (if p.yard then Ending.dataFault else Ending.linkFault) i)
      | .beyond i s =>
        .next (if i = 0 then s.endAtLast e Ending.programFault else s.endAtWord e Ending.programFault (i - 1))
      | .words op s =>
        if op.head?.any wordUndef then .fault .reservedWord
        else .next ((s.updProg e (fun p => { p with op := op, fetchedAt := s.tmr.time })).deliver e)

end Sys2Proof.Machine
end

