-- ==== Sys2Proof/Machine/Queues.lean ====
section
/-! DEFINITION. The Queue Engine (chapter 6): doorbells, fetching of submission entries, posting of completions, admin
replies and events, and the commands of the first group of the table that act on queues. -/
namespace Sys2Proof.Machine

/-! ## Who may act -/

/-- The function of a host MID that is not fenced; a fenced function's BAR accesses are dropped (R382). -/
def State.liveFn (s : State) (mid : Nat) : Option Nat :=
  match fnOf mid with
  | some fn => if s.fcs.fencedFns.contains fn then none else some fn
  | none => none

def State.fnLive (s : State) (fn : Nat) : Bool := !s.fcs.fencedFns.contains fn

/-- BAR0 block of the QE registers. -/
def qeBlock : Nat := blockOf 0x200000

/-- Modes in which the admin queues run (R353, R447). -/
def State.adminMode (s : State) : Bool :=
  s.inMode [.provision, .service, .degraded, .rebuild, .update, .diagnostic]

/-! ## Doorbells (R161 to R164, R167) -/

/-- An event sets error bit `bit` of submission queue `n`, of completion queue `m` or of a function's admin pair. -/
def State.sqSets (s : State) (n bit : Nat) : State := match s.sq n with | some q => s.sets (qeReg q.fn (0x20004 + 0x20 * n)) bit | none => s
def State.cqSets (s : State) (m bit : Nat) : State := match s.cq m with | some q => s.sets (qeReg q.fn (0x40004 + 0x20 * m)) bit | none => s
def State.aqSets (s : State) (fn bit : Nat) : State := s.sets (qeReg fn 4) bit

/-- A doorbell value of a submission queue is out of range. -/
def State.sqBeyond (s : State) (n v : Nat) : Bool := match s.sq n with | some q => decide (q.depth ≤ v) | none => false

/-- A tail doorbell of submission queue `n`, by the host or by a SIGNAL doorbell word (R162 to R164, R167). -/
def State.ringSq (s : State) (n v : Nat) : State :=
  (if s.sqBeyond n v then s.sqSets n 8 else s).updSq n (fun q =>
    if q.depth ≤ v then { q with dbErr := true }
    else { q with tail := v, stopped := false, bells := if v = q.tail then q.bells else q.bells ++ [(v, s.tick)] })

/-- The admin tail doorbell of a function. -/
def State.ringAq (s : State) (fn v : Nat) : State :=
  if (s.aq fn).sqDepth ≤ v then (s.updAq fn (fun a => { a with dbErr := true })).aqSets fn 8
  else s.updAq fn (fun a => { a with sqTail := v, stopped := false })

/-- Whether `v` lies in the circular range from head to tail, both included (R162). -/
def inRing (head tail depth v : Nat) : Bool :=
  decide (v < depth) && decide ((v + depth - head) % depth ≤ (tail + depth - head) % depth)

/-- SQ_TAIL_DOORBELL: a host write of a tail doorbell in BAR2; one that reaches no queue of the function is dropped
(R161, R162). -/
def execSqTailDoorbell (fn off : Nat) (v : W32) (s : State) : Answer :=
  let i := fld v 0 16
  occurs s (s.fnLive fn) (fun s =>
    if off = 0xF0000 then s.ringAq fn i
    else if off < 0x8000 ∧ off % 8 = 0 then
      match s.sq (off / 8) with
      | some q => if q.fn = fn then s.ringSq (off / 8) i else s
      | none => s
    else s)

/-- CQ_HEAD_DOORBELL: a host write of a head doorbell in BAR2; a head outside the range from head to tail is ignored
(R161, R162). -/
def execCqHeadDoorbell (fn off : Nat) (v : W32) (s : State) : Answer :=
  let i := fld v 0 16
  occurs s (s.fnLive fn) (fun s =>
    if off = 0xF0008 then
      let a := s.aq fn
      if inRing a.cqHead a.cqTail a.cqDepth i then s.updAq fn (fun a => { a with cqHead := i })
      else (s.updAq fn (fun a => { a with dbErr := true })).aqSets fn 8
    else if 0x80000 ≤ off ∧ off < 0x84000 ∧ off % 8 = 0 then
      match s.cq ((off - 0x80000) / 8) with
      | some q =>
        if q.fn ≠ fn then s
        else if inRing q.head q.tail q.depth i then
          s.updCq ((off - 0x80000) / 8) (fun q => { q with head := i, c0Full := q.c0Full && decide ((q.tail + 1) % q.depth = i) })
        else (s.updCq ((off - 0x80000) / 8) (fun q => { q with dbErr := true })).cqSets ((off - 0x80000) / 8) 8
      | none => s
    else s)

/-! ## Submission entries (R160, R197) -/

/-- An entry from its 64 bytes (Table 6.1). -/
def sqeOf (bs : List Byte) : Sqe :=
  let b2 := leAt bs 2 1
  { opc := leAt bs 0 2, cls := b2 % 4, nowait := b2.testBit 2, hold := b2.testBit 3, seed := b2.testBit 4,
    space := leAt bs 3 1, tag := BitVec.ofNat 32 (leAt bs 4 4), program := BitVec.ofNat 64 (leAt bs 8 8),
    deadline := BitVec.ofNat 64 (leAt bs 16 8),
    seeds := [BitVec.ofNat 64 (leAt bs 24 8), BitVec.ofNat 64 (leAt bs 32 8), BitVec.ofNat 64 (leAt bs 40 8), BitVec.ofNat 64 (leAt bs 48 8)],
    hint := leAt bs 62 1, own := (leAt bs 63 1).testBit 0,
    reserved := decide (32 ≤ b2) || decide (leAt bs 56 6 ≠ 0) || decide (2 ≤ leAt bs 63 1) }

def opcStart : Nat := 1
def opcResume : Nat := 2
def opcHalt : Nat := 3

/-- The second group of Table 6.11: an entry whose effect is undefined. A control entry's other fields are ignored
(R119). -/
def Sqe.undef (e : Sqe) : Bool :=
  if e.opc = opcStart then e.reserved || e.hold || e.seed || (decide (16 ≤ e.hint) && decide (e.hint < 255))
  else if e.opc = opcResume then e.hold
  else if e.opc = opcHalt then e.seed
  else true

/-! ## Fetching (R165 to R168) -/

/-- Entry `k` of the bytes of a block. -/
def entryOf (bs : List Byte) (k : Nat) : Option (List Byte) :=
  let e := (bs.drop (64 * k)).take 64
  if e.length = 64 then some e else none

/-- The copy of a block: its first slot and its entries; a read never goes beyond the end of the ring (R166). -/
def blockCopy (slot depth : Nat) (bs : List Byte) : Nat × List (Option (List Byte)) :=
  (slot / 4 * 4, (List.range 4).map (fun k => if slot / 4 * 4 + k < depth then entryOf bs k else none))

/-- Read slots of a submission ring: entry `i` lies at base + 64 × i (R157). -/
def State.readRing (s : State) (fn : Nat) (base : W64) (i n : Nat) : State :=
  s.drive (.hostRead fn (base + BitVec.ofNat 64 (64 * i)) (64 * n))

/-- Read the block that holds slot `i` of a ring of `depth` slots. -/
def State.readBlock (s : State) (fn : Nat) (base : W64) (i depth : Nat) : State :=
  s.readRing fn base (i / 4 * 4) (min 4 (depth - i / 4 * 4))

/-- Bits of AER's Uncorrectable Error Status: Poisoned TLP Received, Completion Timeout, Uncorrectable Internal Error (R322). -/
def aerPoisoned : Nat := 12
def aerTimeout : Nat := 14
def aerInternal : Nat := 22

/-- AER logs an error of a function (R322). -/
def State.logAer (s : State) (fn bit : Nat) : State :=
  s.updHfn fn (fun f => { f with aer := if f.aer.contains bit then f.aer else bit :: f.aer })

/-- A failed read of a submission slot is logged by AER; which PCIe error it met is outside (R167, log 88). -/
def State.readFailed (s : State) (fn : Nat) : State :=
  let (i, s) := s.takeFree
  s.logAer fn (if Config.freeNat i % 2 = 0 then aerTimeout else aerPoisoned)

/-- The held copy of slot `i`. -/
def copyAt (c : Option (Nat × List (Option (List Byte)))) (i : Nat) : Option (List Byte) :=
  match c with
  | some (b, l) => if b ≤ i then (l[i - b]?).join else none
  | none => none

/-- The copy without slot `i`. -/
def copyDrop (c : Option (Nat × List (Option (List Byte)))) (i : Nat) : Option (Nat × List (Option (List Byte))) :=
  match c with
  | some (b, l) =>
    let l := if b ≤ i then l.set (i - b) none else l
    if l.all (·.isNone) then none else some (b, l)
  | none => none

/-- A refusal or control reply of queue `n` is ready or held (R165, R176). -/
def State.qeHolds (s : State) (n : Nat) : Bool :=
  match (s.sq n).bind (fun q => s.cq q.cqid) with
  | some c => (c.ready ++ c.held).any (fun w => decide (w.src = .qe n))
  | none => false

/-- STARTs of the queue that wait for admission. -/
def Sq.starts (q : Sq) : Nat := countP (fun e => decide (e.sqe.opc = opcStart)) q.staged

/-- The mode lets the queue be fetched and admitted (R442), and neither the safe state nor the independent watchdog has
stopped submission (R384, R392). -/
def State.queueMode (s : State) (q : Sq) : Bool :=
  let cls := match q.crew.bind s.crew with | some k => k.cls | none => 0
  (s.inMode [.service, .degraded, .update] || (s.inMode [.diagnostic] && decide (2 ≤ cls)))
    && !s.fcs.safeState && !s.fcs.iwdgExpired

/-- The conditions of R165, with those of R320, R323, R382, R384, R392 and R442. -/
def State.mayFetch (s : State) (n : Nat) (q : Sq) : Bool :=
  q.en && (q.crew.bind s.crew).isSome && decide (q.starts < 4) && !s.qeHolds n && q.halted.isEmpty && s.queueMode q && s.fnLive q.fn
    && s.canIssue q.fn && !q.stopped

/-- Tick of the doorbell that covered slot `i`, and the doorbells not yet used up. -/
def bellsAt (i : Nat) (bells : List (Nat × Nat)) (now : Nat) : Nat × List (Nat × Nat) :=
  let l := bells.dropWhile (fun b => decide (b.1 = i))
  (match l with | b :: _ => b.2 | [] => now, l)

/-- Stage the entry of the head slot: it leaves the ring (R165, R166). -/
def State.stageSq (s : State) (n : Nat) (bs : List Byte) : Answer :=
  let e := sqeOf bs
  if e.undef then .fault .reservedEntry
  else
    let s' := s.updSq n (fun q =>
      let b := bellsAt q.head q.bells s.tick
      let st : Staged := { sqe := e, bell := b.1, hdr := none, waiting := false, no := s.qe.nextStage }
      let h := (q.head + 1) % q.depth
      { q with staged := q.staged ++ [st], bells := b.2, copy := copyDrop q.copy q.head, head := h,
               phase := if h = 0 then !q.phase else q.phase, ownWait := none })
    .next { s' with qe := { s'.qe with nextStage := s.qe.nextStage + 1 } }

/-- Stage a command packet in the Management Processor (R182, R350). -/
def State.stageAq (s : State) (fn : Nat) (bs : List Byte) : State :=
  let k : Packet := { fn := fn, mid := midOf fn, bytes := bs, tick := s.tick, no := s.qe.nextStage, started := false, committed := false,
                        begun := 0, resetting := false, inner := none, mute := false }
  let s := s.updAq fn (fun a =>
    let h := (a.sqHead + 1) % a.sqDepth
    { a with copy := copyDrop a.copy a.sqHead, sqHead := h, sqPhase := if h = 0 then !a.sqPhase else a.sqPhase, ownWait := none })
  { s with mgp := { s.mgp with staged := s.mgp.staged ++ [k] }, qe := { s.qe with nextStage := s.qe.nextStage + 1 } }

/-- Slots free in the admin completion ring. -/
def Aq.free (a : Aq) : Nat := if a.cqDepth = 0 then 0 else a.cqDepth - 1 - (a.cqTail + a.cqDepth - a.cqHead) % a.cqDepth

/-- Packets of a function that wait to be taken up (R165, R182). -/
def State.packetsWaiting (s : State) (fn : Nat) : Nat := countP (fun k => decide (k.fn = fn) && !k.started) s.mgp.staged

/-- Commands of a function fetched and not yet replied to. -/
def State.outstanding (s : State) (fn : Nat) : Nat := countP (fun k => decide (k.fn = fn)) s.mgp.staged

/-- The admin pair of a function may be fetched: fewer than four fetched packets wait (R165), and a free slot remains for a reply (R182). -/
def State.mayFetchAq (s : State) (fn : Nat) (a : Aq) : Bool :=
  a.en && a.rdy && s.adminMode && s.fnLive fn && s.canIssue fn && !a.stopped && !s.fcs.iwdgExpired
    && decide (s.packetsWaiting fn < 4) && decide (s.outstanding fn + a.replies.length + a.events.length < a.free)

/-- SQ_ENTRY_FETCH: the head slot is read, its OWN is checked and the entry is staged; on an empty queue with SPEC set the
block of the tail is read ahead (R165 to R168). -/
def execSqEntryFetch (q : QRef) (r : Rd) (s : State) : Answer :=
  match q with
  | .io n =>
    match s.sq n with
    | none => .next s
    | some x =>
      if !s.mayFetch n x || x.ownWait.isSome then .next s
      else if x.head = x.tail then
        if !x.spec || (copyAt x.copy x.tail).isSome then .next s
        else
          let s := s.readBlock x.fn x.base x.tail x.depth
          match r with
          | .data bs => .next (s.updSq n (fun x => { x with copy := some (blockCopy x.tail x.depth bs) }))
          | .error => .next (((s.updSq n (fun x => { x with rdErr := true })).sqSets n 10).readFailed x.fn)
      else
        let held := copyAt x.copy x.head
        let copy := if held.isSome then x.copy else match r with | .data bs => some (blockCopy x.head x.depth bs) | .error => x.copy
        let s := if held.isSome then s else s.readBlock x.fn x.base x.head x.depth
        match copyAt copy x.head with
        | none => .next (((s.updSq n (fun x => { x with rdErr := true, ownWait := some s.tick })).sqSets n 10).readFailed x.fn)
        | some e =>
          let s := s.updSq n (fun x => { x with copy := copy })
          if (sqeOf e).own = x.phase then s.stageSq n e
          else .next (s.updSq n (fun x => { x with copy := copyDrop x.copy x.head, ownWait := some s.tick }))
  | .adm fn =>
    let a := s.aq fn
    if !s.mayFetchAq fn a || a.ownWait.isSome || decide (a.sqHead = a.sqTail) then .next s
    else
      let held := copyAt a.copy a.sqHead
      let copy := if held.isSome then a.copy else match r with | .data bs => some (blockCopy a.sqHead a.sqDepth bs) | .error => a.copy
      let s := if held.isSome then s else s.readBlock fn a.sqBase a.sqHead a.sqDepth
      match copyAt copy a.sqHead with
      | none => .next (((s.updAq fn (fun a => { a with rdErr := true, ownWait := some s.tick })).aqSets fn 10).readFailed fn)
      | some e =>
        let s := s.updAq fn (fun a => { a with copy := copy })
        if (sqeOf e).own = a.sqPhase then .next (s.stageAq fn e)
        else .next (s.updAq fn (fun a => { a with copy := copyDrop a.copy a.sqHead, ownWait := some s.tick }))

/-- OWN_REREAD: the waiting slot is read again and taken once its OWN matches (R166, R167). `r` is the slot's 64 bytes. -/
def execOwnReread (q : QRef) (r : Rd) (s : State) : Answer :=
  match q with
  | .io n =>
    match s.sq n with
    | none => .next s
    | some x =>
      if !s.mayFetch n x || x.ownWait.isNone then .next s
      else
      let s := s.readRing x.fn x.base x.head 1
      match r with
      | .error => .next (((s.updSq n (fun x => { x with rdErr := true })).sqSets n 10).readFailed x.fn)
      | .data bs => if bs.length = 64 ∧ (sqeOf bs).own = x.phase then s.stageSq n bs else .next s
  | .adm fn =>
    let a := s.aq fn
    if !s.mayFetchAq fn a || a.ownWait.isNone then .next s
    else
      let s := s.readRing fn a.sqBase a.sqHead 1
      match r with
      | .error => .next (((s.updAq fn (fun a => { a with rdErr := true })).aqSets fn 10).readFailed fn)
      | .data bs => if bs.length = 64 ∧ (sqeOf bs).own = a.sqPhase then .next (s.stageAq fn bs) else .next s

/-- SQ_OWN_TIMEOUT: a slot's OWN has not matched for OWN_WAIT_US; fetching stops until the next doorbell (R166, R182). -/
def execSqOwnTimeout (q : QRef) (s : State) : Answer :=
  match q with
  | .io n =>
    match s.sq n with
    | none => .next s
    | some x =>
      occurs s (match x.ownWait with | some t => s.passedUs t (s.aq x.fn).ownWaitUs | none => false) (fun s =>
        ((s.updSq n (fun x => { x with ownErr := true, ownWait := none, stopped := true })).sqSets n 9).postEvent x.fn 0x0002 n
          (BitVec.ofNat 64 x.head))
  | .adm fn =>
    let a := s.aq fn
    occurs s (match a.ownWait with | some t => s.passedUs t a.ownWaitUs | none => false) (fun s =>
      ((s.updAq fn (fun a => { a with ownErr := true, ownWait := none, stopped := true })).aqSets fn 9).postEvent fn 0x0002 0xFFFF
        (BitVec.ofNat 64 a.sqHead))

/-! ## Halting and shutting (R119 to R124, R189, R190) -/

/-- Halt the program on engine `e` (R123): at once where it is suspended, waiting or between words, else at the next word
boundary. -/
def State.haltProg (s : State) (e : Nat) : State :=
  match s.prog e with
  | none => s
  | some p =>
    match p.phase with
    | .postwait => s
    | .wait _ => s.endAtWord e Ending.halted 0
    | .sync _ => s.endAtWord e Ending.halted 0
    | .charge => s.endAtWord e Ending.halted 0
    | .boundary => s.endAtLast e Ending.halted
    | .susp _ => s.endAtLast e Ending.halted
    | .noteHold => s.endAtLast e Ending.halted
    | .fetched => s.updProg e (fun p => { p with haltPend := true })
    | .mbxFull => s.updProg e (fun p => { p with haltPend := true })
    | .bar => s.updProg e (fun p => { p with haltPend := true })

/-- Every program of queue `n` that has started and not ended. -/
def State.progsOf (s : State) (n : Nat) : List Nat := s.engsWith (fun p => decide (p.sqid = n) && decide (p.phase ≠ .postwait))

/-- Answer the next of the fetched entries that a HALT_ALL named; the Queue Engine holds one such completion at a time (R176, R190). -/
def State.haltNext (s : State) (n : Nat) : State :=
  match s.sq n with
  | none => s
  | some q => match q.halted with
    | [] => s
    | e :: t => if s.qeHolds n then s
        else (s.updSq n (fun q => { q with halted := t })).pushQe n e.sqe.tag Ending.halted e.sqe.program

/-- HALT_ALL of queue `n` (R190). -/
def State.haltQueue (s : State) (n : Nat) : State :=
  let pids := (s.progsOf n).filterMap (fun e => (s.prog e).map (fun p => p.pid))
  let s := s.updSq n (fun q => { q with staged := [], halted := q.halted ++ q.staged, haltAll := pids })
  ((s.progsOf n).foldl State.haltProg s).haltNext n

/-- HALT_ALL of queue `n` reads 1: a program or an entry that it named is not done with (Table 6.15). -/
def State.halting (s : State) (n : Nat) (q : Sq) : Bool :=
  !q.halted.isEmpty || (s.progsOf n).any (fun e => match s.prog e with | some p => q.haltAll.contains p.pid | none => false)

/-- A write of QE_SQ_CTRLn by its own function (R189, R190). -/
def State.writeSqCtrl (s : State) (fn n : Nat) (v : W32) : State :=
  match s.sq n with
  | none => s
  | some q =>
    if q.fn ≠ fn then s
    else
      let s := s.updSq n (fun q => { q with en := v.getLsbD 0, spec := v.getLsbD 1 })
      if v.getLsbD 2 && !v.getLsbD 0 then s.haltQueue n else s

/-- SQ_ENABLE_WRITE: a write of QE_SQ_CTRLn stops or resumes fetching (R189). -/
def execSqEnableWrite (fn n : Nat) (v : W32) (s : State) : Answer :=
  occurs s (s.mayWrite (midOf fn) qeBlock) (fun s => s.writeSqCtrl fn n v)

/-- HALT_ALL: a write of QE_SQ_CTRLn with HALT_ALL set ends every program of the disabled queue (R190). -/
def execHaltAll (fn n : Nat) (v : W32) (s : State) : Answer :=
  occurs s (v.getLsbD 2 && s.mayWrite (midOf fn) qeBlock) (fun s => s.writeSqCtrl fn n v)

/-- AQ_ENABLE: a write of QE_AQ_CTRL sets the admin pair up, or stops it; its error bits are cleared by writing 1
(R181, Table 6.14). -/
def execAqEnable (fn : Nat) (v : W32) (s : State) : Answer :=
  occurs s (s.mayWrite (midOf fn) qeBlock) (fun s =>
    let v := s.clears (qeReg fn 4) v
    s.updAq fn (fun a =>
      let a := { a with dbErr := a.dbErr && !v.getLsbD 8, ownErr := a.ownErr && !v.getLsbD 9, rdErr := a.rdErr && !v.getLsbD 10 }
      if v.getLsbD 0 && !a.en then
        { a with en := true, rdy := true, sqHead := 0, sqTail := 0, sqPhase := true, cqHead := 0, cqTail := 0, cqPhase := true,
                 ownWait := none, stopped := false, copy := none }
      else if v.getLsbD 0 then a
      else { a with en := false, rdy := false, ownWait := none, copy := none }))

/-! ## Posting (R169 to R180) -/

/-- Completions and replies are posted in every mode but Off, Backup, Boot, Load, Quench and Hold (R18, R447). -/
def State.postMode (s : State) : Bool := s.adminMode

/-- The 32 bytes of a completion entry (Table 6.3). -/
def Cqe.bytes (c : Cqe) (phase : Bool) : List Byte :=
  leBytes 4 c.tag.toNat ++ leBytes 2 c.sqid.toNat ++ leBytes 2 c.status.toNat ++ leBytes 16 c.body.toNat
    ++ leBytes 7 c.time.toNat ++ leBytes 1 (bitN phase 0)

def Cq.full (q : Cq) : Bool := decide ((q.tail + 1) % q.depth = q.head)

/-- A completion queue serves class-0 submission queues (R179), or classes 2 and 3 only (R178). -/
def State.cqC0 (s : State) (m : Nat) : Bool := List.any s.qe.sqs (fun x => decide (x.2.cqid = m) && x.2.c0)
def State.cqLow (s : State) (m : Nat) : Bool :=
  List.all s.qe.sqs (fun x => decide (x.2.cqid ≠ m) || (!x.2.c0 && (match x.2.crew.bind s.crew with | some k => decide (2 ≤ k.cls) | none => true)))

/-- Records of the groups `gs` have had their completion posted (R63, entry type 0x03). -/
def State.markPosted (s : State) (gs : List Nat) : State :=
  if gs.isEmpty then s
  else
    let rec' := fun (r : Rec) => if gs.contains r.group then { r with posted := true } else r
    let st := fun (_ : Nat) (x : Stream) => { x with recs := x.recs.map rec' }
    { s with mm := { s.mm with streams := s.mm.streams.all st }
             lq := { s.lq with groups := s.lq.groups.map (fun g => if gs.contains g.id then { g with posted := true } else g) } }

/-- What follows the posting of a completion: a final one frees its engine, a notice may end the hold of R175, a reply of the Queue Engine
makes way for the next (R176). -/
def State.afterPost (s : State) (w : Waiting) : State :=
  match w.src with
  | .final e => (s.markPosted w.groups).freeEngine e
  | .fence _ => s.markPosted w.groups
  | .note e =>
    let s := s.raiseOwed e
    (match s.prog e with
    | some p => if p.phase = .noteHold then s.deliver e else s
    | none => s)
  | .qe n => s.haltNext n

/-- The message of a completion queue after a post (R173). -/
def State.cqMessage (s : State) (m : Nat) (q : Cq) : State :=
  if !q.ivEn then s
  else if s.cqC0 m || decide (q.icount ≤ 1) || decide (q.icount ≤ q.since + 1) then
    (s.updCq m (fun q => { q with since := 0, firstAt := none })).sendMsix q.fn q.vector
  else s.updCq m (fun q => { q with since := q.since + 1, firstAt := some (q.firstAt.getD s.tick) })

/-- A class-0 completion finds its ring full: no posting bound holds for the queue's completions until it has room (R180). -/
def State.c0RingFull (s : State) (m : Nat) (q : Cq) : State :=
  let void := fun (l : List Waiting) => l.map (fun w => { w with bell := none })
  (((s.updCq m (fun q => { q with c0Over := true, c0Full := true, ready := void q.ready, held := void q.held })).cqSets m 9).postEvent
    q.fn 0x0003 m s.tmr.time).report 0x21 0 kindFunction (midOf q.fn) 0

/-- Held class-0 completions find their ring full (R180). -/
def State.c0StillFull (s : State) (m : Nat) : State :=
  match s.cq m with
  | none => s
  | some q => if q.full && !q.held.isEmpty && !q.c0Full && s.cqC0 m then s.c0RingFull m q else s

/-- Write a completion into the tail slot of its ring, and advance the tail (R159, R171). -/
def State.postCqe (s : State) (m : Nat) (q : Cq) (w : Waiting) : State :=
  let s := s.drive (.hostWrite q.fn (q.base + BitVec.ofNat 64 (32 * q.tail)) (w.cqe.bytes q.phase))
  let t := (q.tail + 1) % q.depth
  let s := s.updCq m (fun q => { q with tail := t, phase := if t = 0 then !q.phase else q.phase })
  ((s.cqMessage m q).afterPost w).c0StillFull m

/-- A stall begins when a queue that serves classes 2 and 3 only is full while a completion waits for it (R178). -/
def State.checkStall (s : State) (m : Nat) : State :=
  match s.cq m with
  | none => s
  | some q =>
    if q.stall.isNone && q.full && !q.held.isEmpty && s.cqLow m then
      s.updCq m (fun q => { q with stall := some (s.tick, s.tmr.time) })
    else s

/-- Post the oldest ready completion of queue `m`, or hold it (R171, R174 to R176, R180). -/
def State.postReady (s : State) (m : Nat) (q : Cq) : State :=
  match q.ready with
  | [] => s
  | w :: t =>
    let s := s.updCq m (fun q => { q with ready := t })
    if q.held.isEmpty && !q.full && s.canIssue q.fn then s.postCqe m q w
    else
      let s := s.updCq m (fun q => { q with held := q.held ++ [w] })
      let s := if q.full && s.cqC0 m then s.c0RingFull m q else s
      s.checkStall m

/-- Write an admin completion to the tail slot of the admin ring, with its message on vector 0 (R181, R183). -/
def State.postAdm (s : State) (fn : Nat) (c : Cqe) : State :=
  let a := s.aq fn
  let s := s.drive (.hostWrite fn (a.cqBase + BitVec.ofNat 64 (32 * a.cqTail)) (c.bytes a.cqPhase))
  let t := (a.cqTail + 1) % a.cqDepth
  (s.updAq fn (fun a => { a with cqTail := t, cqPhase := if t = 0 then !a.cqPhase else a.cqPhase })).sendMsix fn 0

/-- The admin completion ring of `fn` can take an entry. A reply still outstanding when EN is cleared is posted (R191); an event waits
until the pair is set up (R185). -/
def State.admOpen (s : State) (fn : Nat) : Bool :=
  let a := s.aq fn
  decide (0 < a.free) && s.canIssue fn && s.postMode

/-- COMPLETION_POST: the completion that became ready first is posted, or held while its ring or link has no room; on an
admin queue the oldest reply is posted, behind the events that arose before its packet was fetched (R171 to R176, R180,
R183, R185). No reply is posted while the Management Processor stands still (R19, R351); with the reply to an INVALIDATE_PROGRAMS the cached lines of
the function become invalid (R196). -/
def execCompletionPost (q : QRef) (s : State) : Answer :=
  match q with
  | .io m =>
    match s.cq m with
    | none => .next s
    | some x => occurs s s.postMode (fun s => s.postReady m x)
  | .adm fn =>
    let a := s.aq fn
    match a.replies with
    | [] => .next s
    | r :: t =>
      let behind := a.rdy && (match a.events with | e :: _ => decide (e.no < r.1) | [] => false)
      occurs s (s.admOpen fn && s.mgp.running && !s.mgp.halted && !behind) (fun s =>
        let s := if a.invalidates.contains r.1 then s.dropLines (fun l => decide (l.fn = fn)) else s
        (s.updAq fn (fun a => { a with replies := t, invalidates := a.invalidates.erase r.1 })).postAdm fn r.2)

/-- Order of held completions: ascending TIME; on equal TIME those of the Queue Engine, then engines in ascending order
(R177). -/
def heldKey (w : Waiting) : Nat :=
  w.cqe.time.toNat * 4096 + (match w.src with | .qe _ => 0 | .fence _ => 0 | .final e => e + 1 | .note e => e + 1)

/-- HELD_COMPLETION_POST: room has appeared, and the held completion that comes first is posted; a stall ends (R177,
R178). Held class-0 completions may find the ring full (R180). -/
def execHeldCompletionPost (cq : Nat) (s : State) : Answer :=
  match s.cq cq with
  | none => .next s
  | some q =>
    match minBy heldKey q.held with
    | none => .next s
    | some w =>
      if q.full then .next (if s.canIssue q.fn && s.postMode then s.c0StillFull cq else s)
      else occurs s (s.canIssue q.fn && s.postMode) (fun s =>
        let s := s.updCq cq (fun q => { q with held := q.held.erase w, stall := none, stalled := false })
        (s.postCqe cq q w).checkStall cq)

/-- MSIX_COALESCE_TIMEOUT: ITIME_US have passed since the first completion not yet signalled (R173). -/
def execMsixCoalesceTimeout (cq : Nat) (s : State) : Answer :=
  match s.cq cq with
  | none => .next s
  | some q =>
    occurs s (q.ivEn && (match q.firstAt with | some t => s.passedUs t q.itimeUs | none => false)) (fun s =>
      (s.updCq cq (fun q => { q with since := 0, firstAt := none })).sendMsix q.fn q.vector)

/-- CQ_STALLED: a stall has lasted CQ_STALL_US (R178). -/
def execCqStalled (cq : Nat) (s : State) : Answer :=
  match s.cq cq with
  | none => .next s
  | some q =>
    match q.stall with
    | none => .next s
    | some t =>
      occurs s (!q.stalled && s.passedUs t.1 (s.aq q.fn).cqStallUs) (fun s =>
        (s.updCq cq (fun q => { q with stalled := true, stalls := satAdd 32 q.stalls 1 })).postEvent q.fn 0x0001 cq t.2)

/-- An event as an admin completion (Table 6.5). -/
def State.eventCqe (s : State) (e : AEvent) : Cqe :=
  { tag := 0xFFFFFFFF, sqid := 0xFFFF, status := Status.notice,
    body := BitVec.ofNat 128 (e.code + e.num * 2 ^ 16 + e.count * 2 ^ 32 + e.info.toNat * 2 ^ 64), time := s.time56 }

/-- ADMIN_EVENT_POST: the event that arose first is posted once the ring has room (R184, R185). -/
def execAdminEventPost (fn : Nat) (s : State) : Answer :=
  match (s.aq fn).events with
  | [] => .next s
  | e :: t =>
    occurs s (s.admOpen fn && (s.aq fn).rdy) (fun s => (s.updAq fn (fun a => { a with events := t })).postAdm fn (s.eventCqe e))

end Sys2Proof.Machine
end

