-- ==== Sys2Proof/Machine/Entries.lean ====
section
/-! DEFINITION. Control entries (R119 to R124): the commands HALT_ENTRY, HALT_HOLD_ENTRY and RESUME_ENTRY. -/
namespace Sys2Proof.Machine

/-- The first control entry among the staged entries of queue `n`, where it carries `opc` and `hold`; control entries act
when they are fetched and do not wait behind STARTs in admission (R119, R123, log 10), but for the reply of another that the Queue Engine
still holds (R176). -/
def State.controlEntry (s : State) (n opc : Nat) (hold : Bool) : Option Staged :=
  match s.sq n with
  | none => none
  | some q =>
    match q.staged.find? (fun e => decide (e.sqe.opc ≠ opcStart)) with
    | some e => if e.sqe.opc = opc && e.sqe.hold = hold && s.queueMode q && !s.qeHolds n then some e else none
    | none => none

/-- Live programs of queue `n` with the entry's TAG (R119, R124). -/
def State.targets (s : State) (n : Nat) (tag : W32) : List Nat :=
  s.engsWith (fun p => decide (p.sqid = n) && decide (p.tag = tag) && decide (p.phase ≠ .postwait))

/-- How a control entry is refused (Table 4.6). -/
def State.refuseEntry (s : State) (n : Nat) (tag : W32) (st : BitVec 16) : State := s.pushQe n tag ⟨st, 0, 0⟩ 0

/-- Carry a control entry out on its target: none or one program; with two the effect is undefined (R119). -/
def State.control (s : State) (n opc : Nat) (hold : Bool) (f : Nat → Prog → Staged → State → State) : Answer :=
  match s.controlEntry n opc hold with
  | none => .next s
  | some x =>
    let s := s.updSq n (fun q => { q with staged := q.staged.erase x })
    match s.targets n x.sqe.tag with
    | [] => .next (s.refuseEntry n x.sqe.tag Status.badParam)
    | [e] => (match s.prog e with
      | some p => .next (f e p x s)
      | none => .next s)
    | _ => .fault .sharedTag

/-- HALT_ENTRY: a HALT entry with HOLD = 0 ends its target, or is refused when a halt is already pending (R121, R123). -/
def execHaltEntry (sq : Nat) (s : State) : Answer :=
  s.control sq opcHalt false (fun e p x s =>
    if p.haltPend then s.refuseEntry sq x.sqe.tag Status.badParam else s.haltProg e)

/-- HALT_HOLD_ENTRY: a HALT entry with HOLD = 1 suspends a class-2 or class-3 target (R120, R121). -/
def execHaltHoldEntry (sq : Nat) (s : State) : Answer :=
  s.control sq opcHalt true (fun e p x s =>
    if p.cls ≤ 1 then s.refuseEntry sq x.sqe.tag Status.notPermitted
    else if p.haltPend || p.holdPend then s.refuseEntry sq x.sqe.tag Status.badParam
    else match p.phase with
      | .susp _ => s.refuseEntry sq x.sqe.tag Status.badParam
      | .fetched => s.updProg e (fun p => { p with holdPend := true })
      | .mbxFull => s.updProg e (fun p => { p with holdPend := true })
      | .bar => s.updProg e (fun p => { p with holdPend := true })
      | .noteHold => (s.updProg e (fun p => { p with op := [] })).suspendProg e .host p.pc
      | .postwait => s
      | .boundary => s.suspendProg e .host p.pc
      | .wait _ => s.suspendProg e .host p.pc
      | .sync _ => s.suspendProg e .host p.pc
      | .charge => s.suspendProg e .host p.pc)

/-- Load GP0 to GP3. -/
def Prog.seed (p : Prog) (l : List W64) : Prog :=
  (((p.setGp 0 (l.getD 0 0)).setGp 1 (l.getD 1 0)).setGp 2 (l.getD 2 0)).setGp 3 (l.getD 3 0)

/-- Continue a suspended program (Table 4.4). -/
def State.resumeProg (s : State) (e : Nat) (k : Susp) : State :=
  match k with
  | .brk => (s.updProg e (fun p => { p with phase := .boundary, resumed := true })).deliver e
  | .word true => s.updProg e (fun p => { p with phase := .boundary })
  | .word false => (s.updProg e (fun p => { p with phase := .boundary })).endNormal e false
  | .host => s.updProg e (fun p => { p with phase := if p.op.isEmpty then .boundary else .fetched, execAt := s.tick })

/-- RESUME_ENTRY: a RESUME entry continues a suspended target, with new seeds when SEED is 1 (R122). On an ISA v1 program SEED loads GP0 to
GP3 as on any other, and with GP0 the port (DESIGN CHOICE, log 89). -/
def execResumeEntry (sq : Nat) (s : State) : Answer :=
  s.control sq opcResume false (fun e p x s =>
    match p.phase with
    | .susp k =>
      let s := if x.sqe.seed then s.updProg e (fun p => p.seed x.sqe.seeds) else s
      s.resumeProg e k
    | _ => s.refuseEntry sq x.sqe.tag Status.badParam)

end Sys2Proof.Machine
end

