-- ==== Sys2Proof/Machine/Mailbox.lean ====
section
/-! DEFINITION. Mailbox channels (R419 to R429): sending, receiving, clearing, and the commands MBX_TX_COMMIT,
MBX_RX_READ, MBX_CHANNEL_CFG and MBX_RX_TIMEOUT. -/
namespace Sys2Proof.Machine

/-- Words a direction holds at most (R419). -/
def mbxDepth : Nat := 8

/-- End kinds (Table 15.1). -/
def kindHost : Nat := 0
def kindEngine : Nat := 1
def kindMgp : Nat := 2
def kindNode : Nat := 3

/-- Whether an end's MID fits its kind (Table 15.1). -/
def endFits (mid kind : Nat) : Bool :=
  if kind = kindHost || kind = kindEngine then isHostMid mid
  else if kind = kindMgp then decide (mid = 0x10) else decide (0x20 ≤ mid) && decide (mid < 0x30)

/-- The end of a channel: false end 0, true end 1. -/
def MChan.side (c : MChan) (i : Bool) : MEnd := if i then c.e1 else c.e0
def MChan.updSide (c : MChan) (i : Bool) (f : MEnd → MEnd) : MChan :=
  if i then { c with e1 := f c.e1 } else { c with e0 := f c.e0 }

/-- The direction an end sends into, and the one it receives from. -/
def MChan.outq (c : MChan) (i : Bool) : List MWord := if i then c.q10 else c.q01
def MChan.inq (c : MChan) (i : Bool) : List MWord := if i then c.q01 else c.q10
def MChan.setOut (c : MChan) (i : Bool) (q : List MWord) (t : Nat) : MChan :=
  if i then { c with q10 := q, at10 := t } else { c with q01 := q, at01 := t }
def MChan.outAt (c : MChan) (i : Bool) : Nat := if i then c.at10 else c.at01

/-- The end of a channel whose MID is `mid` and whose kind is `kind`, while the channel is enabled. -/
def MChan.endOf (c : MChan) (mid kind : Nat) : Option Bool :=
  if c.e0.mid = mid ∧ c.e0.kind = kind then some false
  else if c.e1.mid = mid ∧ c.e1.kind = kind then some true else none

/-- The end of a channel whose MID is `mid` (the window of Table 15.2). -/
def MChan.windowEnd (c : MChan) (mid : Nat) : Option Bool :=
  if c.e0.mid = mid then some false else if c.e1.mid = mid then some true else none

/-- One message of a host end for interrupt bit `b` of MBX_W_IRQ (R425). -/
def State.mbxIrq (s : State) (m : MEnd) (b : Nat) : State :=
  if m.kind = kindHost && m.irq.getLsbD b then
    (match fnOf m.mid with | some fn => s.sendMsix fn (fld m.irq 8 8) | none => s)
  else s

/-- Wake the home cluster of an internal end that a word reaches, or the Management Processor (R155, R426). -/
def State.mbxWake (s : State) (m : MEnd) : State :=
  if m.kind = kindEngine || m.kind = kindNode then
    (if (s.cluster m.cl).gated then s.updCluster m.cl (fun c => { c with wakeReq := true }) else s)
  else if m.kind = kindMgp then { s with mgp := { s.mgp with lowPower := false } }
  else s

/-- Remove the oldest word inbound to end `i` (R424), with the SPACE_EN message of the sender (R425). -/
def State.mbxTake (s : State) (ch : Nat) (i : Bool) : Option MWord × State :=
  let c := s.mchan ch
  match c.inq i with
  | [] => (none, s)
  | w :: t =>
    let s := s.updMchan ch (fun c => c.setOut (!i) t s.tick)
    (some w, if (c.inq i).length = mbxDepth then s.mbxIrq (c.side (!i)) 1 else s)

/-- Engine WAITs that the inbound words of end `i` can serve are served, oldest WAIT first (R116, R424). -/
def State.mbxServe (s : State) (ch : Nat) (i : Bool) : State :=
  let isMbx := fun (k : WaitKind) => match k with | .mbx c _ => decide (c = ch) | _ => false
  let mine := (s.waiters isMbx).filter (fun e => match s.prog e with
    | some p => decide (midOf p.fn = ((s.mchan ch).side i).mid) | none => false)
  match minBy s.waitStart mine with
  | none => s
  | some e =>
    match s.mbxTake ch i with
    | (none, s) => s
    | (some w, s) =>
      let reg := match (s.prog e).map (·.phase) with | some (.wait x) => (match x.kind with | .mbx _ r => r | _ => 0) | _ => 0
      (s.updProg e (fun p => p.setGp reg w.value)).finishWait e true

/-- Queue a word from end `i` of channel `ch`: it is stamped, raises the wake and the RX_EN message of the other end, and
is delivered to an engine that waits for it (R422, R423, R425, R426). -/
def State.mbxQueue (s : State) (ch : Nat) (i : Bool) (v : W64) : State :=
  let c := s.mchan ch
  let w : MWord := { value := v, mid := if c.compat then 0 else (c.side i).mid }
  let at_ := if (c.outq i).isEmpty then s.tick else c.outAt i
  let s := s.updMchan ch (fun c => c.setOut i (c.outq i ++ [w]) at_)
  let s := (s.mbxWake (c.side (!i))).mbxIrq (c.side (!i)) 0
  s.mbxServe ch (!i)

/-- Programs held by a full direction of end `i` go on, the longest-waiting first, while there is room (R86). -/
def State.mbxRoom (s : State) (ch : Nat) (i : Bool) : State :=
  let held := s.engsWith (fun p => match p.phase, p.op.head? with
    | .mbxFull, some w => decide (fld w.addr 0 8 = ch) && decide (midOf p.fn = ((s.mchan ch).side i).mid)
    | _, _ => false)
  match minBy (fun e => match s.prog e with | some p => p.execAt | none => 0) held with
  | none => s
  | some e =>
    if ((s.mchan ch).outq i).length < mbxDepth then
      match s.prog e with
      | none => s
      | some p =>
        let reg := match p.op.head? with | some w => fld w.addr 8 4 | none => 0
        (s.mbxQueue ch i (p.getGp reg)).completeWord e .next
    else s

/-- Give end `i` an ABORTED notice (R427): a host end's flags and message, or a notice that a SIGNAL or WAIT of an
engine end meets; a SIGNAL that waits for room ends at once. -/
def State.mbxAbort (s : State) (ch : Nat) (i timedOut : Bool) : State :=
  let m := (s.mchan ch).side i
  let s := s.updMchan ch (fun c => c.updSide i (fun m => { m with aborted := true, timedOut := m.timedOut || (timedOut && decide (m.kind = kindHost)) }))
  let s := (s.sets (windowReg m.mid (0x40 * ch + 0x14)) 10).setsIf timedOut (windowReg m.mid (0x40 * ch + 0x14)) 11
  let s := if m.aborted then s else s.mbxIrq m 2
  if m.kind = kindEngine then
    let held := s.engsWith (fun p => match p.phase, p.op.head? with
      | .mbxFull, some w => decide (fld w.addr 0 8 = ch) && decide (midOf p.fn = m.mid)
      | _, _ => false)
    match held with
    | [] => s
    | es => (es.foldl (fun s e => s.endAtWord e Ending.linkFault 0) s).updMchan ch
        (fun c => c.updSide i (fun m => { m with aborted := false }))
  else s

/-- Discard every word of both directions and record how many (R427). -/
def State.mbxClear (s : State) (ch : Nat) : State :=
  let c := s.mchan ch
  s.updMchan ch (fun d => { d with q01 := [], q10 := [], cleared := c.q01.length + c.q10.length })

/-- The reset of the receivers that meet `hit` clears their channels, and the other end is told (R427). -/
def State.mbxReset (s : State) (hit : MEnd → Bool) : State :=
  s.mbx.chans.foldl (fun s p =>
    let c := p.2
    if !c.en then s
    else
      let s := if hit c.e0 || hit c.e1 then s.mbxClear p.1 else s
      let s := if hit c.e0 then s.mbxAbort p.1 true false else s
      if hit c.e1 then s.mbxAbort p.1 false false else s) s

/-- Key of a held or latched half: per identity and channel. -/
def mbxKey (mid ch : Nat) : Nat := 256 * mid + ch

/-- A word from an identity other than the sending end's is dropped and counted; on a native channel, where the two stamp computations then
differ, class 0x26 is raised (R395, R422). -/
def State.mbxForeign (s : State) (mid ch : Nat) : State :=
  let s := s.updMchan ch (fun c => { c with drops := satAdd 32 c.drops 1 })
  if (s.mchan ch).compat then s else s.report 0x26 0 kindFunction mid 0

/-- MBX_TX_COMMIT: a host write to MBX_W_TX_HI commits a word, or drops it when the direction is full (R423) or when its stamps do not agree on
the sending end's identity (R395, R422). The function reaches only windows of channels that include its MID (R400, R422). -/
def execMbxTxCommit (mid ch : Nat) (hi : W32) (stampsAgree : Bool) (s : State) : Answer :=
  let c := s.mchan ch
  let fenced := match fnOf mid with | some fn => s.fcs.fencedFns.contains fn | none => true
  match c.windowEnd mid with
  | none => .next s
  | some i =>
    if fenced || !c.en || (c.side i).kind ≠ kindHost then .next s
    else if !stampsAgree then .next (s.mbxForeign mid ch)
    else if mbxDepth ≤ (c.outq i).length then
      .next ((s.updMchan ch (fun c => (c.updSide i (fun m => { m with overrun := true })).setOut i (c.outq i) (c.outAt i) |>
        fun c => { c with drops := satAdd 32 c.drops 1 })).sets (windowReg mid (0x40 * ch + 0x14)) 9)
    else
      .next (s.mbxQueue ch i (BitVec.ofNat 64 ((s.mbx.txLo.get (mbxKey mid ch) 0).toNat + hi.toNat * 2 ^ 32)))

/-- What a read of MBX_W_RX_LO that removes a word latches, and what it returns (R424). -/
def State.mbxLatch (s : State) (mid ch : Nat) (w : MWord) : State :=
  let k := mbxKey mid ch
  ({ s with mbx := { s.mbx with rxHi := s.mbx.rxHi.put k (BitVec.ofNat 32 (w.value.toNat / 2 ^ 32))
                                rxSrc := s.mbx.rxSrc.put k (BitVec.ofNat 32 (w.mid + 256)) } } : State).drive (.mailbox mid ch (w.value.truncate 32))

/-- What a read of MBX_W_RX_LO that finds no word does: of what is latched, VALID alone changes (R424). -/
def State.mbxEmpty (s : State) (mid ch : Nat) : State :=
  let k := mbxKey mid ch
  ({ s with mbx := { s.mbx with rxSrc := s.mbx.rxSrc.put k (s.mbx.rxSrc.get k 0 &&& ~~~ (256 : W32)) } } : State).drive (.mailbox mid ch 0)

/-- MBX_RX_READ: a host read of MBX_W_RX_LO removes the oldest inbound word and latches its high half and source; from an
empty direction it returns 0 and latches VALID = 0 (R424). -/
def execMbxRxRead (mid ch : Nat) (s : State) : Answer :=
  let c := s.mchan ch
  let fenced := match fnOf mid with | some fn => s.fcs.fencedFns.contains fn | none => true
  match c.windowEnd mid with
  | none => .next s
  | some i =>
    if fenced then .next s
    else
      if (c.side i).kind ≠ kindHost then .next (s.mbxEmpty mid ch)
      else match s.mbxTake ch i with
      | (none, s) => .next (s.mbxEmpty mid ch)
      | (some w, s) => .next ((s.mbxLatch mid ch w).mbxRoom ch (!i))

/-- The fields of MBX_CHn_CFG (Table 15.9), from both ends. -/
def MChan.config (c : MChan) (v : W32) : MChan :=
  { c with e0 := { MEnd.reset with mid := fld v 0 6, kind := fld v 6 2, cl := fld v 16 4 }
           e1 := { MEnd.reset with mid := fld v 8 6, kind := fld v 14 2, cl := fld v 20 4 } }

/-- A configuration write names the fields a channel already has. -/
def MChan.sameConfig (c : MChan) (v : W32) : Bool :=
  decide (c.e0.mid = fld v 0 6) && decide (c.e0.kind = fld v 6 2) && decide (c.e1.mid = fld v 8 6)
  && decide (c.e1.kind = fld v 14 2) && decide (c.e0.cl = fld v 16 4) && decide (c.e1.cl = fld v 20 4)

/-- MBX_CHANNEL_CFG: configures, opens or disables a native channel, or is ignored with CFG_ERR (R420). Setting EN opens
the channel with both directions empty; clearing EN clears it and notifies both ends (R427). While EN is 1 the other
fields keep their values. -/
def execMbxChannelCfg (mid ch : Nat) (v : W32) (s : State) : Answer :=
  occurs s (s.mayWrite mid (blockOf 0xD80000)) (fun s =>
    let c := s.mchan ch
    let bad := c.compat || (!c.en && (decide (fld v 0 6 = fld v 8 6) || !endFits (fld v 0 6) (fld v 6 2)
      || !endFits (fld v 8 6) (fld v 14 2) || (isHostMid mid && (decide (fld v 6 2 = kindNode) || decide (fld v 14 2 = kindNode)))))
    let en := v.getLsbD 31
    if bad then ({ s with mbx := { s.mbx with cfgErr := true } }).sets 0xD80004 1
    else if c.en then
      (if en then s
       else
        let s := s.mbxClear ch
        let s := (s.mbxAbort ch false false).mbxAbort ch true false
        s.updMchan ch (fun c => { c with en := false }))
    else s.updMchan ch (fun c =>
      let c := c.config v
      { c with en := en, q01 := [], q10 := [], at01 := s.tick, at10 := s.tick }))

/-- MBX_RX_TIMEOUT: a full direction whose oldest word has waited RX_TIMEOUT_MS is flushed, and its sender is told
(R428). `dir` false names the direction 0 → 1. -/
def execMbxRxTimeout (ch : Nat) (dir : Bool) (s : State) : Answer :=
  let c := s.mchan ch
  let ms := fld s.mbx.cfg 0 16
  occurs s (c.en && decide (ms ≠ 0) && decide ((c.outq dir).length = mbxDepth) && s.passedMs (c.outAt dir) ms) (fun s =>
    let s := s.updMchan ch (fun c => c.setOut dir [] s.tick |> fun c => { c with cleared := mbxDepth })
    s.mbxAbort ch dir true)

end Sys2Proof.Machine
end

