-- ==== Sys2Proof/Machine/Time.lean ====
section
/-! DEFINITION. Device time, the general timers and the capture channels (R430 to R439), the tick of the time base, and
the commands TMR_MATCH, TMR_CMP_COMMIT, TMR_INT_COMMIT, CAPTURE_EDGE, DISCIPLINE_SAMPLE and HOLDOVER_ENTRY. -/
namespace Sys2Proof.Machine

/-! ## The tick (R430, R431) -/

/-- Units of the rate accumulator in one nanosecond. -/
def ppbNs : Int := 1000000000

/-- Nanoseconds by which device time advances in one tick, with the new rate accumulator (R430). -/
def Tmr.advance (t : Tmr) : Nat × Int :=
  let acc := t.frac + 10 * t.ratePpb
  if ppbNs ≤ acc then (11, acc - ppbNs)
  else if acc ≤ -ppbNs then (9, acc + ppbNs)
  else (10, acc)

/-- BAR0 block of the TMR registers. -/
def tmrBlock : Nat := blockOf 0xC80000

/-- One step of device time by `d`, counted and posted with its signed change (R431, R439). -/
def State.stepTime (s : State) (d : W64) (why : Nat) : State :=
  let s := { s with tmr := { s.tmr with time := s.tmr.time + d, steps := satAdd 32 s.tmr.steps 1 } }
  s.postEventAll tmrBlock 0x0090 why d

/-- One TIME_SET, applied to the time the adjustment before it left (R431). -/
def State.applySet (s : State) (a : TimeAdj) : State :=
  match a with
  | .absolute t => s.stepTime (t - s.tmr.time) 1
  | .relative d => s.stepTime d 1

/-- The adjustments of a tick boundary: the discipline step first, then the TIME_SET commands in order (R431). -/
def State.adjustTime (s : State) : State :=
  let s := match s.tmr.discStep with
    | some d => s.stepTime d 2
    | none => s
  let s := s.tmr.sets.foldl State.applySet s
  { s with tmr := { s.tmr with discStep := none, sets := [] } }

/-- The backup RTC over 10 ns of XTAL32K (R293); its fraction is held in 10⁻⁹ counts. -/
def Psv.rtcTick (p : Psv) : Psv :=
  if p.xtalOk then
    let f := p.rtcFrac + 327680
    if 1000000000 ≤ f then { p with rtc := (p.rtc + 1) % 2 ^ 48, rtcFrac := f - 1000000000 } else { p with rtcFrac := f }
  else p

/-- The supplies of the device plane are present: CLK_TIME runs in every mode but Off and Backup. -/
def State.powered (s : State) : Bool := !s.inMode [.off, .backup]

/-- Weight of an hour at a temperature in 0.1 °C (Table 8.4). -/
def ageWeight (t : Int) : Nat := if t ≤ 400 then 1 else if t ≤ 550 then 2 else if t ≤ 700 then 4 else 8

/-- The junction temperature in 0.1 °C: the hottest on-die sensor, as telemetry shows it (DEDUCED, log 101). -/
def State.junction (s : State) : Int := (BitVec.ofNat 16 (Config.sensor 0 s.tick)).toInt

/-- A raise in progress blows its next fuse, 1 ms after the one before: the longest that R406 allows (DESIGN CHOICE, log 116). -/
def State.blowFuse (s : State) : State :=
  if s.otp.fuses < s.rollbackFloor ∧ s.passedMs s.tru.fuseAt 1 then
    { s with otp := { s.otp with fuses := s.otp.fuses + 1 }, tru := { s.tru with fuseAt := s.tick } }
  else s

/-- One CLK_TIME tick: device time, the retention clock and the backup RTC advance, then the adjustments of the tick
boundary apply (R52, R250, R293, R406, R430, R431). -/
def State.clockTick (s : State) : State :=
  let s := { s with tick := s.tick + 1, psv := s.psv.rtcTick, top := { s.top with hot := [] }, fcs := { s.fcs with fresh := none } }
  if s.powered then
    let a := s.tmr.advance
    let s := { s with tmr := { s.tmr with time := s.tmr.time + BitVec.ofNat 64 a.1, frac := a.2 }
                      mm := { s.mm with retClock := s.mm.retClock + 10, heat := s.mm.heat + 10 * ageWeight (s.junction - 10 * s.mm.retTOffset) } }
    s.adjustTime.blowFuse
  else s

/-! ## Timers (R433 to R437) -/

/-- A timer is frozen while the debugger halts the Management Processor and DBG_RUN is 0 (R436). -/
def State.tmrFrozen (s : State) (t : Nat) : Bool := s.mgp.halted && !(s.timer t).ctrl.getLsbD 2

/-- Whether the compare value has been reached: the signed difference is not negative (R433). -/
def reached (time cmp : W64) : Bool := !(time - cmp).msb

/-- The timer matches in this tick. -/
def State.tmrDue (s : State) (t : Nat) : Bool :=
  let x := s.timer t
  x.ctrl.getLsbD 0 && x.armed && !s.tmrFrozen t && decide (x.matchTick ≠ some s.tick) && reached s.tmr.time x.cmp

/-- The smallest number of intervals that puts a compare value ahead of `time` (R434). -/
def skipCount (time cmp int : W64) : Nat := (time - cmp).toNat / int.toNat + 1

/-- A timer's own registers at a match (R433, R434). -/
def Timer.matched (x : Timer) (time : W64) (tick : Nat) : Timer :=
  let missed := if x.behind then satAdd 16 x.missed 1 else x.missed
  let x := { x with mtch := true, matchTick := some tick, missed := missed, behind := false }
  if x.int = 0 then { x with armed := false }
  else
    let c := x.cmp + x.int
    if !reached time c then { x with cmp := c }
    else if x.ctrl.getLsbD 1 then
      let k := skipCount time c x.int
      { x with cmp := c + BitVec.ofNat 64 k * x.int, missed := satAdd 16 x.missed k, late := true }
    else { x with cmp := c, behind := true }

/-- A match has skipped intervals: the compare value went on by more than one. -/
def Timer.skips (y x : Timer) : Bool := y.late && decide (y.cmp ≠ x.cmp + x.int)

/-- A timer matches: it completes the WAITs on it that began before the tick, and sends its message (R433). -/
def State.tmrFire (s : State) (t : Nat) : State :=
  let x := s.timer t
  let y := x.matched s.tmr.time s.tick
  let s := ((s.updTimer t (fun _ => y)).sets (0xC81004 + 0x20 * t) 8).setsIf (y.skips x) (0xC81004 + 0x20 * t) 9
  let ws := (s.waiters (fun k => decide (k = .timer t))).filter (fun e => decide (s.waitStart e < s.tick))
  let s := ws.foldl (fun s e => s.finishWait e true) s
  if x.ctrl.getLsbD 3 then s.sendMsix (fld x.ctrl 16 3) (fld x.ctrl 8 8) else s

/-- TMR_MATCH: an enabled and armed timer reaches its compare value (R433, R434). -/
def execTmrMatch (t : Nat) (s : State) : Answer := occurs s (s.tmrDue t) (fun s => s.tmrFire t)

/-- Key of a held or latched half: per identity and register offset (R459, R460). -/
def halfKey (mid off : Nat) : Nat := mid * 2 ^ 32 + off

/-- The low half that a commit at `off` by `mid` uses: the one it has written since its last commit, else the register's own (R460). -/
def State.held (s : State) (mid off : Nat) (cur : W64) : W32 := s.top.loHold.get (halfKey mid off) (cur.truncate 32)

/-- A commit uses up the held half (R460). -/
def State.commitHeld (s : State) (mid off : Nat) : State := { s with top := { s.top with loHold := s.top.loHold.del (halfKey mid off) } }

/-- A 64-bit value from its halves. -/
def pair (lo hi : W32) : W64 := BitVec.ofNat 64 (lo.toNat + hi.toNat * 2 ^ 32)

/-- Offset of a timer's record. -/
def tmrRec (t : Nat) : Nat := 0xC81000 + 0x20 * t

/-- TMR_CMP_COMMIT: a write to TMR_CMP_HIt commits the compare value, arms the timer and clears MISSED; a match that
falls in the same tick is taken first, against the old value (R435). -/
def execTmrCmpCommit (mid t : Nat) (hi : W32) (s : State) : Answer :=
  occurs s (s.mayWrite mid tmrBlock) (fun s =>
    let v := pair (s.held mid (tmrRec t + 8) (s.timer t).cmp) hi
    let s := if s.tmrDue t then s.tmrFire t else s
    (s.commitHeld mid (tmrRec t + 8)).updTimer t (fun x => { x with cmp := v, armed := true, missed := 0, behind := false, matchTick := some s.tick }))

/-- TMR_INT_COMMIT: a write to TMR_INT_HIt commits the interval, which takes effect at the next addition (R435). -/
def execTmrIntCommit (mid t : Nat) (hi : W32) (s : State) : Answer :=
  occurs s (s.mayWrite mid tmrBlock) (fun s =>
    let v := pair (s.held mid (tmrRec t + 0x10) (s.timer t).int) hi
    let s := if s.tmrDue t then s.tmrFire t else s
    (s.commitHeld mid (tmrRec t + 0x10)).updTimer t (fun x => { x with int := v }))

/-- The end of a debug halt adds its length to the compare value of every frozen timer (R436). -/
def State.tmrUnfreeze (s : State) (ns : Nat) : State :=
  (List.range 64).foldl (fun s t =>
    if (s.timer t).ctrl.getLsbD 2 then s
    else s.updTimer t (fun x => { x with cmp := x.cmp + BitVec.ofNat 64 ns })) s

/-! ## Captures (R438) -/

def State.capture (s : State) (k : Nat) : Capture := s.tmr.caps.get k Capture.reset

def State.updCapture (s : State) (k : Nat) (f : Capture → Capture) : State :=
  { s with tmr := { s.tmr with caps := s.tmr.caps.mod k Capture.reset f } }

/-- CAPTURE_EDGE: an edge of an enabled channel's source copies device time, at most once per tick; a further edge of
the tick is lost (R345, R438). -/
def execCaptureEdge (k : Nat) (s : State) : Answer :=
  let c := s.capture k
  occurs s (c.ctrl.getLsbD 0) (fun s =>
    if c.lastTick = some s.tick then
      ({ s with tmr := { s.tmr with capLost := s.tmr.capLost ||| BitVec.ofNat 32 (2 ^ (k % 16)) } }).sets 0xC80028 (k % 16)
    else
      let s := s.updCapture k (fun c => { c with value := s.tmr.time, seq := wrapAdd 16 c.seq 1, lastTick := some s.tick })
      if c.ctrl.getLsbD 1 then s.sendMsix (fld c.ctrl 16 3) (fld c.ctrl 8 8) else s)

/-! ## Discipline (R432) -/

/-- The discipline state as TMR_DISC_STATUS.STATE shows it. -/
def discFree : Nat := 0
def discAcquiring : Nat := 1
def discLocked : Nat := 2
def discHoldover : Nat := 3

/-- Enter a discipline state, posting DISC_CHANGE where it changes (R439). -/
def State.setDisc (s : State) (st : Nat) : State :=
  if s.tmr.disc = st then s
  else
    let num := if s.tmr.discSrc = 2 then 0xFFFF else s.tmr.discPort
    ({ s with tmr := { s.tmr with disc := st } }).postEventAll tmrBlock 0x0091 num (BitVec.ofNat 64 st)

/-- The rate correction that removes an offset within 1 s, within ±200 ppm (R430, R432). -/
def rateFor (off : Int) : Int := max (-200000) (min 200000 off)

/-- The PPS_IN sample: the captured device time minus 15 ns, measured from the nearest whole second; the offset is what
device time must gain (R432, log 8). -/
def ppsOffset (time : W64) : Int :=
  let r := (time.toNat - 15) % 1000000000
  if r ≤ 500000000 then - (r : Int) else 1000000000 - (r : Int)

/-- Act on a measured offset (R432). -/
def State.discSample (s : State) (off : Int) : State :=
  let lockNs := fld s.tmr.discCfg 0 16
  let stepNs := fld s.tmr.discCfg 16 16 * usNs
  let n := if off.natAbs ≤ lockNs then s.tmr.inLock + 1 else 0
  let s := { s with tmr := { s.tmr with offset := BitVec.ofInt 64 off, sampleTick := s.tick, inLock := min n 16 } }
  let s := if stepNs < off.natAbs then { s with tmr := { s.tmr with discStep := some (BitVec.ofInt 64 off) } }
    else { s with tmr := { s.tmr with ratePpb := rateFor off } }
  let stays := decide (s.tmr.disc = discLocked) && decide (off.natAbs ≤ 4 * lockNs)
  s.setDisc (if stays || decide (16 ≤ n) then discLocked else discAcquiring)

/-- The Field Port is enabled and in the slave state (R329). -/
def gptpSlave : Nat := 1

/-- DISCIPLINE_SAMPLE: a Sync on the slave port (its measured offset supplied), or a rising edge of PPS_IN, of the
source in force gives one offset sample (R432). -/
def execDisciplineSample (src port : Nat) (offset : W64) (s : State) : Answer :=
  let ok := decide (s.tmr.discSrc = src) &&
    ((decide (src = 1) && decide (s.tmr.discPort = port) && (s.fport port).cfg.getLsbD 2
        && decide ((s.fport port).gptp = gptpSlave))
      || decide (src = 2))
  occurs s ok (fun s => s.discSample (if src = 2 then ppsOffset s.tmr.time else offset.toInt))

/-- HOLDOVER_ENTRY: no sample for 3 s; the last rate is kept (R432). -/
def execHoldoverEntry (s : State) : Answer :=
  let on := decide (s.tmr.disc = discAcquiring) || decide (s.tmr.disc = discLocked)
  occurs s (on && s.passedMs s.tmr.sampleTick 3000) (fun s =>
    ({ s with tmr := { s.tmr with inLock := 0 } }).setDisc discHoldover)

end Sys2Proof.Machine
end

