-- ==== Sys2Proof/Machine/Control.lean ====
section
/-! DEFINITION. Control words (Table 3.7): NOP, TIC, LOOP, BRANCH, CALL, RETURN, WAIT and its endings, SIGNAL, SUSPEND,
HALT, POST. -/
namespace Sys2Proof.Machine

/-! ## Carrying out a delivered word -/

/-- Run `f` on the delivered word of engine `e` when it meets `m`; otherwise this word is not there to execute. A word that BAR holds is
there again once its acknowledgement has come (R75). -/
def State.atWord (s : State) (e : Nat) (m : Ccw → Bool) (f : Prog → Ccw → State → Answer) : Answer :=
  match s.running e with
  | none => .next s
  | some p =>
    if p.phase ≠ .fetched ∧ p.phase ≠ .bar then .next s
    else match p.op with
      | [] => .next s
      | w :: _ => if m w then f p w s else .next s

/-- The word in hand is held until the program's earlier writes are acknowledged: a HOST write is still on its way (R75, log 76). Writes
to the Yard, a local store, the Cell Pool and the Landing are acknowledged as they are made. -/
def Prog.barred (p : Prog) (bar : Bool) : Bool := (bar || p.op.head?.any Ccw.bar) && p.unacked

/-- The word's effect, after its checks: held by BAR it drives the zero-length read that follows the writes (R75, R305), and its command
comes again when that read has completed. A port whose link is lost meanwhile ends it (R323). -/
def State.afterBar (s : State) (e : Nat) (bar : Bool) (f : State → State) : State :=
  match s.prog e with
  | none => s
  | some p =>
    if p.phase = .bar then
      if s.canIssue p.fn then f (s.updProg e (fun p => { p with phase := .fetched, unacked := false })) else s.endAtWord e Ending.linkFault 0
    else if p.barred bar then ((s.ack e).updProg e (fun p => { p with phase := .bar })).drive (.hostFlush p.fn)
    else f s

/-- Act on the result of the checks: an undefined effect, an ending, or the word's effect. `bar` says that the word waits for earlier
writes whatever its BAR. The checks of a word that BAR held have passed (R113). -/
def State.checkedBar (s : State) (e : Nat) (b : Option Bad) (bar : Bool) (f : State → State) : Answer :=
  match (if (s.prog e).any (fun p => decide (p.phase = .bar)) then none else b) with
  | some .undef => .fault .reservedWord
  | some (.ends n i) => .next (s.endAtWord e n i)
  | none => .next (s.afterBar e bar f)

def State.checked (s : State) (e : Nat) (b : Option Bad) (f : State → State) : Answer := s.checkedBar e b false f

/-- A word whose fields other than OPC and FLAGS the table gives as 0, but for those that `free` lets through. The tables show 0 there and
state no outcome for another value: the word counts as one with a reserved part that is not 0 (DESIGN CHOICE, log 87). -/
def Ccw.plain (w : Ccw) (modeFree subFree countFree addrFree : Bool) : Bool :=
  (modeFree || decide (w.mode = 0)) && (subFree || decide (w.sub = 0)) && (countFree || decide (w.count = 0))
    && (addrFree || decide (w.addr = 0))

/-- The checks of a control or register word (R104, Table 3.21): reserved parts, bounds, its SPACE, GPREF, `range` (row 4, and what row 5
ends with PROGRAM_FAULT), flags, then `rows`. -/
def ctlChecks (p : Prog) (w : Ccw) (spaceOk undef range : Bool) (rows : List (Option Bad)) : Option Bad :=
  firstBad ([undefIf (w.reservedBits || undef), badIf (p.overBounds 0 0) Ending.programFault 0,
    badIf (!spaceOk) Ending.programFault 0, badIf (gprefBad w) Ending.programFault 0, badIf range Ending.programFault 0,
    flagChecks p w false false] ++ rows)

/-- The checks of a control or register word that has no operand. -/
def zeroChecks (p : Prog) (w : Ccw) (range : Bool) : Option Bad :=
  ctlChecks p w (decide (w.space = 0)) (!w.plain false false false false) range []

/-- The cluster's microcode minor is below what the word needs (R105). -/
def State.minorBelow (s : State) (e need : Nat) : Option Bad :=
  badIf (decide ((s.cluster (e / engPerCluster)).minor < need)) Ending.versionMismatch 0

/-! ## Chaining (R70, R82 to R84) -/

/-- SPACE of a chaining word: the program space or GPREF (Table 3.7). Another program space is a target in another space,
which R82 decides where the word continues there. -/
def chainSpace (w : Ccw) : Bool :=
  decide (w.space.toNat = spHost) || decide (w.space.toNat = spYard) || decide (w.space.toNat = spGpref)

/-- The fields of a chaining word that must be 0: with GPREF, MODE names a register and the effective MODE takes its place
(R78). -/
def chainPlain (w : Ccw) (subFree : Bool) : Bool :=
  if w.space.toNat = spGpref then w.plain true subFree false true && decide (fld w.addr 4 4 = 0)
  else w.plain false subFree false true

def Prog.space (p : Prog) : Nat := if p.yard then spYard else spHost

/-- The target of a chaining word, where it may be continued at (R82). -/
def Prog.target (p : Prog) (w : Ccw) : Option W64 :=
  let t := p.eff w
  if t.space ≠ p.space || decide (t.addr.toNat % p.wordSize ≠ 0) || (p.yard && decide (yardSize ≤ t.addr.toNat)) then none
  else some t.addr

/-- Continue at the target, or end with CHAIN_FAULT. -/
def State.chainTo (s : State) (e : Nat) (t : Option W64) : State :=
  match t with
  | some t => s.completeWord e (.jump t)
  | none => s.endAtWord e Ending.chainFault 0

/-- NOP: no operation; its flags act. -/
def execNop (e : Nat) (s : State) : Answer :=
  s.atWord e (fun w => decide (w.opc = 0)) (fun p w s =>
    s.checked e (zeroChecks p w false) (fun s => s.completeWord e .next))

/-- TIC: continue at the target, whose word must not be a TIC (R70, R82). `target` supplies the target's 64-byte line when
it is read from host memory. -/
def execTic (e : Nat) (target : Rd) (s : State) : Answer :=
  s.atWord e (fun w => decide (w.opc = 1)) (fun p w s =>
    s.checked e (ctlChecks p w (chainSpace w) (!chainPlain w false) false []) (fun s =>
      match p.target w with
      | none => s.endAtWord e Ending.chainFault 0
      | some t =>
        match s.fetchLine e p t.toNat [(lineOf t.toNat, target)] with
        | .absent => s
        | .error s => (s.completeWord e (.jump t)).endProg e (if p.yard then Ending.dataFault else Ending.linkFault) t
        | .line bs s =>
          let opc := leAt (bs.drop (t.toNat % 64)) 0 1
          if opc = (if p.v1 then 8 else 1) then s.endAtWord e Ending.chainFault 0 else s.completeWord e (.jump t)))

/-- LOOP: decrement GPn and continue at the target unless it was 0 or becomes 0 (R83). -/
def execLoop (e : Nat) (s : State) : Answer :=
  s.atWord e (fun w => decide (w.opc = 2)) (fun p w s =>
    s.checked e (ctlChecks p w (chainSpace w) (!chainPlain w true || decide (15 < w.sub.toNat)) false []) (fun s =>
      let v := p.getGp w.sub.toNat
      if v = 0 then s.completeWord e .next
      else
        let s := s.updProg e (fun p => p.setGp w.sub.toNat (v - 1))
        if v - 1 = 0 then s.completeWord e .next else s.chainTo e (p.target w)))

/-- Whether a BRANCH condition holds (Table 3.8). -/
def Prog.cond (p : Prog) (k : Nat) : Bool :=
  match k with
  | 0 => true
  | 1 => p.z | 2 => !p.z
  | 3 => p.n | 4 => !p.n
  | 5 => p.c | 6 => !p.c
  | 7 => p.s | _ => !p.s

/-- BRANCH: continue at the target when the condition holds (R70, Table 3.8). -/
def execBranch (e : Nat) (s : State) : Answer :=
  s.atWord e (fun w => decide (w.opc = 3)) (fun p w s =>
    s.checked e (ctlChecks p w (chainSpace w) (!chainPlain w true || decide (8 < w.sub.toNat)) false []) (fun s =>
      if p.cond w.sub.toNat then s.chainTo e (p.target w) else s.completeWord e .next))

/-- CALL: push the address of the next word and continue at the target; at most four are held (R84). -/
def execCall (e : Nat) (s : State) : Answer :=
  s.atWord e (fun w => decide (w.opc = 9)) (fun p w s =>
    s.checked e (ctlChecks p w (chainSpace w) (!chainPlain w false) false []) (fun s =>
      if 4 ≤ p.stack.length then s.endAtWord e Ending.chainFault 0
      else match p.target w with
        | none => s.endAtWord e Ending.chainFault 0
        | some t => (s.updProg e (fun p => { p with stack := p.opAddr 1 :: p.stack })).completeWord e (.jump t)))

/-- RETURN: pop and continue at the popped address (R84). -/
def execRet (e : Nat) (s : State) : Answer :=
  s.atWord e (fun w => decide (w.opc = 0x0A)) (fun p w s =>
    s.checked e (zeroChecks p w false) (fun s =>
      match p.stack with
      | [] => s.endAtWord e Ending.chainFault 0
      | t :: rest => (s.updProg e (fun p => { p with stack := rest })).completeWord e (.jump t)))

/-! ## WAIT (R85, R116, R148, R437) -/

/-- Reserved bits of a WAIT operand, and reserved sources (Table 3.9). -/
def waitUndef (w : Ccw) : Bool :=
  let hi := fun (n : Nat) => decide (w.addr.toNat / 2 ^ n ≠ 0)
  match w.sub.toNat with
  | 1 => hi 6
  | 2 => hi 4
  | 3 => hi 12
  | 4 => hi 12
  | 5 => hi 8
  | 6 => false
  | 7 => hi 32
  | _ => true

/-- The end of channel `ch` that belongs to the engines of `mid`. -/
def State.engineEnd (s : State) (ch mid : Nat) : Option Bool :=
  let c := s.mchan ch
  if c.en || c.compat then c.endOf mid kindEngine else none

/-- Access checks of a WAIT: the timer's owner, the mailbox pair, the Cell Pool right, the barrier's owner and its enable
(R81, R148, R437, Table 3.6). -/
def State.waitAccess (s : State) (p : Prog) (w : Ccw) : Option Bad :=
  let a := w.addr.toNat
  match w.sub.toNat with
  | 1 =>
    let o := fld (s.timer (a % 64)).ctrl 24 6
    badIf (decide (o ≠ p.mid) && decide (o ≠ 0x3F)) Ending.protectionFault 0
  | 3 => badIf (s.engineEnd (a % 256) p.mid).isNone Ending.protectionFault 0
  | 4 => badIf (!s.holds p.mid 7 (a % 4096) 0 && !s.holds p.mid 7 (a % 4096) 1) Ending.protectionFault 0
  | 5 => firstBad [badIf (decide ((s.bar (a % 256)).owner ≠ p.mid)) Ending.protectionFault 0,
      badIf (!(s.bar (a % 256)).enable) Ending.programFault 0]
  | _ => none

/-- Begin to wait (R85). -/
def State.startWait (s : State) (e : Nat) (w : Ccw) (k : WaitKind) : State :=
  (s.ack e).updProg e (fun p => { p with phase := .wait { kind := k, startTick := s.tick, limitUs := w.count.toNat, onExpiry := w.mode.getLsbD 0 } })

/-- A pending request on an unbound line is consumed (R303, Table 3.9). -/
def State.takeDreq (s : State) (n : Nat) : Option State :=
  let d := s.dreq n
  if d.pending = 0 || d.cfg.getLsbD 0 then none
  else some (s.updDreq n (fun d => { d with pending := d.pending - 1 }))

/-- Begin a WAIT: an event that is already there completes it, save a timer match and a device time, which come later
(R85, R116, R148, R424). -/
def State.beginWait (s : State) (e : Nat) (p : Prog) (w : Ccw) : State :=
  let a := w.addr.toNat
  match w.sub.toNat with
  | 1 => s.startWait e w (.timer (a % 64))
  | 2 => (match s.takeDreq (a % 16) with
    | some s => s.finishWait e true
    | none => s.startWait e w (.dreq (a % 16)))
  | 3 =>
    let ch := a % 256
    let reg := a / 256 % 16
    match s.engineEnd ch p.mid with
    | none => s
    | some i =>
      if ((s.mchan ch).side i).aborted then
        (s.updMchan ch (fun c => c.updSide i (fun m => { m with aborted := false }))).endAtWord e Ending.linkFault 0
      else match s.mbxTake ch i with
        | (some v, s) => ((s.updProg e (fun p => p.setGp reg v.value)).finishWait e true).mbxRoom ch (!i)
        | (none, s) => s.startWait e w (.mbx ch reg)
  | 4 => if (s.cpq (a % 4096)).words.isEmpty then s.startWait e w (.cellq (a % 4096)) else s.finishWait e true
  | 5 =>
    let b := a % 256
    let done := (s.bar b).done
    match Tbl.find p.arrivals b with
    | some base => if base < done then s.finishWait e true else s.startWait e w (.barrier b base)
    | none => s.startWait e w (.barrier b done)
  | 6 => s.startWait e w (.devTime w.addr)
  | _ => s.startWait e w (.delay (s.now + a % 2 ^ 32))

/-- The checks of a WAIT (R85, R105, R108). -/
def State.waitChecks (s : State) (e : Nat) (p : Prog) (w : Ccw) : Option Bad :=
  firstBad [
    undefIf (w.reservedBits || waitUndef w || decide (1 < w.mode.toNat)),
    badIf (p.overBounds 0 0) Ending.programFault 0,
    s.minorBelow e (if w.sub.toNat = 7 || w.mode.getLsbD 0 then 1 else 0),
    badIf (decide (w.space ≠ 0)) Ending.programFault 0,
    flagChecks p w false false,
    badIf (decide (w.count = 0) && decide (p.cls ≤ 1)) Ending.programFault 0,
    s.waitAccess p w]

/-- WAIT: begins, and completes at once where its event is already there (R85, Table 3.9). -/
def execWait (e : Nat) (s : State) : Answer :=
  s.atWord e (fun w => decide (w.opc = 4)) (fun p w s => s.checked e (s.waitChecks e p w) (fun s => s.beginWait e p w))

/-- The event of a WAIT falls in this very tick: it wins over the expiry (R85). -/
def State.waitDue (s : State) (w : WaitS) : Bool :=
  match w.kind with
  | .timer t => s.tmrDue t && decide (w.startTick < s.tick)
  | .devTime t => decide (t.toNat ≤ s.now) && decide (w.startTick < s.tick)
  | .delay d => decide (d ≤ s.now) && decide (w.startTick < s.tick)
  | _ => false

/-- WAIT_LIMIT_EXPIRY: the limit of a WAIT has passed (R85). -/
def execWaitLimitExpiry (e : Nat) (s : State) : Answer :=
  match s.running e with
  | none => .next s
  | some p =>
    match p.phase with
    | .wait w =>
      occurs s (decide (w.limitUs ≠ 0) && s.passedUs w.startTick w.limitUs && !s.waitDue w) (fun s =>
        if w.onExpiry then s.finishWait e false else s.endAtWord e Ending.stepTimeout 0)
    | _ => .next s

/-- DEVICE_TIME_WAIT_DONE: device time has reached the time of a device-time or delay WAIT (R85, Table 3.9). -/
def execDeviceTimeWaitDone (e : Nat) (s : State) : Answer :=
  match s.running e with
  | none => .next s
  | some p =>
    match p.phase with
    | .wait w =>
      let isTime := match w.kind with | .devTime _ => true | .delay _ => true | _ => false
      occurs s (isTime && s.waitDue w) (fun s => s.finishWait e true)
    | _ => .next s

/-! ## SIGNAL (R81, R86, R148) -/

/-- The checks of a SIGNAL whose reserved operand bits are `undef`, with `access` its own check. -/
def signalChecks (p : Prog) (w : Ccw) (undef : Bool) (access : Option Bad) : Option Bad :=
  ctlChecks p w (decide (w.space = 0)) (!w.plain false true false true || undef) false [access]

/-- A SIGNAL word of kind `k`: its checks, with `undef` the test of its reserved operand bits and `access` its own checks. -/
def State.signal (s : State) (e k : Nat) (undef : W64 → Bool) (access : Prog → W64 → State → Option Bad)
    (f : Prog → W64 → State → State) : Answer :=
  s.atWord e (fun w => decide (w.opc = 5) && decide (w.sub.toNat = k)) (fun p w s =>
    s.checked e (signalChecks p w (undef w.addr) (access p w.addr s)) (fun s => f p w.addr s))

/-- SIGNAL_DOORBELL: as a host write of the tail doorbell of a queue of the function (R86, R164). -/
def execSignalDoorbell (e : Nat) (s : State) : Answer :=
  s.signal e 1 (fun a => decide (fld a 12 20 ≠ 0) || decide (fld a 48 16 ≠ 0))
    (fun p a s => badIf (match s.sq (fld a 0 12) with | some q => decide (q.fn ≠ p.fn) | none => true) Ending.protectionFault 0)
    (fun _ a s => (s.ringSq (fld a 0 12) (fld a 32 16)).completeWord e .next)

/-- SIGNAL_INTERRUPT: an event of an MSI-X vector of the function (R86, R321). -/
def execSignalInterrupt (e : Nat) (s : State) : Answer :=
  s.signal e 2 (fun a => decide (fld a 8 56 ≠ 0)) (fun _ _ _ => none)
    (fun p a s => (s.sendMsix p.fn (fld a 0 8)).completeWord e .next)

/-- SIGNAL_MAILBOX_WORD: sends GPm, stamped, into the channel of the function's engines; it waits while the direction is
full, ends with LINK_FAULT on an ABORTED notice, and drops a word whose stamps differ (R86, R395, R422, R427). -/
def execSignalMailboxWord (e : Nat) (stampsAgree : Bool) (s : State) : Answer :=
  s.signal e 3 (fun a => decide (fld a 12 52 ≠ 0))
    (fun p a s => badIf (s.engineEnd (fld a 0 8) p.mid).isNone Ending.protectionFault 0)
    (fun p a s =>
      let ch := fld a 0 8
      match s.engineEnd ch p.mid with
      | none => s
      | some i =>
        let c := s.mchan ch
        if (c.side i).aborted then
          (s.updMchan ch (fun c => c.updSide i (fun m => { m with aborted := false }))).endAtWord e Ending.linkFault 0
        else if !stampsAgree then (s.mbxForeign p.mid ch).completeWord e .next
        else if mbxDepth ≤ (c.outq i).length then (s.ack e).updProg e (fun p => { p with phase := .mbxFull })
        else (s.mbxQueue ch i (p.getGp (fld a 8 4))).completeWord e .next)

/-- A barrier completes: its generation advances and the engines that waited for it go on (R147, R148). -/
def State.barrierDone (s : State) (b : Nat) : State :=
  let s := s.updBar b (fun x => { x with gen := wrapAdd 16 x.gen 1, arrived := 0, done := x.done + 1 })
  s.finishWaits (fun k => match k with | .barrier c base => decide (c = b) && decide (base < (s.bar b).done) | _ => false)

/-- The checks of an arrival at barrier `i` (R148). -/
def State.arrivalChecks (s : State) (e : Nat) (p : Prog) (i : Nat) : Option Bad :=
  firstBad [badIf (decide ((s.bar i).owner ≠ p.mid)) Ending.protectionFault 0,
    badIf (!(s.bar i).mask.getLsbD (e / engPerCluster)) Ending.protectionFault 0, badIf (!(s.bar i).enable) Ending.programFault 0]

/-- SIGNAL_BARRIER_ARRIVAL: one arrival at a barrier, checked for its owner, its clusters and its enable; the last one
completes it (R147, R148). -/
def execSignalBarrierArrival (e : Nat) (s : State) : Answer :=
  s.signal e 4 (fun a => decide (fld a 8 56 ≠ 0))
    (fun p a s => s.arrivalChecks e p (fld a 0 8))
    (fun _ a s =>
      let i := fld a 0 8
      let s := s.updProg e (fun p => { p with arrivals := p.arrivals.put i (s.bar i).done })
      let s := s.updBar i (fun b => { b with arrived := b.arrived + 1 })
      let s := s.completeWord e .next
      if (s.bar i).count ≤ (s.bar i).arrived then s.barrierDone i else s)

/-- SIGNAL_REQUEST_ACKNOWLEDGE: one pulse of DACKn (R86, R341). -/
def execSignalRequestAcknowledge (e : Nat) (s : State) : Answer :=
  s.signal e 5 (fun a => decide (fld a 4 60 ≠ 0)) (fun _ _ _ => none)
    (fun _ a s => (s.drive (.dack (fld a 0 4))).completeWord e .next)

/-! ## SUSPEND, HALT, POST (R73, R87, R88, R120) -/

/-- SUSPEND: the program suspends after the word completes; class 2 and 3 only (R73, R120). -/
def execSuspend (e : Nat) (s : State) : Answer :=
  s.atWord e (fun w => decide (w.opc = 6)) (fun p w s =>
    s.checked e (zeroChecks p w (decide (p.cls ≤ 1)))
      (fun s =>
        let s := s.updProg e (fun q => { q with steps := q.steps + 1, last := q.pc, anyDone := true, op := [], noted := false,
                                                moved := 0, further := false, xf := none, resumed := false, pc := q.opAddr 1, phase := .boundary })
        if p.haltPend then s.endAtLast e Ending.halted else s.suspendProg e (.word w.lnk) p.pc))

/-- HALT: ends the program normally, with UNIT_EXCEPTION when SUB[0] is 1 (R70, R87). -/
def execHalt (e : Nat) (s : State) : Answer :=
  s.atWord e (fun w => decide (w.opc = 7)) (fun p w s =>
    s.checked e (ctlChecks p w (decide (w.space = 0)) (!w.plain false true false false || decide (1 < w.sub.toNat)) false [])
      (fun s => s.completeWord e (.stop (w.sub.getLsbD 0))))

/-- POST_NOTICE: posts a NOTICE completion that carries COUNT; while four completions wait it is held before its checks, and it is a fault
beyond the queue's NOTICES_MAX (R88, R126, R175, R179). -/
def execPostNotice (e : Nat) (s : State) : Answer :=
  s.atWord e (fun w => decide (w.opc = 8) && decide (w.sub = 0)) (fun p w s =>
    if 4 ≤ s.notesHeld e p.cqid then .next (s.updProg e (fun p => { p with phase := .noteHold, noted := true }))
    else s.checked e (ctlChecks p w (decide (w.space = 0)) (!w.plain false false true false) false []) (fun s =>
      if p.cls = 0 && decide (s.noticesMax p ≤ p.notices) then s.endAtWord e Ending.programFault 0
      else ((s.pushNotice e p w.count.toNat).updProg e (fun p => { p with notices := p.notices + 1 })).completeWord e .next))

/-- The checks of POST of a status word. -/
def State.statusChecks (s : State) (p : Prog) (w : Ccw) : Option Bad :=
  let k := w.space.toNat
  ctlChecks p w (decide (k ≤ 2)) (!w.plain true true false true) (rangeBad k w.addr 8)
    [badIf (decide (w.addr.toNat % 8 ≠ 0)) Ending.programFault 0, badIf (!s.memAllowed p k w.addr 8 true) Ending.protectionFault 0]

/-- POST_STATUS_WORD: writes GPn to HOST, YARD or LOCAL after the program's earlier writes (R75, R88). -/
def execPostStatusWord (e : Nat) (x : Xfer) (s : State) : Answer :=
  s.atWord e (fun w => decide (w.opc = 8) && decide (w.sub = 1)) (fun p w s =>
    let k := w.space.toNat
    s.checkedBar e (s.statusChecks p w) true
      (fun s =>
        match (if k = spHost then xferEnding x.status true else none) with
        | some n => s.endAtWord e n 0
        | none => (s.writePiece e p.fn { space := k, addr := w.addr, len := 8 } (leBytes 8 (p.getGp w.mode.toNat).toNat)).completeWord e .next))

end Sys2Proof.Machine
end

