-- ==== Sys2Proof/Machine/Engines.lean ====
section
/-! DEFINITION. Engines, seats and global operations (chapter 5): the rotating self-test, gating, barriers, broadcast,
snapshot and cluster reset, with their commands. -/
namespace Sys2Proof.Machine

/-- BAR0 block of the ENG registers. -/
def engBlock : Nat := blockOf 0x300000

/-! ## Engine records (Tables 4.2, 5.9, 5.11) -/

/-- ENG_STATE.STATE. -/
def Engine.code (g : Engine) : Nat :=
  if g.fenced then 6
  else if g.testing || !g.seated then 7
  else match g.prog with
    | none => 0
    | some p => match p.phase with
      | .boundary => 1 | .noteHold => 1
      | .fetched => 2
      | .wait _ => 3 | .sync _ => 3 | .charge => 3 | .mbxFull => 3 | .bar => 3
      | .susp _ => 4
      | .postwait => 5

/-- The state record of an engine; CREW, SQID and CLASS read 0 while no program is there (log 11). -/
def Engine.record (g : Engine) : Snap :=
  let base := g.code + bitN g.testing 3 + bitN g.due 4 + bitN g.seated 31
  match g.prog with
  | none => { Snap.zero with state := BitVec.ofNat 32 base }
  | some p =>
    { state := BitVec.ofNat 32 (base + (p.crew % 256) * 2 ^ 8 + (p.sqid % 4096) * 2 ^ 16 + (p.cls % 4) * 2 ^ 28)
      tag := p.tag, pc := p.pc, steps := BitVec.ofNat 32 (p.steps % 2 ^ 24)
      flags := BitVec.ofNat 32 (bitN p.z 0 + bitN p.n 1 + bitN p.c 2 + bitN p.s 3 + p.stack.length * 16) }

/-! ## Seats (R138 to R141) -/

/-- Seats a crew holds reserved in cluster `c`. -/
def Crew.seatsIn (k : Crew) (c : Nat) : Nat := if k.mask.getLsbD c then k.seats - k.lostIn.get c 0 else 0

/-- Seats reserved in cluster `c`. -/
def State.reservedIn (s : State) (c : Nat) : Nat := sumBy (fun k => k.2.seatsIn c) s.eng.crews

/-- The crew that loses a seat first: the highest class number, then the highest crew number (R140). -/
def State.loser (s : State) (c : Nat) : Option Nat :=
  minBy (fun k => match s.crew k with | some x => (3 - x.cls) * 256 + (255 - k) | none => 1024)
    (s.eng.crews.keys (fun _ x => decide (0 < x.seatsIn c)))

/-- A seat of cluster `c` is lost (R140). -/
def State.loseSeat (s : State) (c : Nat) : State :=
  let n := (s.cluster c).seats - 1
  let who := if s.reservedIn c ≤ n then none else s.loser c
  let s := s.updCluster c (fun k => { k with seats := n, lost := who :: k.lost })
  match who with
  | none => s
  | some k => s.updCrew k (fun x => { x with lostIn := x.lostIn.mod c 0 (· + 1) })

/-- A seated engine gives its seat up: to the tested spare with the lowest slot, or it is lost (R139, R140). -/
def State.passSeat (s : State) (e : Nat) : State :=
  let c := e / engPerCluster
  let s' := s.updEngine e (fun g => { g with seated := false })
  match s.testedSpare c with
  | some f => s'.updEngine f (fun g => { g with seated := true, prog := none, store := [] })
  | none => s'.loseSeat c

/-- The last lost seat of cluster `c` is restored to the crew that lost it, on a tested spare (R141). -/
def State.restoreSeat (s : State) (c : Nat) : State :=
  match (s.cluster c).lost, s.testedSpare c with
  | who :: rest, some f =>
    let s := s.updEngine f (fun g => { g with seated := true })
    let s := s.updCluster c (fun k => { k with seats := k.seats + 1, lost := rest })
    (match who with
    | some k => s.updCrew k (fun x => { x with lostIn := x.lostIn.mod c 0 (· - 1) })
    | none => s)
  | _, _ => s

/-- Crews get back what cluster `c` can hold again, the crew that lost last first: what a crew that no longer exists had lost was an unreserved
seat (R140, R141). -/
def State.regainSeats (s : State) (c : Nat) : Nat → State
  | 0 => s
  | fuel + 1 =>
    let lost := (s.cluster c).lost.map (fun w => match w with | some k => if (s.crew k).isSome then some k else none | none => none)
    let s := s.updCluster c (fun k => { k with lost := lost })
    match lost.findSome? id with
    | some k =>
      if s.reservedIn c < (s.cluster c).seats then
        let s := s.updCluster c (fun x => { x with lost := x.lost.replace (some k) none })
        State.regainSeats (s.updCrew k (fun x => { x with lostIn := x.lostIn.mod c 0 (· - 1) })) c fuel
      else s
    | none => s

/-- A program and its seat move from engine `e` to the tested spare `f` (R136, R137). -/
def State.moveSeat (s : State) (e f : Nat) : State :=
  ((s.handover e f).updEngine e (fun g => { g with seated := false })).updEngine f (fun g => { g with seated := true })

/-! ## Pinned sets (R145) -/

/-- A cluster counts as fenced for pinned sets and placement: fenced itself, or with all four movers fenced (R378). -/
def State.clusterFenced (s : State) (c : Nat) : Bool :=
  (s.cluster c).fenced || (List.range 4).all (fun i => (s.mover (4 * c + i)).fenced)

def State.pinnedOf (s : State) (k : Crew) : BitVec 16 :=
  (List.range 16).foldl (fun m c =>
    if k.mask.getLsbD c && !s.clusterFenced c && !(s.cluster c).out && decide (k.minMinor ≤ (s.cluster c).minor)
    then m ||| BitVec.ofNat 16 (2 ^ c) else m) 0

/-- Every crew's pinned set is computed again. -/
def State.repin (s : State) : State :=
  { s with eng := { s.eng with crews := s.eng.crews.all (fun _ k => { k with pinned := s.pinnedOf k }) } }

/-! ## The rotating self-test (R136 to R138) -/

/-- A self-test turn, its handover window and its test, in µs. -/
def turnUs : Nat := 40
def windowUs : Nat := 4
def testUs : Nat := 36

/-- The first slot from `i` on, in turn, that is not fenced, and whether slot 71 lies behind it. -/
def State.nextSlot (s : State) (c i : Nat) : Option (Nat × Bool) :=
  ((List.range engPerCluster).map (fun k => i + k)).find? (fun j => !(s.engine (c * engPerCluster + j % engPerCluster)).fenced)
    |>.map (fun j => (j % engPerCluster, decide (engPerCluster ≤ j)))

/-- The sequencer goes on to the first slot from `i` on; a full sweep is counted. -/
def State.gotoSlot (s : State) (c i : Nat) : State :=
  match s.nextSlot c i with
  | none => s
  | some (j, wrap) => s.updCluster c (fun k =>
      if wrap then { k with bistSlot := j, passedOver := 0, sweeps := wrapAdd 16 k.sweeps 1 } else { k with bistSlot := j })

/-- The engine of the turn. -/
def State.bistEngine (s : State) (c : Nat) : Nat := c * engPerCluster + (s.cluster c).bistSlot

/-- Take the engine of the turn out for its test where R136 to R138 let it be taken now. -/
def State.takeForTest (s : State) (c : Nat) : State :=
  let e := s.bistEngine c
  let g := s.engine e
  let out := fun (s : State) => s.updEngine e (fun g => { g with testing := true, due := false })
  if g.testing || g.fenced then s
  else match g.seated, g.prog, s.testedSpare c with
    | false, _, _ => out s
    | true, none, some _ => out (s.passSeat e)
    | true, none, none => out s
    | true, some p, some f => if p.atHandover then out (s.moveSeat e f) else s.updEngine e (fun g => { g with due := true })
    | true, some _, none => s.updEngine e (fun g => { g with due := true })

/-- SELFTEST_TURN: the 40 µs turn of the next slot begins with its handover window; inside the window it names a handover
point of the engine, at which a busy one is taken (R136 to R138, log 12). -/
def execSelftestTurn (c : Nat) (s : State) : Answer :=
  let k := s.cluster c
  match k.bist with
  | .idle =>
    let on := k.ready && !k.gated && k.waking.isNone && !k.fenced && (match k.turnAt with | some t => s.passedUs t turnUs | none => true)
    occurs s (on && (s.nextSlot c k.bistSlot).isSome) (fun s =>
      ((s.gotoSlot c k.bistSlot).updCluster c (fun k => { k with bist := .window s.tick, turnAt := some s.tick })).takeForTest c)
  | .window t => occurs s (!s.passedUs t windowUs) (fun s => s.takeForTest c)
  | .test _ => .next s

/-- HANDOVER_WINDOW_END: the 36 µs test begins, or the engine is passed over; passed over twice in a row it is reported
(R136). An engine fenced in its window takes no further part (R139). -/
def execHandoverWindowEnd (c : Nat) (s : State) : Answer :=
  match (s.cluster c).bist with
  | .window t =>
    occurs s (s.passedUs t windowUs) (fun s =>
      let s := s.takeForTest c
      let e := s.bistEngine c
      let g := s.engine e
      if g.testing then s.updCluster c (fun k => { k with bist := .test s.tick })
      else if g.fenced then (s.updCluster c (fun k => { k with bist := .idle })).gotoSlot c ((s.cluster c).bistSlot + 1)
      else
        let s := if g.passed then s.report 0x0B 0 kindEng e 0 else s
        let s := s.updEngine e (fun g => { g with due := false, passed := true })
        let s := s.updCluster c (fun k => { k with bist := .idle, passedOver := k.passedOver + 1 })
        s.gotoSlot c ((s.cluster c).bistSlot + 1))
  | _ => .next s

/-- SELFTEST_COMPLETE: the test of the turn ends; a failure is reported (R136, class 0x0A). -/
def execSelftestComplete (c : Nat) (pass : Bool) (s : State) : Answer :=
  match (s.cluster c).bist with
  | .test t =>
    occurs s (s.passedUs t testUs) (fun s =>
      let e := s.bistEngine c
      let bad := !pass && !(s.engine e).fenced
      let s := s.updEngine e (fun g => { g with testing := false, passed := false, tested := pass, store := [] })
      let s := s.updCluster c (fun k => { k with bist := .idle })
      let s := s.gotoSlot c ((s.cluster c).bistSlot + 1)
      if bad then s.report 0x0A 0 kindEng e 0 else s)
  | _ => .next s

/-! ## Gating (R154, R155) -/

/-- The self-test of a cluster stops. -/
def State.stopBist (s : State) (c : Nat) : State :=
  let s := s.updEngine (s.bistEngine c) (fun g => { g with testing := false, due := false })
  s.updCluster c (fun k => { k with bist := .idle })

/-- A class-0 or class-1 crew reserves a seat in cluster `c`. -/
def State.servesHigh (s : State) (c : Nat) : Bool := s.eng.crews.any (fun k => decide (k.2.cls ≤ 1) && decide (0 < k.2.seatsIn c))

/-- The conditions of R154. -/
def State.mayGate (s : State) (c : Nat) : Bool :=
  let k := s.cluster c
  k.gateEn && k.ready && !k.gated && k.waking.isNone && !k.fenced && !k.wakeReq && k.resetAt.isNone && !s.servesHigh c
    && (clusterEngines c).all (fun e => (s.engine e).prog.isNone)

/-- CLUSTER_GATE: R154 has held for GATE_IDLE_US; engines and self-test power down, the fetch cache is kept. -/
def execClusterGate (c : Nat) (s : State) : Answer :=
  occurs s (s.mayGate c && s.passedUs (s.cluster c).idleSince (s.cluster c).gateIdleUs) (fun s =>
    (s.stopBist c).updCluster c (fun k => { k with gated := true }))

/-- A wake event reaches cluster `c`. -/
def State.wakeCluster (s : State) (c : Nat) : State :=
  if (s.cluster c).gated then s.updCluster c (fun k => { k with wakeReq := true }) else s

/-- CLUSTER_WAKE: a gated cluster that a wake event has reached begins to wake (R155); a fenced one takes no wake (R377). -/
def execClusterWake (c : Nat) (s : State) : Answer :=
  let k := s.cluster c
  occurs s (k.gated && k.wakeReq && !k.fenced) (fun s => s.updCluster c (fun k =>
    { k with gated := false, wakeReq := false, waking := some s.tick, gateCount := satAdd 32 k.gateCount 1 }))

/-! ## Broadcast (R151) -/

/-- What an order does to a cluster when all its engines have acted. -/
def State.applyOrder (s : State) (c : Nat) (o : Order) : State :=
  match o with
  | .quenchStop => s.updCluster c (fun k => { k with stop := true })
  | .debugHalt => s.updCluster c (fun k => { k with stop := true })
  | .crewRefresh => s.repin
  | .cacheInvalidate => s.updCluster c (fun k => { k with lines := [] })
  | .ucodeSwap => (s.updCluster c (fun k => { k with build := k.ucodeBuild, minor := k.ucodeMinor })).repin

def maskClusters (m : BitVec 16) : List Nat := (List.range 16).filter (fun c => m.getLsbD c)

/-- Engines of a cluster that are inside a word and so act on an order only later. -/
def State.notYet (s : State) (c : Nat) : List Nat :=
  s.eng.engines.keys (fun e g => decide (e / engPerCluster = c) && !g.fenced && (match g.prog with | some p => !p.atHandover | none => false))

/-- Send an order to the clusters of a mask: gated ones apply it when they wake; a stop holds each engine from its next
handover point on. -/
def State.sendOrder (s : State) (o : Order) (m : BitVec 16) : State :=
  let cs := maskClusters m
  let live := cs.filter (fun c => let k := s.cluster c; !k.gated && !k.fenced)
  let s' := (cs.filter (fun c => (s.cluster c).gated)).foldl (fun s c => s.updCluster c (fun k => { k with orders := k.orders ++ [o] })) s
  let s' := if o = .quenchStop || o = .debugHalt then live.foldl (fun s c => s.applyOrder c o) s' else s'
  let b : Bcast := { order := o, mask := live.foldl (fun m c => m ||| BitVec.ofNat 16 (2 ^ c)) 0, left := live.flatMap s.notYet }
  { s' with eng := { s'.eng with bcast := s'.eng.bcast ++ [b] } }

def orderCode (k : Nat) : Option Order :=
  match k with
  | 0 => some .quenchStop | 1 => some .debugHalt | 2 => some .crewRefresh | 3 => some .cacheInvalidate | 4 => some .ucodeSwap
  | _ => none

/-- BROADCAST: the Management Processor or the Fault Collector sends a control order to the engines of a set of clusters. -/
def execBroadcast (order : Nat) (mask : BitVec 16) (s : State) : Answer :=
  match orderCode order with
  | some o => occurs s s.powered (fun s => s.sendOrder o mask)
  | none => .next s

/-- BROADCAST_COMPLETE: every engine that the oldest broadcast targets and that is not fenced has acted and acknowledged (`State.ack`): it is
complete. -/
def execBroadcastComplete (s : State) : Answer :=
  match s.eng.bcast with
  | [] => .next s
  | b :: t =>
    let left := b.left.filter (fun e => !(s.engine e).fenced)
    if left.isEmpty then
      .next ((maskClusters b.mask).foldl (fun s c => s.applyOrder c b.order) { s with eng := { s.eng with bcast := t } })
    else .next { s with eng := { s.eng with bcast := { b with left := left } :: t } }

/-- CLUSTER_WAKE_READY: 8 µs after the wake the cluster is ready, its sweep restarts at slot 0 and the orders it missed are
applied (R151, R155). -/
def execClusterWakeReady (c : Nat) (s : State) : Answer :=
  match (s.cluster c).waking with
  | none => .next s
  | some t =>
    occurs s (s.passedUs t 8) (fun s =>
      let os := (s.cluster c).orders
      let s := s.updCluster c (fun k => { k with waking := none, bistSlot := 0, passedOver := 0, turnAt := none, idleSince := s.tick, orders := [] })
      os.foldl (fun s o => s.applyOrder c o) s)

/-! ## Barriers (R147, R150) -/

/-- BARRIER_CFG_WRITE: a write of ENG_BAR_CFGb discards the arrivals of the current generation, so that no program counts as having made them,
and starts a new one without completing the old one (R148, R150). COUNT 0 and values above 1,024 are reserved. -/
def execBarrierCfgWrite (mid b : Nat) (v : W32) (s : State) : Answer :=
  if !(s.mayWrite mid engBlock) then .next s
  else if fld v 0 11 = 0 ∨ 1024 < fld v 0 11 then .fault .reservedValue
  else
    let now := (s.bar b).done
    let gone := fun (_ : Nat) (g : Engine) => { g with prog := g.prog.map (fun p => if p.arrivals.find b = some now then { p with arrivals := p.arrivals.del b } else p) }
    .next (({ s with eng := { s.eng with engines := s.eng.engines.all gone } } : State).updBar b (fun x =>
      { x with count := fld v 0 11, owner := fld v 16 6, enable := v.getLsbD 31, gen := wrapAdd 16 x.gen 1, arrived := 0 }))

/-! ## Snapshot (R152) -/

/-- The record an engine gives to a snapshot; a gated cluster shows its engines as they were at gating. -/
def State.snapOf (s : State) (e : Nat) : Snap :=
  let g := s.engine e
  if (s.cluster (e / engPerCluster)).gated then ({ g with prog := none } : Engine).record else g.record

/-- Levels of the tree that a set of clusters takes (R147, R149). -/
def levels (m : BitVec 16) : Nat :=
  let cs := maskClusters m
  if cs.length ≤ 1 then 1 else if cs.all (fun c => decide (c / 4 = cs.headD 0 / 4)) then 2 else 3

/-- The 64 bytes of an engine in a snapshot: the ENG_SNAP_ registers in their order, then zeros (DESIGN CHOICE, log 104: the places of the fields
are not stated). -/
def Snap.bytes (x : Snap) : List Byte :=
  leBytes 4 x.state.toNat ++ leBytes 4 x.tag.toNat ++ leBytes 8 x.pc.toNat ++ leBytes 4 x.steps.toNat ++ leBytes 4 x.flags.toNat ++ leBytes 40 0

/-- The snapshot buffer: 72 KiB of the MGP working-data partition, behind the 2 MiB of the program store (DESIGN CHOICE, log 104). -/
def State.snapBuffer (s : State) : Nat := s.partBase 6 + 2 * mib

/-- A cluster node writes the records of its engines to the snapshot buffer, in the order of the engines (R152). -/
def State.writeSnaps (s : State) (c : Nat) : State :=
  s.yardWrite (s.snapBuffer + c * engPerCluster * 64) ((clusterEngines c).flatMap (fun e => (s.engine e).snap.bytes))

/-- Latch the records of the target clusters and write them to the snapshot buffer, unless a snapshot is running (R152). -/
def State.snapshot (s : State) (m : BitVec 16) : State :=
  if s.tick < s.eng.snapBusy then s
  else
    let f := fun (e : Nat) => let g := s.engine e
      (e, if m.getLsbD (e / engPerCluster) then { g with snap := s.snapOf e } else g)
    let s := { s with eng := { s.eng with engines := (List.range engCount).map f, snapTime := s.tmr.time, snapBusy := s.tick + levels m + 18 } }
    (maskClusters m).foldl State.writeSnaps s

/-- SNAPSHOT_GO: a write of ENG_SNAP_CTRL with GO. -/
def execSnapshotGo (mid : Nat) (v : W32) (s : State) : Answer :=
  occurs s (s.mayWrite mid engBlock && v.getLsbD 0) (fun s =>
    s.snapshot (if fld v 16 16 = 0 then 0xFFFF else BitVec.ofNat 16 (fld v 16 16)))

/-! ## Cluster reset (R153, R452) -/

/-- Completions of engine `e` that wait are held by the Queue Engine (R174, R452). -/
def State.detach (s : State) (e : Nat) : State :=
  let d := fun (w : Waiting) => if w.src = .final e || w.src = .note e then { w with src := .fence e } else w
  { s with qe := { s.qe with cqs := s.qe.cqs.all (fun _ q => { q with ready := q.ready.map d, held := q.held.map d }) } }

/-- The program of engine `e` ends, its completions pass to the Queue Engine, and the engine is free. -/
def State.clearEngine (s : State) (e : Nat) (n : Ending) : State := ((s.endAtLast e n).detach e).freeEngine e

/-- The engines of cluster `c` that run a program. -/
def State.busyIn (s : State) (c : Nat) : List Nat :=
  s.eng.engines.keys (fun e g => decide (e / engPerCluster = c) && g.prog.isSome)

/-- Reset a cluster: its programs end with ABORTED_RESET, its engines and program lines are cleared, its mailbox ends tell
their peers. -/
def State.resetCluster (s : State) (c : Nat) : State :=
  let s := (s.busyIn c).foldl (fun s e => s.clearEngine e Ending.abortedReset) s
  let s := s.updCluster c (fun k => { k with
    ready := false, done := false, gated := false, waking := none, wakeReq := false, stop := false, orders := [], bist := .idle, bistSlot := 0,
    passedOver := 0, turnAt := none, resetAt := some s.tick, resetReq := false, lines := [] })
  let clear := fun (e : Nat) (g : Engine) => if e / engPerCluster = c then { g with testing := false, due := false, tested := false, passed := false, store := [] } else g
  let s := { s with eng := { s.eng with engines := s.eng.engines.all clear } }
  s.mbxReset (fun m => (decide (m.kind = kindEngine) && decide (m.cl = c)) || (decide (m.kind = kindNode) && decide (m.mid = 0x20 + c)))

/-- In the array reset of Load cluster `c` follows cluster `c − 1` by 2.5 µs (R153, R448). -/
def State.arrayTurn (s : State) (c : Nat) : Bool :=
  s.inMode [.load] && !(s.cluster c).ready && !(s.cluster c).done &&
    (decide (c = 0) || (let k := s.cluster (c - 1); k.ready || k.done || (match k.resetAt with | some t => decide (2500 ≤ s.sinceNs t) | none => false)))

/-- The reset and test of a cluster is ordered: a gated one wakes first (R155). -/
def State.orderReset (s : State) (c : Nat) : State := (s.updCluster c (fun k => { k with resetReq := true })).wakeCluster c

/-- CLUSTER_RESET: an ordered reset of the cluster, or its turn of the array reset, begins. -/
def execClusterReset (c : Nat) (s : State) : Answer :=
  let k := s.cluster c
  occurs s (decide (c < 16) && k.resetAt.isNone && !k.gated && k.waking.isNone && (k.resetReq || s.arrayTurn c)) (fun s => s.resetCluster c)

/-- CLUSTER_READY: 42 µs after its reset began the cluster is ready: seats as after R135, every failed engine fenced (R153). In the array reset of
Load the READY bits come with the last cluster.
`failed` names the slots whose test failed. -/
def execClusterReady (c : Nat) (failed : List Nat) (s : State) : Answer :=
  match (s.cluster c).resetAt with
  | none => .next s
  | some t =>
    occurs s (s.passedUs t 42) (fun s =>
      let seat := fun (s : State) (e : Nat) =>
        let bad := failed.contains (e % engPerCluster) || (s.engine e).fenced
        s.updEngine e (fun g => { g with seated := decide (e % engPerCluster < 64), tested := !bad, fenced := bad })
      let s := (clusterEngines c).foldl seat s
      let back := fun (_ : Nat) (k : Crew) => { k with lostIn := k.lostIn.del c }
      let s := { s with eng := { s.eng with crews := s.eng.crews.all back } }
      let s := s.updCluster c (fun k => { k with done := true, resetAt := none, seats := 64, lost := [], idleSince := s.tick })
      let array := s.inMode [.load] && (List.range 16).any (fun i => !(s.cluster i).ready)
      let all := (List.range 16).all (fun i => (s.cluster i).done)
      let s := if !array then s.updCluster c (fun k => { k with ready := true })
        else if all then (List.range 16).foldl (fun s i => s.updCluster i (fun k => { k with ready := true })) s else s
      let bad := (clusterEngines c).filter (fun e => (s.engine e).fenced && (s.engine e).seated)
      bad.foldl State.passSeat s)

end Sys2Proof.Machine
end

