-- ==== Sys2Proof/Machine/Admission.lean ====
section
/-! DEFINITION. Admission (R198 to R214, R109, R110, R146, R483): the order of staged STARTs, their checks, the class-1 proof,
the class-0 meter, and placement; the commands ADMIT_START, SEAT_FREED_PLACEMENT and BOUND_VOID_EXPIRY. -/
namespace Sys2Proof.Machine

/-! ## The class-0 contract (R201, R202) -/

/-- BURST, and the units of the long span, in CLK_TIME ticks the two spans. -/
def Sch.burst (h : Sch) : Nat := max 1 ((h.rate * 8 + 99) / 100)
def Sch.longUnits (h : Sch) : Nat := h.rate * 5 / 2
def shortSpan : Nat := 8000
def longSpan : Nat := 250000

/-- Units admitted within the last `n` ticks. -/
def State.unitsIn (s : State) (n : Nat) : Nat := sumBy (fun u => if s.tick < u.1 + n then u.2 else 0) s.sch.meter

/-- BOUND_VOID: fewer than 2.5 ms have passed since the last unit over the contract. -/
def State.boundVoid (s : State) : Bool := match s.sch.voidAt with | some t => decide (s.tick < t + longSpan) | none => false

/-- Meter the units of an admitted class-0 program of function `fn` and queue `sq` (R201, R202). -/
def State.meterC0 (s : State) (fn sq u : Nat) : State :=
  let above := decide (s.sch.burst < s.unitsIn shortSpan + u) || decide (s.sch.longUnits < s.unitsIn longSpan + u)
  let first := !s.boundVoid
  let kept := s.sch.meter.filter (fun x => decide (s.tick < x.1 + longSpan))
  let s := { s with sch := { s.sch with meter := (s.tick, u) :: kept } }
  if !above then s
  else
    let s := ({ s with sch := { s.sch with overContract := true, c0Over := satAdd 32 s.sch.c0Over u, voidAt := some s.tick } }).sets 0x600014 8
    if first then (s.postEvent fn 0x0021 sq s.tmr.time).report 0x20 0 kindFunction (midOf fn) 0 else s

/-- BOUND_VOID_EXPIRY: 2.5 ms have passed without a unit over the contract (R202). -/
def execBoundVoidExpiry (s : State) : Answer :=
  occurs s (s.sch.voidAt.isSome && !s.boundVoid) (fun s => { s with sch := { s.sch with voidAt := none } })

/-! ## The first word (R102, R104, R483) -/

/-- The header fields of an HDR word (Table 3.17). -/
def hdrOf (bs : List Byte) : Hdr :=
  { minMinor := leAt bs 2 1 % 16, policy := leAt bs 2 1 / 16, maxSteps := leAt bs 4 3,
    maxBytes := leAt bs 8 8 % 2 ^ 40, maxOps := leAt bs 8 8 / 2 ^ 40 }

/-- Reserved parts of an HDR word (Tables 3.1 and 3.17), whose effect R69 leaves undefined: a reserved POLICY, flag bit 7, byte 3. -/
def hdrUndef (bs : List Byte) : Bool := decide (2 < (hdrOf bs).policy) || (leAt bs 1 1).testBit 7 || decide (leAt bs 3 1 ≠ 0)

/-- An HDR that ends its START with PROGRAM_FAULT (R104); so does one with a named flag other than LNK, which Table 3.17 requires to be 0
(DEDUCED, log 93). -/
def hdrInvalid (bs : List Byte) : Bool :=
  decide (leAt bs 1 1 % 128 ≠ 1) || decide ((hdrOf bs).maxSteps = 0) || decide ((hdrOf bs).maxBytes = 0) || decide (leAt bs 7 1 ≠ 2)

/-- The stored program that an address lies in. -/
def State.storedAt (s : State) (a : Nat) : Option Stored :=
  (s.eng.store.find? (fun p => !p.2.removed && decide (p.2.addr ≤ a) && decide (a < p.2.addr + p.2.len))).map (·.2)

/-- How a START stands after a check. -/
inductive StartRes where
  | refuse (n : Ending) (s : State)
  | undef
  | wait (s : State)          -- it waits, or its first word has not been supplied
  | go (h : Option Hdr) (s : State)

/-- Refusals that no engine produced (Table 4.5). CHSTAT of a START that residency or its minor version refuses is the 0x00 of Table 4.5's
row and not the PROG_FAULT of Table 3.16 (DESIGN CHOICE, log 94). -/
def refusal (st : BitVec 16) : Ending := ⟨st, 0, 0⟩

/-- SPACE, alignment and residency of PROGRAM (Tables 4.1 and 6.11, R109, R110). -/
def State.residency (s : State) (q : Sq) (cls : Nat) (e : Sqe) : Option (BitVec 16) :=
  let a := e.program.toNat
  let mid := midOf q.fn
  if 1 < e.space then some Status.programFault
  else if a % (if q.v1 then 8 else 16) ≠ 0 then some Status.programFault
  else if e.space = 0 then (if cls ≤ 1 then some Status.programFault else none)
  else if q.v1 then some Status.programFault
  else match s.storedAt a with
    | some p => if p.fns.getLsbD q.fn then none else some Status.protectionFault
    | none => if cls ≤ 1 || !s.yardGranted mid a 16 false then some Status.programFault else none

/-- Judge the first word of a program of class `cls`. -/
def judgeFirst (v1 : Bool) (cls : Nat) (w : List Byte) (s : State) : StartRes :=
  if !v1 && decide (leAt w 0 1 = 0x3F) then
    (if hdrInvalid w then .refuse Ending.programFault s else if hdrUndef w then .undef else .go (some (hdrOf w)) s)
  else if cls ≤ 1 then .refuse Ending.programFault s
  else .go none s

/-- A valid copy of a program line, in the lowest-numbered cluster that holds one (log 92). -/
def State.heldLine (s : State) (fn : Nat) (yard : Bool) (a : Nat) : Option Line :=
  (List.range 16).findSome? (fun c => (s.cluster c).lookup fn yard a)

/-- Read the first word: as recorded for a stored program, else from a valid copy of its line (R196), from the Yard, or from the 64-byte
line `first` of host memory (R483). An uncorrectable Yard word fails the read only where it lies in the first word (R485). -/
def State.firstWord (s : State) (q : Sq) (cls : Nat) (e : Sqe) (first : Rd) : StartRes :=
  let a := e.program.toNat
  let n := if q.v1 then 8 else 16
  match (if e.space = 1 then (s.storedAt a).bind (fun p => if p.addr = a then some p.first else none) else none) with
  | some w => judgeFirst q.v1 cls w s
  | none => match s.heldLine q.fn (decide (e.space = 1)) (lineOf a) with
    | some l => judgeFirst q.v1 cls (l.bytes.drop (a % 64)) s
    | none =>
      if e.space = 1 then
        (if s.yard.badIn a n then .refuse Ending.dataFault (s.reportBad a n) else judgeFirst q.v1 cls (s.yard.read a 16) s)
      else match first with
        | .error => .refuse Ending.linkFault s
        | .data bs => if bs.length = 64 then judgeFirst q.v1 cls (bs.drop (a % 64)) s else .wait s

/-! ## Seats (R146, R208) -/

/-- Programs of crew `k` in cluster `c`. -/
def State.usedIn (s : State) (k c : Nat) : Nat := (s.engsWith (fun p => decide (p.crew = k))).filter (fun e => decide (e / engPerCluster = c)) |>.length

/-- Unreserved seats of cluster `c` that no crew uses. -/
def State.sharedFree (s : State) (c : Nat) : Nat :=
  (s.cluster c).seats - s.reservedIn c - sumBy (fun k => s.usedIn k.1 c - k.2.seatsIn c) s.eng.crews

/-- Engines of cluster `c` on which admission may place a program now. -/
def State.idleSeats (s : State) (c : Nat) : List Nat :=
  let k := s.cluster c
  if k.ready && !s.clusterFenced c && !k.out then
    (clusterEngines c).filter (fun e => let g := s.engine e; g.seated && g.prog.isNone && !g.fenced && !g.testing && !g.due)
  else []

/-- Minor version of a header, 0 without one. -/
def minMinorOf (h : Option Hdr) : Nat := match h with | some h => h.minMinor | none => 0

/-- The placement set of a crew (R145, R206). -/
def State.placement (s : State) (k : Crew) (h : Option Hdr) : List Nat :=
  (maskClusters k.pinned).filter (fun c => decide (minMinorOf h ≤ (s.cluster c).minor))

/-- The first waiting START of another crew that was staged before `no` and may use an unreserved seat of `c` (R208). -/
def State.sharedTaken (s : State) (k no c : Nat) : Bool :=
  s.qe.sqs.any (fun x => match x.2.crew, x.2.staged.find? (fun e => decide (e.sqe.opc = opcStart)) with
    | some j, some e => decide (j ≠ k) && e.waiting && decide (e.no < no) && (match s.crew j with
      | some y => y.shared && (s.placement y (e.hdr.getD none)).contains c
      | none => false)
    | _, _ => false)

/-- Free seats of crew `k` in cluster `c` for a START with staging number `no`. -/
def State.freeSeats (s : State) (k no c : Nat) : Nat :=
  match s.crew k with
  | none => 0
  | some x =>
    let own := x.seatsIn c - s.usedIn k c
    let sh := if x.shared && decide (2 ≤ x.cls) && !s.sharedTaken k no c then s.sharedFree c else 0
    min (own + sh) (s.idleSeats c).length

/-- The engine that R146 gives a START: the hinted cluster, or the one with the most free seats; its lowest idle slot. -/
def State.seatFor (s : State) (k no hint : Nat) (set : List Nat) : Option Nat :=
  let free := set.filter (fun c => decide (0 < s.freeSeats k no c))
  let pick := if free.contains hint then some hint else minBy (fun c => 64 - s.freeSeats k no c) free
  pick.bind (fun c => (s.idleSeats c).head?)

/-! ## The class-1 proof (R209 to R212) -/

/-- The loaded cost table of the active bank. -/
def Sch.loaded (h : Sch) : Option Cost := if (h.tables.get 17 SlotTable.reset).activeB then h.costB else h.costA

/-- The cost fields in force (R210). -/
def State.cost (s : State) : Cost :=
  match s.sch.loaded with
  | none => Cost.builtin
  | some c =>
    if s.mm.characterised then c
    else
      let b := Cost.builtin
      { stepNs := max c.stepNs b.stepNs, rateMbps := max c.rateMbps b.rateMbps, mediaUs := max c.mediaUs b.mediaUs,
        latencyUs := max c.latencyUs b.latencyUs, opsPerFrame := min c.opsPerFrame b.opsPerFrame,
        marginUs := max c.marginUs b.marginUs }

/-- t + W(p) does not exceed the deadline `d` (R211): W's byte term is MAX_BYTES / COST_RATE_MBPS µs, compared exactly. -/
def inTime (c : Cost) (h : Hdr) (t d : Nat) : Bool :=
  let fixed := h.maxSteps * c.stepNs + (h.maxOps * c.mediaUs + c.latencyUs + c.marginUs) * usNs
  decide (d ≠ 0) && decide (t + fixed ≤ d) && decide (h.maxBytes * usNs ≤ (d - t - fixed) * c.rateMbps)

/-- The Landing reserve of a class-1 program (R211). -/
def c1Reserve (h : Hdr) : Nat := roundUp (min (h.maxBytes + 96 * h.maxOps) (16480 * h.maxOps)) 64

/-- Deadline and remaining media operations of the running class-1 programs. -/
def State.c1Running (s : State) : List (Nat × Nat) :=
  s.eng.engines.filterMap (fun g => match g.2.prog with
    | some p => if p.cls = 1 ∧ p.phase ≠ .postwait then some (p.deadline.toNat, p.opsLeft) else none
    | none => none)

/-- Demand up to deadline `x` is within the supply of the class-1 slots (R211). -/
def demandOk (c : Cost) (run : List (Nat × Nat)) (ops t x : Nat) : Bool :=
  let demand : Int := (sumBy (fun r => if r.1 ≤ x then r.2 else 0) run + ops : Nat)
  let supply : Int := ((c.opsPerFrame : Int) * ((x : Int) - (t : Int) - ((c.latencyUs * usNs : Nat) : Int))) / 1024000
  decide (demand ≤ supply)

/-- proved(p, t) of R211. While LIMIT_VALID reads 0 no room can be set aside (R207). -/
def State.proved (s : State) (h : Hdr) (d : Nat) : Bool :=
  let t := s.now
  let run := s.c1Running
  inTime s.cost h t d && s.lq.limitValid && !s.lq.overLimit && decide (c1Reserve h ≤ s.freeRoom 1)
    && (d :: (run.map (·.1)).filter (fun x => decide (d ≤ x))).all (demandOk s.cost run h.maxOps t)

/-! ## Order (R206, R208) -/

/-- The head START of a queue: its first staged START. -/
def Sq.headStart (q : Sq) : Option Staged := q.staged.find? (fun e => decide (e.sqe.opc = opcStart))

/-- A queue whose head START may be taken now. A held refusal stops it (R176), and so does a function whose requests may not
be issued where the first word lies in host memory (R320). -/
def State.offers (s : State) (n : Nat) (q : Sq) : Bool :=
  match q.headStart with
  | none => false
  | some e => s.queueMode q && s.fnLive q.fn && !s.qeHolds n && (decide (e.sqe.space ≠ 0) || e.hdr.isSome || s.canIssue q.fn)

/-- Queues of crew `k` that offer a START. -/
def State.crewOffers (s : State) (k : Nat) : List Nat := s.qe.sqs.keys (fun n q => decide (q.crew = some k) && s.offers n q)

/-- The head START of queue `n` waits for a seat: those after it in the order of its crew wait behind it (R208). -/
def State.headWaits (s : State) (n : Nat) : Bool :=
  match (s.sq n).bind Sq.headStart with | some e => e.waiting | none => false

/-- The queue of a crew whose turn it is: the next SQID after the one served last, else the lowest, and one whose START waits for a
seat before any other (R208); at class 1 the earliest DEADLINE comes first, none standing last. -/
def State.crewTurn (s : State) (k cls : Nat) : Option Nat :=
  let l := s.crewOffers k
  if cls = 1 then minBy (fun n => match (s.sq n).bind Sq.headStart with
    | some e => if e.sqe.deadline = 0 then 2 ^ 64 else e.sqe.deadline.toNat | none => 0) l
  else match l.find? (fun n => s.headWaits n), l.find? (fun n => decide (s.qe.turn.get k 0 < n) && s.qe.turn.has k) with
    | some n, _ => some n
    | none, some n => some n
    | none, none => l.head?

/-- Place of a queue's head START in the order of R206: class 0 by staging, class 1 by DEADLINE, classes 2 and 3 by
staging. -/
def State.startKey (s : State) (cls n : Nat) : Nat :=
  match (s.sq n).bind Sq.headStart with
  | none => 0
  | some e =>
    if cls = 0 then e.no
    else if cls = 1 then 2 ^ 128 + (if e.sqe.deadline = 0 then 2 ^ 64 else e.sqe.deadline.toNat)
    else 2 ^ 192 + e.no

/-- The queue whose head START admission takes next. A START that waits keeps its place in the order, and no other (R208). -/
def State.nextStart (s : State) : Option Nat :=
  let heads := s.eng.crews.filterMap (fun k =>
    (s.crewTurn k.1 k.2.cls).bind (fun n => if s.headWaits n then none else some (s.startKey k.2.cls n, n)))
  (minBy (·.1) heads).map (·.2)

/-! ## Taking a START (R206, R207, R146) -/

/-- The START leaves its queue; the queue has had its turn. -/
def State.leaveStage (s : State) (n k : Nat) (e : Staged) : State :=
  let s := s.updSq n (fun q => { q with staged := q.staged.erase e })
  { s with qe := { s.qe with turn := s.qe.turn.put k n } }

/-- Refuse a START: its completion carries the PROGRAM address and no engine (Table 4.5). -/
def State.refuseStart (s : State) (n k cls : Nat) (e : Staged) (b : Ending) : State :=
  let s := (s.leaveStage n k e).pushQe n e.sqe.tag b e.sqe.program
  let s := if b.status = Status.energyLimit then ({ s with lq := { s.lq with energyRefused := true } }).sets 0xB80000 9 else s
  if cls = 1 && decide (b.status = Status.admitRefused) then { s with sch := { s.sch with refused := satAdd 32 s.sch.refused 1 } } else s

/-- A program as it starts (R111): after its HDR, which admission has read. -/
def newProg (pid n k cls : Nat) (q : Sq) (e : Staged) (h : Option Hdr) : Prog :=
  let gp : Vector W64 16 := Vector.replicate 16 0
  let p : Prog :=
    { pid := pid, sqid := n, tag := e.sqe.tag, fn := q.fn, cls := cls, crew := k, cqid := q.cqid, nowait := e.sqe.nowait,
      deadline := e.sqe.deadline, yard := decide (e.sqe.space = 1), v1 := q.v1, start := e.sqe.program,
      pc := if h.isSome then e.sqe.program + 16 else e.sqe.program, hdr := h, gp := gp, z := false, n := false, c := false, s := false,
      stack := [], steps := 0, bytes := 0, ops := 0, group := none, sealed := [], phase := .boundary, op := [], noted := false,
      resumed := false, haltPend := false, holdPend := false, notices := 0, last := e.sqe.program, anyDone := h.isSome, residual := 0,
      moved := 0, further := false, xf := none, unacked := false, fetchedAt := 0, owed := none, devstat := 0, execAt := 0, arrivals := [],
      reserve := match h with | some h => if cls = 1 then c1Reserve h else 0 | none => 0,
      opsLeft := match h with | some h => h.maxOps | none => 0, bell := e.bell, judged := false }
  p.seed e.sqe.seeds

/-- Place a START on engine `g`; a gated cluster is woken (R146, R155). -/
def State.placeOn (s : State) (g n k cls : Nat) (q : Sq) (e : Staged) (h : Option Hdr) : State :=
  let s := s.leaveStage n k e
  let p := newProg s.eng.nextPid n k cls q e h
  let s := s.updEngine g (fun x => { x with prog := some p, store := [] })
  let s := { s with eng := { s.eng with nextPid := s.eng.nextPid + 1 } }
  s.wakeCluster (g / engPerCluster)

/-- From "wait until a seat is free" on: seat, proof, meter, placement (R206). -/
def State.seatStart (s : State) (n k : Nat) (x : Crew) (q : Sq) (e : Staged) (h : Option Hdr) : State :=
  match s.seatFor k e.no e.sqe.hint (s.placement x h) with
  | none => s.updSq n (fun q => { q with staged := q.staged.map (fun f => if f = e then { f with waiting := true, hdr := some h } else f) })
  | some g =>
    let ok := if x.cls = 1 then (match h with | some h => s.proved h e.sqe.deadline.toNat | none => false) else true
    if !ok then s.refuseStart n k x.cls e (refusal Status.admitRefused)
    else
      let s := if x.cls = 0 then s.meterC0 q.fn n (max 1 (match h with | some h => h.maxOps | none => 0)) else s
      s.placeOn g n k x.cls q e h

/-- The steps of R206 before a seat is looked for. -/
def State.checkStart (s : State) (x : Crew) (q : Sq) (e : Staged) (first : Rd) : StartRes :=
  if e.sqe.cls ≠ x.cls then .refuse (refusal Status.admitRefused) s
  else if x.cls = 0 && !s.guaranteeReady && !s.fcs.lost then .refuse (refusal Status.guaranteeUnavailable) s
  else match s.residency q x.cls e.sqe with
    | some st => .refuse (refusal st) s
    | none => match s.firstWord q x.cls e.sqe first with
      | .go h s =>
        if (s.placement x h).isEmpty then .refuse (refusal Status.versionMismatch) s
        else if decide (1 ≤ x.cls) && e.sqe.nowait && (!s.lq.limitValid || s.lq.overLimit) then .refuse (refusal Status.energyLimit) s
        else .go h s
      | r => r

/-- ADMIT_START: admission takes the staged START that comes first, and refuses it, places it, or holds it waiting (R206).
`first` supplies the 64-byte line at PROGRAM for a program in host memory. -/
def execAdmitStart (sq : Nat) (first : Rd) (s : State) : Answer :=
  if s.nextStart ≠ some sq then .next s
  else match s.sq sq with
  | none => .next s
  | some q =>
    match q.headStart, q.crew with
    | some e, some k => (match s.crew k with
      | none => .next s
      | some x => match s.checkStart x q e first with
        | .undef => .fault .reservedWord
        | .wait s => .next s
        | .refuse b s => .next (s.refuseStart sq k x.cls e b)
        | .go h s => .next (s.seatStart sq k x q e h))
    | _, _ => .next s

/-- A waiting class-1 START of queue `n` that can no longer meet its DEADLINE ends with ADMIT_REFUSED (R214). -/
def State.retest (s : State) (n : Nat) : State :=
  match s.sq n with
  | none => s
  | some q => match q.headStart, q.crew with
    | some e, some k => (match s.crew k, e.hdr with
      | some x, some (some h) =>
        if x.cls = 1 && e.waiting && !s.qeHolds n && !inTime s.cost h s.now e.sqe.deadline.toNat then
          s.refuseStart n k 1 e (refusal Status.admitRefused)
        else s
      | _, _ => s)
    | _, _ => s

/-- The queues of crew `k`. -/
def State.crewQueues (s : State) (k : Nat) : List Nat := s.qe.sqs.keys (fun _ q => decide (q.crew = some k))

/-- A seat of crew `k` is free for the START of queue `sq`: every other class-1 START of the crew is tested, and this one is placed where
its turn has come (R214). -/
def State.seatFreed (s : State) (sq k : Nat) (x : Crew) (q : Sq) (e : Staged) : State :=
  let s := ((s.crewQueues k).filter (fun n => decide (n ≠ sq))).foldl State.retest s
  if s.crewTurn k x.cls = some sq then s.seatStart sq k x q e (e.hdr.getD none) else s.retest sq

/-- SEAT_FREED_PLACEMENT: a seat has become free for the START of queue `sq`, which waits in admission (R206, R208, R214). -/
def execSeatFreedPlacement (sq : Nat) (s : State) : Answer :=
  match s.sq sq with
  | none => .next s
  | some q =>
    match q.headStart, q.crew with
    | some e, some k => (match s.crew k with
      | none => .next s
      | some x =>
        occurs s (e.waiting && s.queueMode q && s.fnLive q.fn && !s.qeHolds sq
            && (s.seatFor k e.no e.sqe.hint (s.placement x (e.hdr.getD none))).isSome)
          (fun s => s.seatFreed sq k x q e))
    | _, _ => .next s

end Sys2Proof.Machine
end

