-- ==== Sys2Proof/Machine/Media.lean ====
section
/-! DEFINITION. Media management (chapter 8): fast-lane sizes and readiness, the drain of accepted groups, fast-lane pages, the completion of
NAND operations, the class-0 bounds, retention and capacity. -/
namespace Sys2Proof.Machine

/-! ## The fast lane (R240 to R245) -/

def State.flSets (s : State) : List (Nat × StripeSet) := s.mm.sets.filter (fun p => p.2.fastLane)

/-- The unfenced fast-lane LUNs (n_fl counts them). -/
def State.flLive (s : State) : List Nat := (s.flSets.flatMap (fun p => p.2.members)).filter (fun l => !s.lunFenced l)

/-- Fewest unfenced members of any fast-lane stripe set. -/
def State.flMembers (s : State) : Nat :=
  (s.flSets.map (fun p => countP (fun l => !s.lunFenced l) p.2.members)).foldl min 16

/-- q, c, f_ready and f_target of R241. -/
def State.flQuench (s : State) : Nat :=
  let m := s.flMembers
  let l := s.flLive.headD 0
  ceilDiv (34 * mib * m) (s.flLive.length * (m - 1) * (s.rowsPslc l * s.pageBytesOf l))
def State.flC0 (s : State) : Nat :=
  let m := s.flMembers
  ceilDiv (s.sch.rate * fld s.mm.flCfg 0 16 * m) ((m - 1) * (s.flLive.length * s.rowsPslc (s.flLive.headD 0)))
def State.flNeed (s : State) : Nat := s.flQuench + s.flC0
def State.flTarget (s : State) : Nat := max 4 (s.flNeed + fld s.mm.flCfg 16 8)

/-- Longest gap between class-0 slot starts of a table, in ns. -/
def SlotTable.c0Gap (t : SlotTable) : Nat := let ps := c0Positions t.owner; gapsMax ps (ps.headD 0) * 2000

/-- t_md of a fast-lane LUN in ns (R245). -/
def State.flBudgetNs (s : State) (l : Nat) : Nat :=
  let ch := s.chan (l / 32)
  let g := (s.slotTable (l / 32)).c0Gap
  20000 + (s.slotTable 16).c0Gap + (16384 / ch.burst + 3) * g + (s.tSusUs l + s.tProgUs l true) * usNs + 1800

def State.budgetOk (s : State) : Bool := s.flLive.all (fun l => decide (s.flBudgetNs l ≤ 2000000))
def State.quenchOk (s : State) : Bool := s.flLive.all (fun l => decide (s.flQuench ≤ (s.lun l).erased.length))
def State.flLow (s : State) : List Nat := s.flLive.filter (fun l => decide ((s.lun l).erased.length < s.flNeed))

/-- Fewest erased fast-lane blocks on any unfenced fast-lane LUN, saturating at 0xFF. -/
def State.minErased (s : State) : Nat := min 255 ((s.flLive.map (fun l => (s.lun l).erased.length)).foldl min 255)

/-- The conditions of R242. -/
def State.flNow (s : State) : Bool :=
  s.mm.flChecked && decide (16 ≤ s.flLive.length) && s.flLow.isEmpty && s.budgetOk

/-- Evaluate readiness; its fall is posted and reported (R242, Table 8.8). -/
def State.flEval (s : State) : State :=
  let now := s.flNow
  let s' := { s with mm := { s.mm with flReady := now } }
  if s.mm.flReady && !now then
    let causes := bitN (decide (s.flLive.length < 16)) 0 + bitN (!s.flLow.isEmpty) 1 + bitN (!s.budgetOk) 2
    (s'.postEventAll mmBlock 0x0030 (match s.flLow with | l :: t => t.foldl min l | [] => 0xFFFF)
      (BitVec.ofNat 64 (s.minErased + causes * 256))).report 0x1D 0 0 0 0
  else s'

/-! ## The drain (R57, R217, R237) -/

/-- The first write of a group with bytes still in the Landing. -/
def Group.firstLeft (g : Group) : Option (Nat × GWrite) :=
  (g.writes.zipIdx.find? (fun x => decide (0 < x.1.left))).map (fun x => (x.2, x.1))

/-- The object of a write. -/
def WKind.obj : WKind → Option SegKind
  | .record st _ _ _ => some (.stream st)
  | .region r _ _ => some (.region r)
  | .trimStream _ _ => none
  | .trimRegion _ _ _ => none

/-- A write of group `g` has left the Landing and has no page of its own open: it is media-durable (R27). -/
def State.ifDurable (s : State) (g i : Nat) : State :=
  match s.group g with
  | none => s
  | some h => match h.writes[i]? with
    | some w => if h.sealed && w.durable then s.markDurable g h.sealNo w else s
    | none => s

/-- The record of a write lies in segment `n` from now on, on these pages and those before. -/
def State.locateRec (s : State) (st seq n : Nat) (ps : List (Nat × Nat × Nat)) : State :=
  s.updStream st (fun x => { x with recs := x.recs.map (fun (r : Rec) =>
    if r.seq = seq then { r with seg := some n, places := r.places ++ ps } else r) })

/-- Unit `u` of a region lies in segment `n` from now on; `order` is the SEAL that wrote it, none for a unit that is only moved. -/
def State.locateUnit (s : State) (r u : Nat) (order : Option Nat) (n : Nat) (ps : List (Nat × Nat × Nat)) : State :=
  s.updRegion r (fun x => { x with units := x.units.upd u (fun v =>
    if (match order with | some o => decide (v.order = o) | none => true) then { v with seg := some n, places := ps } else v) })

/-- Number of an object in MEDIA_FULL, with its kind byte. -/
def SegKind.event : SegKind → Nat × Nat
  | .stream i => (i, 1)
  | .region i => (i, 2)

def SegKind.fullKey (k : SegKind) : Nat := k.event.1 * 4 + k.event.2

/-- MEDIA_FULL, once while the object waits (R256). -/
def State.mediaFull (s : State) (k : SegKind) : State :=
  if s.mm.fullSince.contains k.fullKey then s
  else ({ s with mm := { s.mm with fullSince := k.fullKey :: s.mm.fullSince } }).postEventAll mmBlock 0x0032 k.event.1 (BitVec.ofNat 64 k.event.2)

def State.notFull (s : State) (k : SegKind) : State :=
  { s with mm := { s.mm with fullSince := s.mm.fullSince.filter (fun x => decide (x ≠ k.fullKey)) } }

/-- Largest drain unit. -/
def drainUnit : Nat := 32 * kib

/-- Another group's write to the object has moved in part: its bytes stand together in the segment, so the object waits for it (R237). -/
def State.objectBusy (s : State) (h : Group) (k : SegKind) : Bool :=
  s.lq.groups.any (fun g => decide (g.id ≠ h.id) && g.writes.any (fun w => w.seg.isSome && decide (0 < w.left) && decide (w.kind.obj = some k)))

/-- A unit's bytes are still in the Landing. -/
def State.unitInLanding (s : State) (r u : Nat) : Bool :=
  s.lq.groups.any (fun g => g.sealed && g.writes.any (fun w => !w.released && (match w.kind with
    | .region a off d => decide (a = r) && decide (off / 4096 ≤ u) && decide (u < off / 4096 + d.length / 4096)
    | _ => false)))

/-- Unit `u` as a write leaves it: the write's bytes where it covers the unit, else its accepted content (R57). -/
def Region.merged (x : Region) (off : Nat) (data : List Byte) (u : Nat) : List Byte :=
  if off / 4096 ≤ u ∧ u < off / 4096 + data.length / 4096 then (data.drop ((u - off / 4096) * 4096)).take 4096
  else match x.units.find u with
    | some v => v.data
    | none => List.replicate 4096 0

/-- A 16 KiB mapping unit `m` of write `i` of group `h` goes to a segment, with the rest of the unit as it is accepted (R57); none while the region
waits for a segment. -/
def State.drainMapping (s : State) (h : Group) (i r off : Nat) (data : List Byte) (m : Nat) : Option State :=
  match s.region r, s.ensureSeg (.region r) 16384 with
  | some x, some (g, s) =>
    let unit := fun (s : State) (u : Nat) =>
      let f := State.fillSeg g h.cls h.crew h.deadline (some (h.id, i)) (some u) 4097 (x.merged off data u) s
      let own := decide (off / 4096 ≤ u) && decide (u < off / 4096 + data.length / 4096)
      (f.2.updWrite h.id i (fun w => { w with seg := some g, spots := if own then w.spots.put u (f.1.map (·.1)) else w.spots })).locateUnit r u
        (if own then some h.sealNo else none) g (f.1.map (·.2))
    some (((List.range 4).map (fun k => 4 * m + k)).foldl unit s)
  | _, _ => none

/-- The pages that the read-modify-write of a region write needs: those of the units that it leaves as they are, where NAND alone holds them. -/
def State.mergeReads (s : State) (r off : Nat) (data : List Byte) : List (Nat × Nat × Nat × Nat) :=
  match s.region r with
  | none => []
  | some x =>
    let a := off / 4096
    let b := a + data.length / 4096
    let rest := ((List.range (4 * ceilDiv b 4 - 4 * (a / 4))).map (fun k => 4 * (a / 4) + k)).filter (fun u => !(decide (a ≤ u) && decide (u < b)))
    (rest.flatMap (fun u => match x.units.find u with
      | some v => if s.unitInLanding r u then [] else v.places.map (fun p => (v.seg.getD 0, p))
      | none => [])).eraseDups

/-- One drain unit of a region write: first the reads that its merge needs; then up to two mapping units (R57). -/
def State.drainRegion (s : State) (h : Group) (i : Nat) (w : GWrite) (r off : Nat) (data : List Byte) : Nat × State :=
  if !w.asked then
    let q := State.askReads h.cls h.crew h.deadline (s.mergeReads r off data) s
    (0, q.2.updWrite h.id i (fun w => { w with asked := true, reads := q.1 }))
  else
    let done := (w.kind.media h.cls - w.left) / 16384
    let step := fun (x : Nat × State) (k : Nat) =>
      if x.1 < 16384 * k then x else match x.2.drainMapping h i r off data (off / 16384 + done + k) with
        | some s => (x.1 + 16384, s)
        | none => x
    let x := (List.range (min 2 (w.left / 16384))).foldl step (0, s)
    if x.1 = 0 then (0, s.mediaFull (.region r))
    else (x.1, ((x.2.notFull (.region r)).updWrite h.id i (fun w => { w with left := w.left - x.1 })).journal h.cls h.crew h.deadline)

/-- One drain unit of a record: its segment is opened for the whole of it (R237). -/
def State.drainRecord (s : State) (h : Group) (i : Nat) (w : GWrite) (st seq : Nat) (bs : List Byte) : Nat × State :=
  match (match w.seg with | some g => some (g, s) | none => s.ensureSeg (.stream st) w.left) with
  | none => (0, s.mediaFull (.stream st))
  | some (g, s) =>
    let n := min w.left drainUnit
    let done := bs.length - w.left
    let s := (s.notFull (.stream st)).updWrite h.id i (fun w => { w with left := w.left - n, seg := some g })
    let f := State.fillSeg g h.cls h.crew h.deadline (some (h.id, i)) (if done = 0 then some seq else none) (n + 1) ((bs.drop done).take n) s
    (n, (f.2.locateRec st seq g (f.1.map (·.2))).journal h.cls h.crew h.deadline)

/-- Move one drain unit of group `h` (classes 1 to 3) from the Landing toward a stripe row: the bytes moved and the state; 0
where the object waits for a segment or for reads. A TRIM needs its journal entry only. -/
def State.drain (s : State) (h : Group) : Nat × State :=
  match h.firstLeft with
  | none => (0, s)
  | some (i, w) =>
    match w.kind with
    | .record st seq ts d => s.drainRecord h i w st seq (headerOf st seq ts d h.id ++ d)
    | .region r off d => s.drainRegion h i w r off d
    | _ => (w.left, (((s.updWrite h.id i (fun w => { w with left := 0 })).journal h.cls h.crew h.deadline).ifDurable h.id i).settle)

/-! ## Fast-lane pages (R243, R244, R246) -/

/-- A member's operation can be suspended for a pSLC program (R243). -/
def State.suspendable (s : State) (l : Nat) : Bool :=
  let u := s.lun l
  let open_ := decide (u.suspends < s.susMax l) && (decide (u.suspends = 0) || s.passedUs u.resumedAt (s.tResMinUs l)) && u.above.isNone
  match u.op with
  | .program j => open_ && (match s.mm.jobs.find j with | some x => x.issued | none => false)
  | .erase _ _ => open_
  | _ => false

/-- A LUN can take a class-0 page now: at once, or over its operation. -/
def State.idleLun (s : State) (l : Nat) : Bool := decide ((s.lun l).op = .idle) && (s.lun l).above.isNone
def State.canTake (s : State) (l : Nat) : Bool := s.idleLun l || s.suspendable l

/-- Unfenced members of a set in ascending channel that the open row has not written and that have a block in it. -/
def State.rowMembers (s : State) (x : StripeSet) (r : FlRow) : List Nat :=
  ((List.range 16).map x.member).filter (fun l =>
    x.members.contains l && !s.lunFenced l && !r.written.contains l && (r.blocks.isEmpty || r.blocks.has l))

/-- The open row of a fast-lane set; a first row stands with no blocks. -/
def FlRow.none : FlRow := { written := [], passed := [], page := 0, blocks := [], openAt := .none, seg := 0, xor := [] }
def State.flRow (s : State) (k : Nat) : FlRow := s.mm.flRows.get k FlRow.none

def State.putFlRow (s : State) (k : Nat) (r : FlRow) : State := { s with mm := { s.mm with flRows := s.mm.flRows.put k r } }

/-- The set can take a row on open blocks, or open new ones without touching the last q erased blocks of a LUN. -/
def State.rowReady (s : State) (x : StripeSet) (r : FlRow) : Bool :=
  !r.blocks.isEmpty || ((x.members.filter (fun l => !s.lunFenced l)).all (fun l => decide (s.flQuench < (s.lun l).erased.length)))

/-- The stripe set and member that R243 chooses for a page; the last member of a row is kept for its parity. -/
def State.flChoice (s : State) : Option (Nat × Nat) :=
  let cand := (s.flSets.filter (fun p => s.rowReady p.2 (s.flRow p.1))).map (fun p => (p.1, s.rowMembers p.2 (s.flRow p.1)))
  let cand := cand.filter (fun p => decide (2 ≤ p.2.length))
  let pick := fun (ok : Nat → Bool) => cand.findSome? (fun p => (p.2.find? ok).map (fun l => (p.1, l)))
  match pick s.idleLun with
  | some c => some c
  | none => pick s.suspendable

/-- The erased fast-lane block of a LUN with the lowest pSLC erase count (R247). -/
def State.coolestFl (s : State) (l : Nat) : Option Nat := minBy (fun b => s.mm.erases.get (blockKey l b true) 0) (s.lun l).erased

/-- Open a fast-lane block on every unfenced member of the set (R243). -/
def State.openFlBlocks (s : State) (k : Nat) (x : StripeSet) : State :=
  let take := fun (st : State × Tbl Nat) (l : Nat) => match st.1.coolestFl l with
    | some b => (st.1.updLun l (fun u => { u with erased := u.erased.erase b }), st.2.put l b)
    | none => st
  let (s, blocks) := (x.members.filter (fun l => !s.lunFenced l)).foldl take (s, [])
  (({ s with mm := { s.mm with nextFl := s.mm.nextFl + 1 } }).putFlRow k { FlRow.none with blocks := blocks, seg := segKeys + s.mm.nextFl }).flEval

/-- Give LUN `l` to a class-0 page job: at once when it is idle, else over the operation that it runs, which is suspended first (R244). -/
def State.claimLun (s : State) (l id : Nat) : State :=
  s.updLun l (fun u => if u.op = .idle then { u with op := .program id, opAt := s.tick, suspends := 0 } else { u with above := some id })

/-- Program the page of a job on member `l` of set `k`, in its open row; its content joins the row's parity. -/
def State.flPage (s : State) (k l id : Nat) (j : PageJob) : State :=
  let r := s.flRow k
  let j := { j with lun := l, block := r.blocks.get l 0, page := r.page, suspends := decide ((s.lun l).op ≠ .idle), issued := false }
  ((s.addJob id j).claimLun l id).putFlRow k { r with written := l :: r.written, openAt := some (r.openAt.getD s.tick), xor := xorBytes r.xor j.data }

/-- A page of the open row of a fast-lane set for class 0 (kinds 7 data, 8 pad, 3 parity). -/
def FlRow.job (r : FlRow) (l kind crew bytes : Nat) (data obj : List Byte) (pos : Option Nat) (group : Nat) (ws : List (Nat × Nat)) : PageJob :=
  { PageJob.plain kind 0 crew 0 l 0 r.page r.seg r.page with
    bytes := bytes, data := data, writes := ws, tag := pageTag (r.seg % segKeys) r.page (l / 32) kind obj (r.seg - segKeys) pos group }

/-- A full row is closed: the next row begins, on new blocks once these are used up. -/
def State.nextFlRow (s : State) (k : Nat) (x : StripeSet) : State :=
  let r := s.flRow k
  if !(s.rowMembers x r).isEmpty then s
  else if r.page + 1 < s.rowsPslc (x.members.headD 0) then
    s.putFlRow k { r with written := [], passed := [], page := r.page + 1, openAt := none, xor := [] }
  else
    let retire := fun (s : State) (b : Nat × Nat) => s.updLun b.1 (fun u => { u with used := u.used ++ [(b.2, r.seg)] })
    (r.blocks.foldl retire s).putFlRow k FlRow.none

/-- The crew whose group wrote the last page of a fast-lane row (R198). -/
def State.flCrew (s : State) (r : FlRow) : Nat :=
  match s.lq.groups.find? (fun h => h.writes.any (fun w => w.rows.contains (r.seg, r.page))) with | some h => h.crew | none => 0

/-- The last unwritten member of a row receives its parity, once its LUN can take a page (R243); where fences and retirements have left none, the
parity goes to a member of another row (R246). -/
def State.flParity (s : State) (k : Nat) (x : StripeSet) : Option State :=
  let r := s.flRow k
  match s.rowMembers x r with
  | [l] =>
    if r.openAt.isSome && s.canTake l then
      let (id, s) := s.freshJob
      let j := r.job l 3 (s.flCrew r) 0 (padPage id (s.pageBytesOf l) r.xor) [0, 0] none 0 []
      some ((s.flPage k l id j).nextFlRow k x)
    else none
  | [] =>
    if r.openAt.isSome then
      let (id, s) := s.freshJob
      let j := r.job 0 3 (s.flCrew r) 0 (padPage id (s.pageBytesOf (x.members.headD 0)) r.xor) [0, 0] none 0 []
      some (({ s with mm := { s.mm with jobs := s.mm.jobs.put id j } }).nextFlRow k x)
    else none
  | _ => none

/-- What of a group joins one page with `room` bytes left: of each write its index, the bytes before, and how many (R243). -/
def pageParts : Nat → List (GWrite × Nat) → List (Nat × Nat × Nat)
  | _, [] => []
  | room, (w, i) :: t =>
    if w.left = 0 ∨ room = 0 ∨ w.kind.obj.isNone then pageParts room t
    else (i, w.kind.media 0 - w.left, min w.left room) :: pageParts (room - min w.left room) t

/-- Bytes of a write of group `g` as they stand in the Landing. -/
def WKind.content (g : Nat) : WKind → List Byte
  | .record st seq ts d => headerOf st seq ts d g ++ d
  | .region _ _ d => d
  | _ => []

/-- Position field of a page that begins with a part of a write (Table 8.2). -/
def WKind.position (off : Nat) : WKind → Option Nat
  | .record _ seq _ _ => if off = 0 then some seq else none
  | .region _ a _ => some ((a + off) / 4096)
  | _ => none

/-- One part of a page leaves the Landing: page `id` at `place` holds it. -/
def State.flTake (s : State) (h : Group) (r : FlRow) (id : Nat) (place : Nat × Nat × Nat) (p : Nat × Nat × Nat) : State :=
  let s := s.updWrite h.id p.1 (fun w => { w with left := w.left - p.2.2, pages := id :: w.pages
                                                  rows := if w.rows.contains (r.seg, r.page) then w.rows else (r.seg, r.page) :: w.rows })
  match (h.writes[p.1]?).map (fun (w : GWrite) => w.kind) with
  | some (WKind.record st seq _ _) => s.locateRec st seq r.seg [place]
  | some (WKind.region g off _) =>
    (s.updWrite h.id p.1 (fun w => { w with spots := w.spots.put (off / 4096) [id] })).locateUnit g (off / 4096) (some h.sealNo) r.seg [place]
  | _ => s

/-- Program one page of class-0 group `h` on the member of R243: its records join the page. Nothing where no member qualifies. Each part is encrypted
as units of its own, numbered by its place in the set (log 95). -/
def State.flWrite (s : State) (h : Group) : Option State :=
  match s.flChoice with
  | none => none
  | some (k, l) =>
    match s.mm.sets.find k with
    | none => none
    | some x =>
      let s := if (s.flRow k).blocks.isEmpty then s.openFlBlocks k x else s
      let r := s.flRow k
      let size := s.pageBytesOf l
      let parts := pageParts size h.writes.zipIdx
      let (id, s) := s.freshJob
      let index := (r.page * 16 + l / 32) * (size / 4096)
      let bytes := fun (p : Nat × Nat × Nat) => match h.writes[p.1]? with
        | some w => (match w.kind.obj with
          | some o => s.atRest o (index + p.1 * 65536) (((w.kind.content h.id).drop p.2.1).take p.2.2)
          | none => [])
        | none => []
      let data := parts.flatMap bytes
      let first := match parts with | p :: _ => (h.writes[p.1]?).map (fun (w : GWrite) => (w.kind.obj, w.kind.position p.2.1)) | [] => none
      let obj : List Byte := match first with | some (some o, _) => SegKind.tagBytes o | _ => [0, 0]
      let j := r.job l 7 h.crew data.length (padPage id size data) obj (first.bind (·.2)) h.id (parts.map (fun p => (h.id, p.1)))
      let place := (l, r.blocks.get l 0, r.page)
      let s := parts.foldl (fun s p => s.flTake h r id place p) s
      let s := s.flPage k l id j
      some (((s.flParity k x).getD s).journal 0 h.crew 0)

/-! ## Completion of NAND operations (R27, R31, R246, R248) -/

/-- Every write of group `g` whose record is meant leaves its page `id`. -/
def State.pagePassed (s : State) (id : Nat) (ws : List (Nat × Nat)) : State :=
  ws.foldl (fun s w => (s.updWrite w.1 w.2 (fun x => { x with pages := x.pages.erase id })).ifDurable w.1 w.2) s

/-- The parity of a row has been programmed (R31). -/
def State.parityPassed (s : State) (seg row : Nat) : State :=
  let f := fun (w : GWrite) => { w with rows := w.rows.filter (fun r => decide (r ≠ (seg, row))) }
  { s with lq := { s.lq with groups := s.lq.groups.map (fun g => { g with writes := g.writes.map f }) } }

/-- The task that owns a job has one less to wait for. -/
def State.taskJobDone (s : State) (id : Nat) : State :=
  let f := fun (t : Task) => { t with jobs := t.jobs.erase id }
  { s with mm := { s.mm with running := s.mm.running.map f, tasks := s.mm.tasks.map f } }

def State.dropJob (s : State) (id : Nat) : State := ({ s with mm := { s.mm with jobs := s.mm.jobs.del id } }).taskJobDone id

/-- Start the next Quench page that waits for LUN `l` (R279): the sequencer needs no slot. -/
def State.kickQuench (s : State) (l : Nat) : State :=
  if s.idleLun l && !s.lunFenced l then
    match s.mm.jobs.find? (fun p => decide (p.2.kind = 6) && decide (p.2.lun = l) && !p.2.issued) with
    | some (id, j) =>
      let s := { s with mm := { s.mm with jobs := s.mm.jobs.put id { j with issued := true } } }
      (s.updLun l (fun u => { u with op := .program id, opAt := s.tick })).program j
    | none => s
  else s

/-- Quench unit `u` has passed, or goes to the next member of the Quench set, its LUN leaving the set (R279). -/
def State.unitDone (s : State) (u : Nat) (pass : Bool) : State :=
  let upd := fun (s : State) (f : QUnit → QUnit) => { s with lq := { s.lq with units := s.lq.units.mapIdx (fun i x => if i = u then f x else x) } }
  if pass then upd s (fun x => { x with programmed := true })
  else
    let l := match s.lq.units[u]? with | some x => x.lun | none => 0
    let s := { s with lq := { s.lq with quenchSet := s.lq.quenchSet.erase l } }
    let next := match s.lq.quenchSet.find? (fun k => decide (l < k)) with | some k => k | none => s.lq.quenchSet.headD l
    let move := fun (x : QUnit) => if x.lun = l && !x.programmed then { x with lun := next, place := none, taken := false, moved := false } else x
    { s with lq := { s.lq with units := s.lq.units.map move }
             mm := { s.mm with jobs := s.mm.jobs.sel (fun _ j => !(decide (j.kind = 6) && decide (j.lun = l) && !j.issued)) } }

/-- A page job passed. -/
def State.jobPassed (s : State) (id : Nat) (j : PageJob) : State :=
  let s := s.dropJob id
  if j.kind = 6 then (s.unitDone j.row true).kickQuench j.lun
  else if j.kind = 11 then s
  else if j.kind = 4 then s.journalWritten j.bytes
  else
    let s := s.updSeg j.seg (fun g => { g with programmedAt := s.mm.retClock, heatAt := s.mm.heat, age := 0 })
    (if j.kind = 3 then s.parityPassed j.seg j.row else s.pagePassed id j.writes).settle

/-- The bytes of a write go back to the Landing copy, to be written elsewhere as a whole (R31). -/
def State.writeAgain (s : State) (w : Nat × Nat) : State :=
  let s := match (s.group w.1).bind (fun h => h.writes[w.2]?) with
    | some x => (match x.kind with
      | .record st seq _ _ => s.updStream st (fun y => { y with recs := y.recs.map (fun (r : Rec) => if r.seq = seq then { r with seg := none, places := [] } else r) })
      | _ => s)
    | none => s
  let cls := match s.group w.1 with | some h => h.cls | none => 2
  s.updWrite w.1 w.2 (fun x => if x.durable then x else { GWrite.fresh cls x.kind x.charge with released := x.released })

/-- What lay on page `a` lies on page `b` of segment `n` from now on. -/
def State.movePlace (s : State) (ws : List (Nat × Nat)) (a b : Nat × Nat × Nat) (n : Nat) : State :=
  let mv := fun (ps : List (Nat × Nat × Nat)) => ps.map (fun p => if p = a then b else p)
  ws.foldl (fun s w => match (s.group w.1).bind (fun h => h.writes[w.2]?) with
    | some x => (match x.kind with
      | .record st seq _ _ => s.updStream st (fun y => { y with recs := y.recs.map (fun (r : Rec) =>
          if r.seq = seq ∧ r.places.contains a then { r with places := mv r.places, seg := some n } else r) })
      | .region r _ _ => s.updRegion r (fun y => { y with units := y.units.all (fun _ v => if v.places.contains a then { v with places := mv v.places, seg := some n } else v) })
      | _ => s)
    | none => s) s

/-- Another page of a write lies in the row of page `a`. -/
def State.alsoInRow (s : State) (w : Nat × Nat) (seg : Nat) (a : Nat × Nat × Nat) : Bool :=
  let here := fun (p : Nat × Nat × Nat) => decide (p ≠ a) && decide (p.2.2 = a.2.2)
    && (s.mm.flRows.any (fun r => decide (r.2.seg = seg) && decide (r.2.blocks.find p.1 = some p.2.1)) || (s.lun p.1).used.contains (p.2.1, seg))
  match (s.group w.1).bind (fun h => h.writes[w.2]?) with
  | some x => (match x.kind with
    | .record st seq _ _ => (match s.stream st with | some y => y.recs.any (fun r => decide (r.seq = seq) && r.places.any here) | none => false)
    | _ => false)
  | none => false

/-- A tag that names another row and channel, its CRC-32C computed again. -/
def retag (tag : List Byte) (seg row ch gen : Nat) : List Byte :=
  let t := tag.take 2 ++ leBytes 2 seg ++ leBytes 2 row ++ leBytes 1 ch ++ (tag.drop 7).take 5 ++ leBytes 4 gen ++ (tag.drop 16).take 12
  t ++ leBytes 4 (crc32c t).toNat

/-- A fast-lane page is written again at once on the member that R243 chooses now: data joins that row and waits for its parity instead of the old
row's; a parity page stays the parity of its own row (R31, R246). -/
def State.flAgain (s : State) (id : Nat) (j : PageJob) : Option State :=
  match s.flChoice with
  | none => none
  | some (k, l) => match s.mm.sets.find k with
    | none => none
    | some x =>
      let s := if (s.flRow k).blocks.isEmpty then s.openFlBlocks k x else s
      let r := s.flRow k
      let old := (j.lun, j.block, j.page)
      let place := (l, r.blocks.get l 0, r.page)
      if j.kind = 3 then
        let s := s.flPage k l id { j with tag := retag j.tag (j.seg % segKeys) j.row (l / 32) (j.seg - segKeys) }
        some ((s.flParity k x).getD s)
      else
        let s := j.writes.foldl (fun s w =>
          let keep := s.alsoInRow w j.seg old
          s.updWrite w.1 w.2 (fun y => { y with rows := ((y.rows.filter (fun q => keep || decide (q ≠ (j.seg, j.row)))) ++ [(r.seg, r.page)]).eraseDups })) s
        let s := (s.movePlace j.writes old place r.seg).flPage k l id
          { j with seg := r.seg, row := r.page, tag := retag j.tag (r.seg % segKeys) r.page (l / 32) (r.seg - segKeys) }
        some ((s.flParity k x).getD s)

/-- The first fast-lane parity page that waits for a LUN: of a row with one member left, or one to be written again. -/
def State.flParities (s : State) : Option State :=
  match s.flSets.findSome? (fun p => s.flParity p.1 p.2) with
  | some s => some s
  | none => (s.mm.jobs.find? (fun p => decide (p.2.kind = 3) && decide (segKeys ≤ p.2.seg) && !p.2.issued && decide (p.2.units = 0))).bind
      (fun p => s.flAgain p.1 p.2)

/-- A page job failed: its block is retired and the page is written again, on another fast-lane member at once, or on the
replacement block (R246, R248). Where no member qualifies, the data is written again from the Landing, and a parity page by the next member that can
take one. -/
def State.jobFailed (s : State) (id : Nat) (j : PageJob) : State :=
  let s := s.updChan (j.lun / 32) (fun c => { c with progFails := satAdd 32 c.progFails 1 })
  let s := s.retire j.lun j.block
  if j.kind = 6 then (s.dropJob id).unitDone j.row false
  else if j.kind = 11 then s.dropJob id
  else if j.kind = 4 then (match (s.dropJob id).journalPage j.cls j.crew j.deadline with | some r => r.2 | none => s.dropJob id)
  else if segKeys ≤ j.seg then
    let s := { s with mm := { s.mm with jobs := s.mm.jobs.del id } }
    (match s.flAgain id j with
    | some s => s
    | none => if j.kind = 3 then { s with mm := { s.mm with jobs := s.mm.jobs.put id { j with issued := false, units := 0 } } }
        else j.writes.foldl State.writeAgain s).flEval
  else
    let b := match s.mm.segs.find j.seg with | some g => g.blocks.get j.lun 0 | none => j.block
    (({ s with mm := { s.mm with jobs := s.mm.jobs.del id } }).movePlace j.writes (j.lun, j.block, j.page) (j.lun, b, j.page) j.seg).addJob id
      { j with block := b, suspends := false, issued := false }

/-- The job whose program runs in the array of a LUN: the pSLC program over a suspended operation, else its own; an operation whose suspend has not
taken hold can still complete (R244). -/
def State.progJob (s : State) (l : Nat) : Option (Nat × PageJob) :=
  let u := s.lun l
  let issued := fun (i : Nat) => match s.mm.jobs.find i with | some j => if j.issued then some (i, j) else none | none => none
  match u.above.bind issued, u.op with
  | some x, _ => some x
  | none, .program j => issued j
  | none, .progSusp j => if u.above.isSome then issued j else none
  | none, _ => none

/-- The operation of a LUN is over: the LUN is idle, or goes to the class-0 page that was to be programmed over it, which needs no suspend where none
was issued yet (R244). -/
def State.underDone (s : State) (l : Nat) : State :=
  let u := s.lun l
  match u.above with
  | none => s.updLun l (fun u => { u with op := .idle, suspends := 0 })
  | some id =>
    let sent := match u.op with | .progSusp _ => true | .eraseSusp _ _ => true | _ => false
    let s := s.updLun l (fun u => { u with op := .program id, above := none, suspends := 0 })
    if sent then s else { s with mm := { s.mm with jobs := s.mm.jobs.upd id (fun j => { j with suspends := false, units := j.units - 2 }) } }

/-- The LUN is free of program `id`, which ended. -/
def State.releaseLun (s : State) (l id : Nat) : State :=
  if (s.lun l).above = some id then s.updLun l (fun u => { u with above := none }) else s.underDone l

/-- PAGE_PROGRAM_COMPLETE: a page program ends; passed data becomes media-durable and charges are released (R27, R31). -/
def execPageProgramComplete (lun : Nat) (pass : Bool) (s : State) : Answer :=
  match s.progJob lun with
  | none => .next s
  | some (id, j) =>
    let s := s.releaseLun lun id
    .next (if pass then s.jobPassed id j else s.jobFailed id j)

/-- Life consumed in 0.1 %: the mean TLC erase count over the vendor endurance. -/
def State.lifeTenths (s : State) : Nat :=
  let ls := s.fc.luns.keys (fun _ u => u.present)
  let blocks := sumBy s.blocksOf ls
  let total := sumBy (fun p => if p.1 < 2 ^ 40 then p.2 else 0) s.mm.erases
  total * 1000 / (blocks * s.endurance (ls.headD 0))

/-- LIFE_WARN, once, when life consumed passes 90 %. -/
def State.lifeCheck (s : State) : State :=
  if !s.mm.lifeWarned && decide (900 < s.lifeTenths) then
    ({ s with mm := { s.mm with lifeWarned := true } }).postEventAll mmBlock 0x0033 0xFFFF (BitVec.ofNat 64 s.lifeTenths)
  else s

/-- An erase of block `b` ends: its counts and thresholds start again (R247, R249, R260). -/
def State.eraseDone (s : State) (l b : Nat) (pslc pass : Bool) : State :=
  let s := match s.mm.jobs.find? (fun p => decide (p.2.kind = 9) && decide (p.2.lun = l) && decide (p.2.block = b)) with
    | some p => s.dropJob p.1
    | none => s
  if pass then
    let key := blockKey l b pslc
    let s := { s with mm := { s.mm with erases := s.mm.erases.mod key 0 (satAdd 24 · 1), reads := s.mm.reads.del key, blkThr := s.mm.blkThr.del key } }
    let s := s.updLun l (fun u => if pslc then { u with erased := u.erased ++ [b] } else { u with free := u.free ++ [b] })
    (s.lowChecks l).flEval.lifeCheck
  else
    ((s.updChan (l / 32) (fun c => { c with eraseFails := satAdd 32 c.eraseFails 1 })).retire l b).flEval

/-- BLOCK_ERASE_COMPLETE: a block erase ends; the block counts as erased, or is retired (R242, R247, R248). An erase that ended
before its suspend took hold counts as completed (R244). -/
def execBlockEraseComplete (lun : Nat) (pass : Bool) (s : State) : Answer :=
  let u := s.lun lun
  let waits := match u.above with | some i => (match s.mm.jobs.find i with | some j => !j.issued | none => false) | none => false
  match u.op with
  | .erase b p => .next ((s.underDone lun).eraseDone lun b p pass)
  | .eraseSusp b p => if waits then .next ((s.underDone lun).eraseDone lun b p pass) else .next s
  | _ => .next s

/-- PAGE_READ_COMPLETE: the array time of a page read ends, and its data waits for its bursts (R217). -/
def execPageReadComplete (lun : Nat) (s : State) : Answer :=
  match (s.lun lun).op with
  | .read id => (match s.mm.jobs.find id with
    | some j => occurs s (j.issued && !j.ready) (fun s =>
        { s with mm := { s.mm with jobs := s.mm.jobs.upd id (fun j => { j with ready := true, askedAt := s.tick, units := s.bursts lun }) } })
    | none => .next s)
  | _ => .next s

/-- Twice the vendor maximum of the operation that runs on a LUN, in µs (R393). -/
def State.opLimitUs (s : State) (l : Nat) : Option Nat :=
  let u := s.lun l
  match u.above, u.op with
  | some _, _ => some (2 * s.tProgUs l true)
  | none, .idle => none
  | none, .read _ => some (2 * s.tReadUs l)
  | none, .program j => (match s.mm.jobs.find j with | some x => if x.issued then some (2 * s.tProgUs l (segKeys ≤ x.seg)) else none | none => none)
  | none, .erase _ p => some (2 * s.tErsUs l p)
  | none, _ => none

/-- NAND_OP_TIMEOUT: an operation has run beyond twice its vendor maximum: the LUN is reset, the operation has failed, and it is
reported (R393, class 0x1A). -/
def execNandOpTimeout (lun : Nat) (s : State) : Answer :=
  match s.opLimitUs lun with
  | none => .next s
  | some us =>
    occurs s (s.passedUs (s.lun lun).opAt us) (fun s =>
      let s := (s.drive (.nandReset lun)).report 0x1A 0 kindLun lun 0
      match s.progJob lun with
      | some (id, j) => (s.releaseLun lun id).jobFailed id j
      | none => match (s.lun lun).op with
        | .erase b p => (s.underDone lun).eraseDone lun b p false
        | .read id => (s.updLun lun (fun u => { u with op := .idle })).dropJob id
        | _ => s)

/-- The open row of a fast-lane set is padded and its parity written, at the crew of its data (R238, R243). Members whose LUN can take a page take
it now; the others follow when the event occurs again. -/
def State.closeFlRow (s : State) (k : Nat) (x : StripeSet) : State :=
  let pad := fun (s : State) (l : Nat) =>
    if (s.rowMembers x (s.flRow k)).length ≤ 1 then s
    else
      let (id, s) := s.freshJob
      let r := s.flRow k
      s.flPage k l id (r.job l 8 (s.flCrew r) 0 (padPage id (s.pageBytesOf l) []) [0, 0] none 0 [])
  let s := ((s.rowMembers x (s.flRow k)).filter s.canTake).foldl pad s
  (s.flParity k x).getD s

/-- ROW_CLOSE_TIMEOUT: the oldest data page of an open row is older than ROW_CLOSE_MS: the row is padded and its parity written
(R238). `seg` from 65,536 on names the open row of a fast-lane set. -/
def execRowCloseTimeout (seg : Nat) (s : State) : Answer :=
  let ms := fld s.mm.rowCfg 0 16
  if seg < segKeys then
    match s.mm.segs.find seg with
    | none => .next s
    | some g => occurs s (match g.rowAt with | some t => s.passedMs t ms | none => false) (fun s => s.padRow seg)
  else
    match s.flSets.find? (fun p => decide ((s.flRow p.1).seg = seg)) with
    | some (k, x) => occurs s (match (s.flRow k).openAt with | some t => s.passedMs t ms | none => false) (fun s => s.closeFlRow k x)
    | none => .next s

/-! ## Bounds of class 0 (R4, R388) -/

/-- Raise a passed bound `n` times, or count it while guarantee-lost or BOUND_VOID stands. -/
def State.boundMiss (s : State) (detail fn n : Nat) : State :=
  if s.fcs.lost || s.boundVoid then { s with fcs := { s.fcs with c0Late := satAdd 32 s.fcs.c0Late n } }
  else (List.range n).foldl (fun s _ => s.report 0x1C detail kindFunction (midOf fn) 0) s

/-- Records of a group. -/
def Group.records (g : Group) : Nat := countP (fun w => match w.kind with | .record _ _ _ _ => true | _ => false) g.writes

/-- Nanoseconds from the doorbell on: elapsed time, which no step of device time changes (R4). -/
def State.sinceBell (s : State) (b : Nat) : Nat := s.sinceNs b

/-- The channel that a late group's page is on its way to; which one counts a miss before that is not stated (log 2). -/
def State.missChannel (s : State) (g : Nat) : Nat :=
  match s.mm.jobs.find? (fun p => p.2.writes.any (fun w => decide (w.1 = g))) with
  | some p => p.2.lun / 32
  | none => Config.freeNat s.free % 16

/-- C0_BOUND_MISS: a class-0 record passes its acceptance (detail 1) or media-durable (3) bound, or a program's completion its
posting bound (2); `gid` names the group, or the program (R388). -/
def execC0BoundMiss (detail gid : Nat) (s : State) : Answer :=
  match detail with
  | 1 => (match s.group gid with
    | none => .next s
    | some g => occurs s (decide (g.cls = 0) && !g.sealed && decide (g.late < g.records) && decide (20000 < s.sinceBell g.bell)) (fun s =>
        (s.updGroup gid (fun g => { g with late := g.records })).boundMiss 1 g.fn (g.records - g.late)))
  | 3 => (match s.group gid with
    | none => .next s
    | some g => occurs s (decide (g.cls = 0) && g.sealed && !g.missed && decide (0 < g.records) && !g.durable
          && decide (2000000 < s.sinceBell g.bell)) (fun s =>
        let late := countP (fun w => (match w.kind with | .record _ _ _ _ => true | _ => false) && !w.durable) g.writes
        let ch := s.missChannel gid
        let s := (s.updGroup gid (fun g => { g with missed := true })).updChan ch (fun c => { c with c0Misses := satAdd 32 c.c0Misses late })
        ({ s with free := s.free + 1 }).boundMiss 3 g.fn late))
  | 2 =>
    let run := s.engsWith (fun p => decide (p.pid = gid) && decide (p.cls = 0) && decide (p.phase ≠ .postwait) && (match p.timedBell with
      | some b => decide (40000 < s.sinceBell b) | none => false))
    (match run with
    | e :: _ => (match s.prog e with
      | some p => .next ((s.updProg e (fun p => { p with judged := true })).boundMiss 2 p.fn 1)
      | none => .next s)
    | [] =>
      let late := fun (w : Waiting) => decide (w.pid = gid) && (match w.bell with | some b => decide (40000 < s.sinceBell b) | none => false)
      let clear := fun (w : Waiting) => if late w then { w with bell := none } else w
      match s.qe.cqs.find? (fun q => (q.2.ready ++ q.2.held).any late) with
      | none => .next s
      | some (_, q) =>
        .next (({ s with qe := { s.qe with cqs := s.qe.cqs.all (fun _ q => { q with ready := q.ready.map clear, held := q.held.map clear }) } }).boundMiss 2 q.fn 1))
  | _ => .next s

/-! ## Retention (R50, R52, R55) -/

/-- Bytes of a stream's records in segment `g`. -/
def Stream.bytesIn (x : Stream) (g : Nat) : Nat := sumBy (fun r => if r.seg = some g then 32 + r.payload.length else 0) x.recs

/-- The oldest segment is beyond the stream's limit: KEEP_BYTES counts every segment but the one being written; KEEP_TIME takes
the age of the segment's newest record (Table 2.5, R52). All of its records must be media-durable. -/
def State.overRetained (s : State) (x : Stream) (g : Nat) : Bool :=
  let mine := x.recs.filter (fun r => decide (r.seg = some g))
  let others := x.segs.filter (fun k => match s.mm.segs.find k with | some y => y.closed | none => true)
  mine.all (fun r => r.durable) && !mine.isEmpty &&
    (if x.policy = 0 then others.contains g && decide (x.limit < sumBy x.bytesIn others)
     else if x.policy = 1 then decide (x.limit < s.mm.retClock - mine.foldl (fun m r => max m r.clock) 0)
     else false)

/-- Readers see segment `g` of a stream as released (R55). -/
def State.hideSeg (s : State) (st g : Nat) : State :=
  s.updStream st (fun x =>
    { x with recs := x.recs.map (fun (r : Rec) => if r.seg = some g then { r with gone := true } else r), full := false
             old := (x.recs.filter (fun r => decide (r.seg = some g))).foldl (fun m r => max m (r.seq + 1)) x.old })

/-- Release the oldest segments one at a time while they are beyond the limit; one that a READ_STREAM is reading once that word has ended. -/
def State.retainLoop (st : Nat) : Nat → State → State
  | 0, s => s
  | fuel + 1, s =>
    match s.stream st with
    | none => s
    | some x => match x.segs.find? (fun g => x.live.any (fun r => decide (r.seg = some g))) with
      | none => s
      | some g =>
        if s.overRetained x g then State.retainLoop st fuel (if s.readingSeg st g then s.hideSeg st g else s.releaseSeg st g)
        else s

/-- RETENTION_RELEASE: retention releases the oldest segments of a stream (R50). -/
def execRetentionRelease (stream : Nat) (s : State) : Answer :=
  match s.stream stream with
  | none => .next s
  | some x => .next ((State.retainLoop stream x.segs.length s).releaseGone stream)

/-! ## Capacity (R256) -/

/-- Good TLC blocks of a LUN that no segment holds: free ones, and those that wait for their erase. -/
def State.spareBlocks (s : State) (l : Nat) : Nat :=
  (s.lun l).free.length + (s.mm.jobs.keys (fun _ j => decide (j.kind = 9) && decide (j.lun = l) && !j.pslc)).length

/-- Good TLC segments a set can form, those in use included. -/
def State.setSegs (s : State) (k : Nat) (x : StripeSet) : Nat :=
  (x.members.map s.spareBlocks).foldl min 65536 + countP (fun g => decide (g.2.set = k)) s.mm.segs

/-- MM_CAP_USABLE. -/
def State.capUsable (s : State) : Nat :=
  let low := fld s.mm.capCfg 0 16
  let sets := s.mm.sets.filter (fun p => s.setOpen p.2)
  let n := min segKeys (sumBy (fun p => s.setSegs p.1 p.2 - low) sets)
  let l := match sets with | p :: _ => p.2.members.headD 0 | [] => 0
  n * (15 * s.rowsTlc l * s.pageBytesOf l)

end Sys2Proof.Machine
end

