-- ==== Sys2Proof/Machine/Slots.lean ====
section
/-! DEFINITION. The Scheduler's time (chapter 7): frames, slots, credit arbitration at the flash channels and the drain path,
hold watchdogs. -/
namespace Sys2Proof.Machine

/-! ## Flash channels (R217, R243, R244) -/

/-- Every other page of the row of parity job `j` has been programmed. -/
def State.rowProgrammed (s : State) (id : Nat) (j : PageJob) : Bool :=
  s.mm.jobs.keys (fun i k => decide (i ≠ id) && decide (k.seg = j.seg) && decide (k.row = j.row) && !k.bare) = []

/-- Units of a page program that follow its suspend: command and address, then the bursts. -/
def State.progUnits (s : State) (j : PageJob) : Nat := 1 + s.bursts j.lun

/-- The next unit of a job is its suspend command; or the status read that follows it (R244). -/
def State.atSuspend (s : State) (j : PageJob) : Bool := j.suspends && decide (j.units = s.progUnits j + 2)
def State.atStatus (s : State) (j : PageJob) : Bool := j.suspends && decide (j.units = s.progUnits j + 1)

/-- Job `id` can be granted a bus unit now. The status read after a suspend waits for t_SUS (R244). -/
def State.grantable (s : State) (id : Nat) (j : PageJob) : Bool :=
  let u := s.lun j.lun
  let mine :=
    if j.kind = 0 ∨ j.kind = 10 then (if j.issued then j.ready && decide (u.op = .read id) else s.idleLun j.lun)
    else !j.issued && (s.idleLun j.lun || decide (u.op = .program id) || decide (u.above = some id))
      && (decide (j.kind ≠ 3) || s.rowProgrammed id j) && (!s.atStatus j || s.passedUs u.suspendedAt (s.tSusUs j.lun))
  decide (0 < j.units) && u.present && !s.lunFenced j.lun && mine

/-- The jobs that wait for the bus of channel `t`, in the order of their numbers. -/
def State.busJobs (s : State) (t : Nat) : Tbl PageJob := s.mm.jobs.sel (fun id j => decide (j.lun / 32 = t) && s.grantable id j)

/-- SEAL order of the oldest group whose data a job carries; jobs without any stand last. -/
def State.jobAge (s : State) (j : PageJob) : Nat :=
  j.writes.foldl (fun m w => match s.group w.1 with | some g => min m g.sealNo | none => m) s.lq.nextSeal

/-- Admission order of the program that a job serves (R213). -/
def State.jobPid (s : State) (id : Nat) (j : PageJob) : Nat :=
  match j.writes.head?.bind (fun w => s.group w.1) with
  | some g => g.pid
  | none => match (s.engsWith (fun p => match p.xf with | some x => x.reads.contains id | none => false)).head?.bind s.prog with
    | some p => p.pid
    | none => s.eng.nextPid

/-- The LUN default thresholds are learned again from a scrub read once more than half of the LUN's blocks have moved from the default in the scrub
period; what is learned is free (R260, log 2). -/
def State.relearn (s : State) (l : Nat) : State :=
  let mine := fun (k : Nat) => decide (k % 2 ^ 40 / 2 ^ 24 = l)
  if s.blocksOf l < 2 * countP mine s.mm.thrMoved then
    let i := s.free
    { s with
      free := i + 4
      mm := { s.mm with
        thrMoved := s.mm.thrMoved.filter (fun k => !mine k)
        lunThr := (List.range 4).foldl (fun t k => t.put (4 * l + k) (BitVec.ofNat 8 (Config.freeNat (i + k))).toInt) s.mm.lunThr } }
  else s

/-- A scrub asked for this read. -/
def State.scrubJob (s : State) (id : Nat) : Bool :=
  (s.mm.running.toList ++ s.mm.tasks).any (fun t => decide (t.rank = 8) && t.jobs.contains id)

/-- The data of a page read has come: its codewords are decoded (R249, R252, R258 to R260). -/
def State.readDone (s : State) (id : Nat) (j : PageJob) : State :=
  if j.kind = 10 then s.dropJob id
  else
    let d := s.drawDecode j.lun
    let s' := s.decoded j.lun j.block j.page j.seg j.pslc
    let s' := if s.scrubJob id then ((if s.scrubFinds d then s'.relocate j.seg else s').relearn j.lun) else s'
    s'.dropJob id

def State.putJob (s : State) (id : Nat) (j : PageJob) : State := { s with mm := { s.mm with jobs := s.mm.jobs.put id j } }

/-- The suspend command of a class-0 page (R244). -/
def State.suspendLun (s : State) (l : Nat) : State :=
  let code := match (s.lun l).op with | .erase _ _ => 2 | _ => 0
  let s := s.updLun l (fun u => { u with
    op := match u.op with | .program j => .progSusp j | .erase b p => .eraseSusp b p | o => o
    suspends := u.suspends + 1, suspendedAt := s.tick })
  (s.updChan (l / 32) (fun c => { c with suspends := wrapAdd 32 c.suspends 1 })).drive (.nandSuspend l (s.suspendCode l code))

/-- One bus unit of job `id`: a suspend command, a status read, a command with its address, or a burst. The first claims an idle LUN; the last
issues the operation to the array, or delivers a read (R217, R244). -/
def State.busUnit (s : State) (id : Nat) (j : PageJob) : State :=
  let j' := { j with units := j.units - 1, askedAt := s.tick }
  if j.kind = 9 then
    ((s.putJob id { j' with issued := true }).updLun j.lun (fun u => { u with op := .erase j.block j.pslc, opAt := s.tick, suspends := 0 })).drive
      (.nandErase j.lun j.block j.pslc)
  else if j.kind = 0 ∨ j.kind = 10 then
    if !j.issued then
      ((s.putJob id { j' with issued := true }).updLun j.lun (fun u => { u with op := .read id, opAt := s.tick, suspends := 0 })).drive
        (.nandRead j.lun j.block j.page)
    else if j'.units = 0 then (s.readDone id j).underDone j.lun
    else s.putJob id j'
  else if s.atSuspend j then (s.putJob id j').suspendLun j.lun
  else if s.atStatus j then (s.putJob id j').drive (.nandStatus j.lun)
  else
    let s := if s.idleLun j.lun then s.updLun j.lun (fun u => { u with op := .program id, suspends := 0 }) else s
    if j'.units = 0 then
      let s := (s.putJob id { j' with issued := true }).updLun j.lun (fun u => { u with opAt := s.tick })
      if j.kind = 11 then s else s.program j
    else s.putJob id j'

/-- A LUN of channel `t` whose operation was suspended and whose pSLC page is done. -/
def State.toResume (s : State) (t : Nat) : Option Nat :=
  (s.fc.luns.keys (fun l u => decide (l / 32 = t) && !s.lunFenced l && u.above.isNone
    && (match u.op with | .progSusp _ => true | .eraseSusp _ _ => true | _ => false))).head?

/-- Resume it, as a class-0 bus unit (R244): its time runs again. -/
def State.resumeLun (s : State) (l : Nat) : State :=
  let code := match (s.lun l).op with | .eraseSusp _ _ => 3 | _ => 1
  (s.updLun l (fun u => match u.op with
    | .progSusp j => { u with op := .program j, opAt := s.tick, resumedAt := s.tick }
    | .eraseSusp b p => { u with op := .erase b p, opAt := s.tick, resumedAt := s.tick }
    | _ => u)).drive (.nandResume l (s.suspendCode l code))

/-- What a slot owner does: grants a unit to one of its requests, or has none. -/
abbrev Turn := State → Option State

/-- The first of the turns that has a request. -/
def firstTurn : List Turn → State → State
  | [], s => s
  | f :: t, s => match f s with
    | some s' => s'
    | none => firstTurn t s

/-- The turns of the owners on flash channel `t`. Class 1 goes by deadline, crew and admission (R213); an Anneal grant in an Anneal slot counts in the
Tally and costs no credit (R226). -/
def busC0 (t : Nat) : Turn := fun s =>
  ((s.busJobs t).find? (fun p => decide (p.2.cls = 0))).map (fun p => s.busUnit p.1 p.2)
def busC1 (t : Nat) : Turn := fun s =>
  (minBy (fun p => c1Order p.2.deadline p.2.crew (s.jobPid p.1 p.2)) ((s.busJobs t).filter (fun p => decide (p.2.cls = 1)))).map (fun p => s.busUnit p.1 p.2)
def busCredit (t : Nat) : Turn := fun s =>
  let l := s.busJobs t
  let rs := (l.filterMap (fun p => creditReq p.2.cls p.2.crew)).eraseDups
  match s.richest t rs with
  | none => none
  | some r => (l.find? (fun p => decide (creditReq p.2.cls p.2.crew = some r))).map (fun p =>
      (s.creditGrant t r 1 p.2.askedAt rs).busUnit p.1 p.2)
def busAnneal (t : Nat) : Turn := fun s =>
  ((s.busJobs t).find? (fun p => decide (p.2.cls = 4))).map (fun p => (s.countGrant t annealReq p.2.askedAt).busUnit p.1 p.2)
def busOldest (t : Nat) : Turn := fun s =>
  (minBy (fun p => s.jobAge p.2) ((s.busJobs t).filter (fun p => decide (p.2.cls ≤ 3) && !p.2.bare))).map (fun p => s.busUnit p.1 p.2)

/-! ## The drain path (R217, R222, R243) -/

/-- Drain of one class-0 group: fast-lane pages, its TRIM entries through the journal. -/
def State.drainC0 (s : State) (h : Group) : Option State :=
  match h.firstLeft with
  | some (_, w) => if w.kind.obj.isNone then some (s.drain h).2 else s.flWrite h
  | none => none

/-- A group of class 1 to 3 can move a unit: its merge reads are done, no other group is in the midst of its object, and it needs no segment, or has
one, or one can be opened. -/
def State.drainable (s : State) (h : Group) : Bool :=
  match h.firstLeft with
  | some (_, w) => (match w.kind.obj with
    | none => true
    | some k => !s.objectBusy h k && !w.reads.any (fun i => s.mm.jobs.has i) && (w.seg.isSome && (match w.kind with | .record _ _ _ _ => true | _ => false)
        || (s.ensureSeg k (match k with | .stream _ => w.left | .region _ => 16384)).isSome))
  | none => false

/-- Sealed groups with bytes left in the Landing, oldest SEAL first. -/
def State.drainGroups (s : State) (p : Group → Bool) : List Group :=
  let gs := s.lq.groups.filter (fun h => h.sealed && h.firstLeft.isSome && p h)
  gs.filter (fun h => decide (h.cls = 0) || s.drainable h)

def oldestGroup (l : List Group) : Option Group := minBy (fun h => h.sealNo) l

/-- One drain unit of group `h`; the bytes it moved. -/
def State.drainUnitOf (s : State) (h : Group) : Nat × State :=
  let r := s.drain h
  (r.1, r.2.updGroup h.id (fun g => { g with askedAt := s.tick }))

/-- Class 0: a parity page that waits for a LUN, else a page of the oldest group that can be served. -/
def drainC0Turn : Turn := fun s =>
  match s.flParities with
  | some s => some s
  | none => (s.drainGroups (fun h => decide (h.cls = 0))).findSome? (fun h => s.drainC0 h)
def drainC1Turn : Turn := fun s =>
  (minBy (fun h => c1Order h.deadline h.crew h.pid) (s.drainGroups (fun h => decide (h.cls = 1)))).map (fun h => (s.drainUnitOf h).2)
def drainCreditTurn : Turn := fun s =>
  let l := s.drainGroups (fun h => decide (2 ≤ h.cls))
  let rs := (l.filterMap (fun h => creditReq h.cls h.crew)).eraseDups
  match s.richest 16 rs with
  | none => none
  | some r => (oldestGroup (l.filter (fun h => decide (h.crew = r)))).map (fun h =>
      let d := s.drainUnitOf h
      d.2.creditGrant 16 r (max 1 (ceilDiv d.1 4096)) h.askedAt rs)

/-- The oldest accepted group that can be served, of any class (R222): one after the other in the order of their SEALs. -/
def drainFrom : Nat → List Group → Turn
  | 0, _ => fun _ => none
  | fuel + 1, l => fun s => match oldestGroup l with
    | none => none
    | some h => match (if h.cls = 0 then s.drainC0 h else some (s.drainUnitOf h).2) with
      | some s => some s
      | none => drainFrom fuel (l.erase h) s
def drainOldestTurn : Turn := fun s => let l := s.drainGroups (fun _ => true); drainFrom l.length l s

/-- Objects whose drain waits because no segment can be opened are reported (R256). -/
def State.reportFull (s : State) : State :=
  (s.lq.groups.filter (fun h => h.sealed && decide (h.cls ≠ 0) && h.firstLeft.isSome && !s.drainable h)).foldl (fun s h =>
    match h.firstLeft with
    | some (_, w) => (match w.kind.obj with | some k => s.mediaFull k | none => s)
    | none => s) s

/-! ## Slots (Table 7.5, R217 to R223) -/

/-- The turns of a slot of table `t` with owner `o`, in the order of Table 7.5; while OVER_LIMIT reads 1 credit-pool and Anneal
slots serve the drain (R222). -/
def slotTurns (t o : Nat) (above : Bool) : List Turn :=
  let o := if above && (decide (o = 3) || decide (o = 4)) then 5 else o
  let c0 := if t = 16 then drainC0Turn else busC0 t
  let c1 := if t = 16 then drainC1Turn else busC1 t
  let credit := if t = 16 then drainCreditTurn else busCredit t
  let anneal : Turn := if t = 16 then fun _ => none else busAnneal t
  let oldest := if t = 16 then drainOldestTurn else busOldest t
  match o with
  | 1 => [c0, c1, credit, anneal]
  | 2 => [c1, credit, anneal]
  | 3 => [credit]
  | 4 => if t = 16 then [credit] else [anneal, credit]
  | 5 => [oldest, credit, anneal]
  | _ => []

/-- Put one entry of the active bank. -/
def SlotTable.setActive (t : SlotTable) (i owner : Nat) : SlotTable :=
  if t.activeB then { t with bankB := t.bankB.put i owner } else { t with bankA := t.bankA.put i owner }

/-- Ticks of a slot and of a frame. -/
def slotTicks : Nat := 200
def frameTicks : Nat := 102400

/-- Ticks that a bus unit or drain unit takes: at most 1.8 µs (R217, R220). -/
def unitTicks : Nat := 180

/-- The slot of table `t` that comes next: the present one; or the one after the slot last started, where that slot's unit still ran when it began
(R220). Its entry and the tick of its start. -/
def State.slotNow (s : State) (t : Nat) : Option (Nat × Nat) :=
  match s.sch.frameAt with
  | none => none
  | some f =>
    let k := (s.tick - f) / slotTicks
    let x := s.slotTable t
    let here := (k, f + k * slotTicks)
    if f ≤ s.tick ∧ k < 512 ∧ !s.sch.quenchHeld then
      match x.last with
      | some l => if l + slotTicks < x.busyUntil ∧ f ≤ l ∧ l + slotTicks ≤ s.tick then some ((l + slotTicks - f) / slotTicks, l + slotTicks) else some here
      | none => some here
    else none

/-- A patch takes effect at its entry's next occurrence; one that came in the slot or at its start waits for the next (R219). -/
def SlotTable.patched (t : SlotTable) (k start : Nat) : SlotTable :=
  match t.patch with
  | some (i, o, tk) => if i = k ∧ tk < start then { t.setActive i o with patch := none } else t
  | none => t

/-- Start a slot of table `t`. A slot that had to wait for the unit of the one before is an overrun (R220). -/
def State.startSlot (s : State) (t k start : Nat) : State :=
  let late := decide (start < (s.slotTable t).busyUntil)
  let s := s.updTable t (fun x => { x.patched k start with
    last := some start, overruns := if late then wrapAdd 32 x.overruns 1 else x.overruns })
  let o := (s.slotTable t).owner k
  let s := if t = 16 then s.reportFull else s
  let s := s.updTable t (fun x => { x with busyUntil := s.tick + unitTicks })
  if o = 0 then s
  else match (if t < 16 then s.toResume t else none) with
    | some l => s.resumeLun l
    | none => firstTurn (slotTurns t o s.lq.overLimit) s

/-- The slot of table `t` that has not been started yet and whose bus or drain path is free. -/
def State.slotDue (s : State) (t : Nat) : Option (Nat × Nat) :=
  match s.slotNow t with
  | some (k, start) => if t ≤ 16 ∧ (s.slotTable t).last ≠ some start ∧ (s.slotTable t).busyUntil ≤ s.tick ∧ !s.blocked t then some (k, start) else none
  | none => none

/-- SLOT_START: the 2 µs slot of table `t` grants the start of one bus unit or drain unit to its owner, or to the owner that
Table 7.5 gives the slot next (R217, R226). -/
def execSlotStart (t : Nat) (s : State) : Answer :=
  match s.slotDue t with
  | some (k, start) => .next (s.startSlot t k start)
  | none => .next s

/-- FAST_LANE_PAGE_PROGRAM: the drain path's class-0 slot comes, and a page of the oldest sealed class-0 group is programmed on the
member that R243 chooses. -/
def execFastLanePageProgram (s : State) : Answer :=
  match s.slotDue 16 with
  | some (k, start) =>
    let t := (s.slotTable 16).patched k start
    occurs s (decide (t.owner k = 1) && (drainC0Turn s).isSome) (fun s => s.startSlot 16 k start)
  | none => .next s

/-! ## Frames (R216, R218, R226 to R228) -/

/-- Requesters that wait at an arbiter now (Table 7.8). -/
def State.waitingAt (s : State) (arb : Nat) : List Nat :=
  (if arb < 16 then (s.busJobs arb).filterMap (fun p => creditReq p.2.cls p.2.crew)
   else if arb = 16 then (s.drainGroups (fun h => decide (2 ≤ h.cls))).filterMap (fun h => creditReq h.cls h.crew)
   else if arb < 96 then (s.mover (arb - 32)).readyChans.filterMap (fun p => if 2 ≤ p.2.cls then some p.2.requester else none)
   else (s.lane arb).queue.filterMap (fun j => if 2 ≤ j.cls then some j.requester else none)).eraseDups

/-- The arbiters of Table 7.8. -/
def arbiters : List Nat := List.range 17 ++ (List.range 84).map (· + 32)

/-- A requester's starvation flag is set; where it was clear, the event is posted (R228). -/
def State.starve (s : State) (arb r : Nat) : State :=
  if s.sch.starve.contains r then s
  else
    let s := ({ s with sch := { s.sch with starve := r :: s.sch.starve } }).sets (0x600300 + 4 * (r / 32)) (r % 32)
    match s.crew r with
    | some k => if s.sch.cfg.getLsbD 8 && decide (r < 256) then s.postEvent k.owner 0x0020 r (BitVec.ofNat 64 arb) else s
    | none => s

/-- Count the frame start for the requesters that wait at `arb`; once they have waited since STARVE_FRAMES frame starts, the flag is set. -/
def State.starveCheck (s : State) (arb : Nat) : State :=
  let ws := s.waitingAt arb
  let n := fld s.sch.cfg 0 8
  let s := { s with sch := { s.sch with reqs := s.sch.reqs.all (fun k q => if k / 512 = arb ∧ !ws.contains (k % 512) then { q with starved := 0 } else q) } }
  ws.foldl (fun s r =>
    let c := (s.reqr arb r).starved
    let s := s.updReqr arb r (fun q => { q with starved := c + 1 })
    if n ≤ c then s.starve arb r else s) s

/-- The weights that a refill of this tick takes: a change of the same tick waits for the next (R227). -/
def State.refillWeights (s : State) : Tbl Nat := if s.sch.weightTick = some s.tick then s.sch.weightsWere else s.sch.weights

/-- The refill: weights as they are now, every counter full (R226, R227). -/
def State.refill (s : State) : State :=
  let s := { s with sch := { s.sch with refilled := s.refillWeights } }
  { s with sch := { s.sch with reqs := s.sch.reqs.all (fun k q => { q with credit := s.weightNow (k % 512) * 64 }) } }

/-- A pending swap that came at least 4 µs before the frame start takes effect, after a patch of the outgoing bank (R218). -/
def SlotTable.atFrame (t : SlotTable) (start : Nat) : SlotTable :=
  let t := { t with frames := wrapAdd 16 t.frames 1 }
  match t.swapAt with
  | some k =>
    if k + 400 ≤ start then
      let t := match t.patch with | some (i, o, _) => { t.setActive i o with patch := none } | none => t
      { t with activeB := !t.activeB, swapAt := none }
    else t
  | none => t

/-- Replies to swaps that have taken effect are posted, while the Management Processor runs (R19, R351). -/
def State.swapAnswers (s : State) : State :=
  if !s.mgp.running || s.sch.tables.any (fun t => t.2.swapAt.isSome) then s
  else
    let post := fun (s : State) (r : Nat × Nat × Cqe) =>
      s.updAq r.1 (fun a => { a with
        replies := a.replies ++ [(r.2.1, { r.2.2 with time := s.time56, body := BitVec.ofNat 128 s.sch.frameTime.toNat })] })
    let s' := s.sch.swapReplies.foldl post s
    { s' with
      sch := { s'.sch with swapReplies := [] }
      mgp := { s'.mgp with staged := s'.mgp.staged.filter (fun p => !s.sch.swapReplies.any (fun r => decide (r.2.1 = p.no))) } }

/-- Tick at which the frame that is due starts: every 102,400 ticks from the first tick of Service on (R216, R223). -/
def State.frameDue (s : State) : Option Nat :=
  if s.sch.quenchHeld then none
  else
    let at_ := fun (f : Nat) => f + (s.tick - f) / frameTicks * frameTicks
    match s.sch.frameAt, s.sch.frameFrom with
    | some f, _ => if f + frameTicks ≤ s.tick then some (at_ f) else none
    | none, some f => if f ≤ s.tick then some (at_ f) else none
    | none, none => none

/-- Start a frame. -/
def State.startFrame (s : State) (f : Nat) : State :=
  let s := { s with sch := { s.sch with frameAt := some f, frameTime := s.tmr.time } }
  let tables := (List.range 18).foldl (fun ts t => Tbl.put ts t ((Tbl.get ts t SlotTable.reset).atFrame f)) s.sch.tables
  let s := { s with sch := { s.sch with tables := tables } }
  let s := arbiters.foldl State.starveCheck s
  let s := s.refill.flEval.swapAnswers
  (s.qe.sqs.map (·.1)).foldl State.retest s

/-- FRAME_START: all frames start together: swaps take effect, credit is refilled, starvation and waiting class-1 STARTs are
judged (R214, R216, R218, R226, R228). -/
def execFrameStart (s : State) : Answer :=
  match s.frameDue with
  | some f => .next (s.startFrame f)
  | none => .next s

/-! ## Hold watchdogs (R232) -/

/-- Yard bank ports hold no arbiter id of Table 7.8; the command numbers bank `b` as 128 + b (log 100). -/
def bankArb : Nat := 128

/-- The limit of an arbiter in µs (Table 7.10): none for ids not listed. -/
def State.holdLimit (s : State) (arb : Nat) : Option Nat :=
  if arb < 16 then some (fld s.sch.lim0 0 16)
  else if arb = 16 then some (fld s.sch.lim0 16 16)
  else if 32 ≤ arb ∧ arb < 96 then some (fld s.sch.lim1 0 16)
  else if 96 ≤ arb ∧ arb < 112 then some (fld s.sch.lim1 16 16)
  else if 112 ≤ arb ∧ arb < 116 then some (fld s.sch.lim2 0 16)
  else if bankArb ≤ arb ∧ arb < bankArb + 128 then some 1
  else none

/-- Source class of an arbiter-hold report, by the kind of the holding unit (Table 13.3). -/
def holdClass (kind : Nat) : Nat :=
  if kind = kindEng then 0x14 else if kind = kindMover then 0x15 else if kind = kindChan then 0x16 else 0x17

/-- ARBITER_HOLD: a grant has been held beyond its limit; it is reported, counted and not revoked, and the resource stays blocked for every class until
its holder is fenced. -/
def execArbiterHold (arb kind unit heldUs : Nat) (s : State) : Answer :=
  match s.holdLimit arb with
  | none => .next s
  | some us =>
    occurs s (decide (us < heldUs) && (decide (kind = kindEng) || decide (kind = kindMover) || decide (kind = kindChan) || decide (kind = kindLane) || decide (kind = kindTru)))
      (fun s => ({ s with sch := { s.sch with holdEvents := satAdd 32 s.sch.holdEvents 1, holds := s.sch.holds.put arb (kind, unit) } }).report (holdClass kind) 0 kind unit (BitVec.ofNat 64 arb))

/-- A holder is fenced: what it held is free again. -/
def State.freeHolds (s : State) (kind unit : Nat) : State :=
  { s with sch := { s.sch with holds := s.sch.holds.sel (fun _ h => decide (h ≠ (kind, unit))) } }

end Sys2Proof.Machine
end

