-- ==== Sys2Proof/Machine/Anneal.lean ====
section
/-! DEFINITION. Anneal (R247 to R256, Table 8.5): folds, relocation, compaction, wear levelling, scrubs, and the metadata
checkpoint (R261, R484). -/
namespace Sys2Proof.Machine

/-! ## Checkpoints (R261, R484) -/

/-- The pages of a checkpoint: a row of 15 pSLC pages of kind 0x05 in its area with their parity, the last of them ending with the trailer, the
generation and a CRC-32C over the whole checkpoint (R261). The layout and number of the pages before the trailer are not stated (log 97). -/
def State.driveCheckpoint (s : State) (area : Tbl Nat) (gen : Nat) : State :=
  let ls := s.areaLuns
  let size := s.pageBytesOf (ls.headD 0)
  let k := s.mm.nextJob
  let pages := (List.range 14).map (fun i => padPage (k + i) size []) ++ [padPage (k + 14) (size - 12) [] ++ leBytes 8 gen]
  let data := pages.take 14 ++ [pages.getD 14 [] ++ leBytes 4 (crc32c pages.flatten).toNat]
  let data := data ++ [data.foldl xorBytes []]
  let put := fun (s : State) (x : Nat × Nat × List Byte) =>
    let tag := pageTag 0 0 (x.1 / 32) (if x.2.1 = 15 then 3 else 5) [0, 0] gen none 0
    ((s.drive (.nandErase x.1 (area.get x.1 0) true)).program { PageJob.plain 5 4 256 0 x.1 (area.get x.1 0) 0 0 0 with data := x.2.2, tag := tag })
  let s := { s with mm := { s.mm with nextJob := k + 15 } }
  (ls.zip ((List.range 16).zip data)).foldl put s

/-- Write a checkpoint into the area not written last; `quench` is the Quench generation consumed so far (R288). What the journal
held unwritten is in it. -/
def State.writeCheckpoint (s : State) (mark : Bool) (quench : Nat) : State :=
  let g := s.mm.ckptGen + 1
  let c : Checkpoint := { gen := g, time := s.tmr.time, mc := [1, 2, 3].map (fun k => s.psv.mc.get k 0), mark := mark, quench := quench }
  let toB := match s.mm.ckptA, s.mm.ckptB with
    | some a, some b => decide (b.gen < a.gen)
    | some _, none => true
    | none, _ => false
  let s := s.driveCheckpoint (if toB then s.mm.areaB else s.mm.areaA) g
  { s with mm := { s.mm with
    ckptA := if toB then s.mm.ckptA else some c, ckptB := if toB then some c else s.mm.ckptB
    ckptGen := g, ckptTick := s.tick, ckptOpen := none, jSince := 0, jHeld := 0, jPage := 0, annealPaused := false, landingEmpty := mark } }

/-- The Quench generation that the current checkpoint has consumed. -/
def State.consumed (s : State) : Nat := match s.mm.current with | some c => c.quench | none => 0

/-- A checkpoint is due: INTERVAL_S seconds, or JOURNAL_MIB of journal, since the last one. -/
def State.ckptDue (s : State) : Bool :=
  decide (fld s.mm.ckptCfg 0 16 * (1000 * msNs) ≤ s.sinceNs s.mm.ckptTick) || decide (fld s.mm.ckptCfg 16 16 * mib ≤ s.mm.jSince)

/-- Modes in which MM writes metadata on its own. -/
def State.mmWrites (s : State) : Bool := s.inMode [.service, .degraded, .update, .provision, .diagnostic]

/-- A checkpoint of the running part: one written in Provision or Diagnostic carries the mark (R484). -/
def State.checkpointNow (s : State) : State :=
  let t := s.writeCheckpoint (s.inMode [.provision, .diagnostic]) s.consumed
  { t with mm := { t.mm with ckptOpen := some s.tick } }

/-- t0 comes before a checkpoint of the running part has been erased for and programmed: its trailer is missing, and the other one is
current (R261, R278). -/
def State.tornCheckpoint (s : State) (reset : Bool) : State :=
  match s.mm.ckptOpen with
  | none => s
  | some t =>
    let l := s.areaLuns.headD 0
    let us := s.tErsUs l true + (if reset || (s.lun l).fastLane then s.tProgUs l true else 0)
    if us * usNs ≤ s.sinceNs t then s
    else if s.mm.inB then { s with mm := { s.mm with ckptB := none } }
    else { s with mm := { s.mm with ckptA := none } }

/-- CHECKPOINT_WRITE: a metadata checkpoint that is due is written into the other area (R261). -/
def execCheckpointWrite (s : State) : Answer := occurs s (s.mmWrites && s.ckptDue) State.checkpointNow

/-! ## Periods (R250, R252) -/

def dayNs : Nat := 24 * 3600 * 1000 * msNs

/-- SCRUB_PERIOD: a segment's scrub comes due and is queued. -/
def execScrubPeriod (seg : Nat) (s : State) : Answer :=
  match s.mm.segs.find seg with
  | none => .next s
  | some g =>
    occurs s (decide (fld s.mm.retCfg 12 8 * dayNs ≤ s.mm.retClock - g.scrubAt)) (fun s =>
      s.queueTask (Task.fresh 8 seg 0 0))

/-- RET_DAYS in force: 0 names the vendor table's value (Table 8.13). -/
def State.retDays (s : State) (g : Segment) : Nat :=
  if fld s.mm.retCfg 0 12 ≠ 0 then fld s.mm.retCfg 0 12 else leAt (s.vendor (s.segLun g)) 88 2

def hourNs : Nat := 3600 * 1000 * msNs

/-- What an hour adds to the age by an on-die sensor, between two times of the retention clock (Table 8.4). -/
def dieAge (l a b : Nat) : Nat :=
  sumBy (fun h => ageWeight (10 * Config.dieTemp l (a / hourNs + h)) * hourNs) (List.range (b / hourNs - a / hourNs))

/-- Members of a segment's stripe set. -/
def State.segMembers (s : State) (g : Segment) : List Nat := match s.mm.sets.find g.set with | some x => x.members | none => []

/-- The retention age of a segment: by the hottest of its LUNs where the vendor table defines a sensor on the die, else by the part's junction
temperature less T_OFFSET (R250). -/
def State.retAge (s : State) (g : Segment) : Nat :=
  let ls := (s.segMembers g).filter s.dieSensor
  g.age + (if ls.isEmpty then s.mm.heat - g.heatAt else (ls.map (fun l => dieAge l g.programmedAt s.mm.retClock)).foldl max 0)

/-- RETENTION_REFRESH_DUE: the weighted age of a segment reaches RET_DAYS (R250). -/
def execRetentionRefreshDue (seg : Nat) (s : State) : Answer :=
  match s.mm.segs.find seg with
  | none => .next s
  | some g => occurs s (decide (s.retDays g * dayNs ≤ s.retAge g)) (fun s => s.queueTask (Task.fresh 4 seg 0 0))

/-! ## Moving data (R253 to R255) -/

def State.setTask (s : State) (x : Option Task) : State := { s with mm := { s.mm with running := x } }

/-- A page lies in block `b` of LUN `l`. -/
def onBlock (l b : Nat) (p : Nat × Nat × Nat) : Bool := decide (p.1 = l) && decide (p.2.1 = b)

/-- The current records, and the current units, that have a page meeting `on`: their numbers and their pages with their segment. -/
def State.recsOn (s : State) (on : Option Nat → Nat × Nat × Nat → Bool) : List ((Nat × Nat) × List (Nat × Nat × Nat × Nat)) :=
  s.mm.streams.flatMap (fun x => (x.2.live.filter (fun r => r.places.any (on r.seg))).map (fun r =>
    ((x.1, r.seq), r.places.map (fun p => (r.seg.getD 0, p)))))
def State.unitsOn (s : State) (on : Option Nat → Nat × Nat × Nat → Bool) : List ((Nat × Nat) × List (Nat × Nat × Nat × Nat)) :=
  s.mm.regions.flatMap (fun x => (x.2.units.filter (fun u => u.2.places.any (on u.2.seg))).map (fun u =>
    ((x.1, u.1), u.2.places.map (fun p => (u.2.seg.getD 0, p)))))

/-- A task asks for the reads of the data that it moves: the pages that hold current records or units (R253). -/
def State.askTask (s : State) (t : Task) (on : Option Nat → Nat × Nat × Nat → Bool) : State :=
  let pages := ((s.recsOn on).flatMap (·.2) ++ (s.unitsOn on).flatMap (·.2)).eraseDups
  let q := State.askReads 4 annealReq 0 pages s
  q.2.setTask (some { t with stage := .read, jobs := q.1 })

/-- Put Anneal data into segment `n`. -/
def State.annealFill (s : State) (n : Nat) (pos : Nat) (bs : List Byte) : List Spot × State :=
  State.fillSeg n 4 annealReq 0 none (some pos) (bs.length + 1) bs s

/-- Copy one record to a segment that `pick` gives; the task notes where it will lie. -/
def State.copyRec (pick : SegKind → Nat → State → Option (Nat × State)) (x : Task × State) (k : Nat × Nat) : Task × State :=
  match (x.2.stream k.1).bind (fun st => st.recs.find? (fun r => decide (r.seq = k.2))) with
  | none => x
  | some r =>
    let bs := recHeader k.1 r ++ r.payload
    match pick (.stream k.1) bs.length x.2 with
    | none => ({ x.1 with stage := .fresh }, x.2.mediaFull (.stream k.1))
    | some (n, s) =>
      let f := s.annealFill n k.2 bs
      ({ x.1 with recs := x.1.recs ++ [(k, n, f.1.map (·.2))], jobs := x.1.jobs ++ f.1.map (·.1) }, f.2)

/-- Key of a region unit in a task: the region with the unit, and the SEAL that wrote the content that was copied. -/
def unitKey (r u order : Nat) : Nat × Nat := (r * 2 ^ 32 + u, order)

/-- Copy the 16 KiB mapping unit `m` of a region. -/
def State.copyMapping (pick : SegKind → Nat → State → Option (Nat × State)) (x : Task × State) (k : Nat × Nat) : Task × State :=
  match x.2.region k.1, pick (.region k.1) 16384 x.2 with
  | some r, some (n, s) =>
    ((List.range 4).map (fun i => 4 * k.2 + i)).foldl (fun x u =>
      let f := x.2.annealFill n u (r.merged 0 [] u)
      (match r.units.find u with
        | some v => { x.1 with units := x.1.units ++ [(unitKey k.1 u v.order, n, f.1.map (·.2))], jobs := x.1.jobs ++ f.1.map (·.1) }
        | none => { x.1 with jobs := x.1.jobs ++ f.1.map (·.1) }, f.2)) (x.1, s)
  | some _, none => ({ x.1 with stage := .fresh }, x.2.mediaFull (.region k.1))
  | none, _ => x

/-- Write what a task has read: records in sequence order, region units by mapping unit (R253). Where no segment can be opened the task waits. -/
def State.writeTask (s : State) (t : Task) (on : Option Nat → Nat × Nat × Nat → Bool) (pick : SegKind → Nat → State → Option (Nat × State)) : Task × State :=
  let t := { t with stage := .moved, jobs := [], recs := [], units := [] }
  let x := ((s.recsOn on).map (·.1)).foldl (State.copyRec pick) (t, s)
  let x := (((s.unitsOn on).map (fun u => (u.1.1, u.1.2 / 4))).eraseDups).foldl (State.copyMapping pick) x
  ({ x.1 with jobs := (x.1.jobs.eraseDups).filter (fun i => x.2.mm.jobs.has i || x.2.mm.segs.any (fun g => decide (g.2.pageId = i) && !g.2.page.isEmpty)) }, x.2)

/-- The journal entry of a move is written (R254, R262). -/
def State.logTask (s : State) (t : Task) : State :=
  let s := s.journal 4 annealReq 0
  match s.journalPage 4 annealReq 0 with
  | some (id, s) => s.setTask (some { t with stage := .logged, jobs := [id] })
  | none => s.setTask (some { t with stage := .logged, jobs := [] })

/-- The move takes effect: what is still current lies in its new place from now on (R254). -/
def State.applyMoves (s : State) (t : Task) : State :=
  let s := t.recs.foldl (fun s m => s.updStream m.1.1 (fun x => { x with recs := x.recs.map (fun (r : Rec) =>
    if r.seq = m.1.2 then { r with seg := some m.2.1, places := m.2.2 } else r) })) s
  t.units.foldl (fun s m => s.updRegion (m.1.1 / 2 ^ 32) (fun x => { x with units := x.units.upd (m.1.1 % 2 ^ 32) (fun (v : RUnit) =>
    if v.order = m.1.2 ∧ !v.places.isEmpty then { v with seg := some m.2.1, places := m.2.2 } else v) })) s

/-- A read in progress references one of these blocks (R254). -/
def State.readsBlocks (s : State) (bs : List (Nat × Nat)) : Bool :=
  s.mm.jobs.any (fun j => decide (j.2.kind = 0) && bs.contains (j.2.lun, j.2.block))
  || s.eng.engines.any (fun g => match g.2.prog with
    | some p => (match p.xf with | some x => x.reads.any (fun i => s.mm.jobs.has i && (match s.mm.jobs.find i with | some j => bs.contains (j.lun, j.block) | none => false)) | none => false)
    | none => false)

/-- A unit of a fold of fast-lane block (lun, block): its current records and units go to the segments of their objects, the journal entry is written,
and the block is erased (R253, R254). A good TLC block that joins the fast lane is erased in pSLC mode (R241). -/
def State.foldUnit (s : State) (t : Task) : State :=
  let on := fun (_ : Option Nat) => onBlock t.lun t.block
  let u := s.lun t.lun
  if u.free.contains t.block then
    ((s.updLun t.lun (fun u => { u with free := u.free.erase t.block })).annealErase t.lun t.block segKeys).2.setTask none
  else if !u.used.contains (t.block, t.seg) then s.setTask none
  else match t.stage with
    | .fresh => s.askTask t on
    | .read =>
      let x := s.writeTask t on (fun k n s => s.ensureSeg k n)
      x.2.setTask (if x.1.stage = .fresh then none else some x.1)
    | .moved => s.logTask t
    | .logged =>
      let s := s.applyMoves t
      if s.readsBlocks [(t.lun, t.block)] then s.setTask (some { t with recs := [], units := [] })
      else
        (((s.updLun t.lun (fun u => { u with used := u.used.erase (t.block, t.seg) })).annealErase t.lun t.block t.seg).2).setTask none

/-- A segment has pages that are not yet programmed. -/
def State.segBusy (s : State) (g : Nat) : Bool := s.mm.jobs.any (fun p => decide (p.2.seg = g) && !p.2.bare && decide (p.2.kind ≠ 4))

/-- The segment into which segment `g` moves: static wear levelling keeps the stripe set and takes its hottest free blocks; another
move takes any set (R247). -/
def State.moveTarget (s : State) (g : Segment) (hot : Bool) : Option (Nat × State) :=
  if hot then
    match s.segNumber with
    | some n => if s.segSets.contains g.set then some (n, ({ s with free := s.free + 1 }).openSegAt g.kind g.set n State.hottest) else none
    | none => none
  else s.openSeg g.kind

/-- Segment `b` takes the place of `a` in its stream. -/
def State.replaceSeg (s : State) (a b : Nat) : State :=
  let fs := fun (_ : Nat) (x : Stream) =>
    { x with segs := if x.segs.contains a then (x.segs.filter (fun k => decide (k ≠ b))).map (fun k => if k = a then b else k) else x.segs }
  { s with mm := { s.mm with streams := s.mm.streams.all fs } }

/-- A unit of a relocation: an open row is closed first; then the content is read and written to a segment of its own; when its pages and then the
journal entry are written, reads go to the new place and the old blocks are erased (R254). -/
def State.moveUnit (s : State) (t : Task) : State :=
  let on := fun (g : Option Nat) (_ : Nat × Nat × Nat) => decide (g = some t.seg)
  match s.mm.segs.find t.seg with
  | none => s.setTask none
  | some g =>
    match t.stage with
    | .fresh =>
      if 0 < g.fill ∨ !g.page.isEmpty then (s.setTask (some t)).padRow t.seg
      else if s.segBusy t.seg then s.setTask (some t)
      else (s.updSeg t.seg (fun x => { x with closed := true })).askTask t on
    | .read =>
      if (s.recsOn on).isEmpty && (s.unitsOn on).isEmpty then (s.dropSeg t.seg).setTask none
      else match s.moveTarget g (decide (t.rank = 7)) with
        | none => (s.mediaFull g.kind).setTask none
        | some (n, s) =>
          let x := s.writeTask t on (fun _ _ s => some (n, s))
          let s := (x.2.padRowFor n 4 annealReq 0).updSeg n (fun y => { y with closed := true })
          s.setTask (some { x.1 with jobs := s.mm.jobs.keys (fun _ j => decide (j.seg = n) && !j.bare && decide (j.kind ≠ 4)) })
    | .moved => s.logTask t
    | .logged =>
      let s := s.applyMoves t
      let s := match (t.recs.map (fun m => m.2.1) ++ t.units.map (fun m => m.2.1)).head? with | some n => s.replaceSeg t.seg n | none => s
      if s.readsBlocks g.blocks then s.setTask (some { t with recs := [], units := [] }) else (s.dropSeg t.seg).setTask none

/-- A unit of a relocation of fast-lane blocks: the used blocks of the set are folded one by one. -/
def State.moveFl (s : State) (t : Task) : State :=
  if (s.lun t.lun).used.contains (t.block, t.seg) then s.foldUnit t
  else match s.flLive.findSome? (fun l => ((s.lun l).used.find? (fun b => decide (b.2 = t.seg))).map (fun b => (l, b.1))) with
    | some (l, b) => s.foldUnit { t with lun := l, block := b }
    | none => s.setTask none

/-- A unit of a scrub: the last programmed row and the one that a rotating index names are read on every member block (R252). -/
def State.scrubUnit (s : State) (t : Task) : State :=
  match s.mm.segs.find t.seg with
  | none => s.setTask none
  | some g =>
    if t.stage = .fresh then
      let rows := [g.row - 1, g.scrubRow % max 1 g.row]
      let pages := g.blocks.flatMap (fun b => rows.map (fun r => (t.seg, b.1, b.2, r)))
      let q := State.askReads 4 annealReq 0 pages s
      q.2.setTask (some { t with stage := .read, jobs := q.1 })
    else
      let keys := g.blocks.map (fun b => blockKey b.1 b.2 false)
      let s := s.updSeg t.seg (fun x => { x with scrubAt := s.mm.retClock, scrubRow := x.scrubRow + 1 })
      ({ s with mm := { s.mm with recons := s.mm.recons.sel (fun k _ => !keys.contains k), thrMoved := s.mm.thrMoved.filter (fun k => !keys.contains k) } }).setTask none

/-- Go on with a task none of whose pages is on its way. -/
def State.taskUnit (s : State) (t : Task) : State :=
  match t.rank with
  | 1 => s.foldUnit t
  | 3 => s.foldUnit t
  | 5 => (s.setTask none).checkpointNow
  | 8 => s.scrubUnit t
  | _ => if segKeys ≤ t.seg then s.moveFl t else s.moveUnit t

/-! ## Choice of a task (Table 8.5) -/

/-- Fast-lane blocks of a LUN: erased, used and open. -/
def State.flBlocks (s : State) (l : Nat) : Nat :=
  (s.lun l).erased.length + (s.lun l).used.length + countP (fun r => r.2.blocks.has l) s.mm.flRows
    + (s.mm.jobs.keys (fun _ j => decide (j.kind = 9) && decide (j.lun = l) && j.pslc)).length

/-- Rank 1: a used block of the first fast-lane LUN below f_target; a good TLC block where the LUN has too few fast-lane blocks (R241). -/
def State.foldTask (s : State) : Option Task :=
  s.flLive.findSome? (fun l =>
    let u := s.lun l
    if u.erased.length < s.flTarget then
      match u.used.head? with
      | some b => some (Task.fresh 1 b.2 l b.1)
      | none => if s.flBlocks l < s.flTarget then
          (minBy (fun b => s.mm.erases.get (blockKey l b true) 0) u.free).map (fun b => Task.fresh 1 segKeys l b)
        else none
    else none)

/-- Rank 6: a closed region segment with fewer than COMPACT_PCT percent of its units current. -/
def State.compactTask (s : State) : Option Task :=
  let pct := fld s.mm.wearCfg 16 8
  (s.mm.segs.find? (fun p => match p.2.kind with
    | .region r => p.2.closed && (match s.region r with
      | some x => decide (countP (fun u => decide (u.2.seg = some p.1)) x.units * 100 < pct * (15 * s.segRows p.2 * s.segPage p.2 / 4096))
      | none => false)
    | .stream _ => false)).map (fun p => Task.fresh 6 p.1 0 0)

/-- TLC erase counts of the good blocks of a stripe set. -/
def State.setCounts (s : State) (k : Nat) (x : StripeSet) : List Nat :=
  let free := x.members.flatMap (fun l => (s.lun l).free.map (fun b => (l, b)))
  let used := (s.mm.segs.filter (fun p => decide (p.2.set = k))).flatMap (fun p => p.2.blocks)
  (free ++ used).map (fun b => s.mm.erases.get (blockKey b.1 b.2 false) 0)

/-- Rank 7: the closed segment with the lowest counts of a stripe set whose spread exceeds SPREAD. -/
def State.wearTask (s : State) : Option Task :=
  s.mm.sets.findSome? (fun x =>
    let cs := s.setCounts x.1 x.2
    let hi := cs.foldl max 0
    let lo := cs.foldl min hi
    if hi - lo ≤ fld s.mm.wearCfg 0 16 then none
    else
      let segs := s.mm.segs.filter (fun p => decide (p.2.set = x.1) && p.2.closed)
      (minBy (fun p => sumBy (fun b => s.mm.erases.get (blockKey b.1 b.2 false) 0) p.2.blocks) segs).map
        (fun p => Task.fresh 7 p.1 0 0))

/-- The pending task that comes first; of equal rank the one queued first. -/
def State.nextTask (s : State) : Option Task :=
  let ck : Option Task := if s.ckptDue then some (Task.fresh 5 0 0 0) else none
  minBy (fun t => t.rank) (s.mm.tasks ++ s.foldTask.toList ++ ck.toList ++ s.compactTask.toList ++ s.wearTask.toList)

/-- Start a task, or take it up again. -/
def State.startTask (s : State) (t : Task) : State :=
  let s := { s with mm := { s.mm with tasks := s.mm.tasks.erase t, running := some t } }
  if t.jobs.isEmpty then (s.taskUnit t).flEval else s

/-- Anneal runs while media is written; no new unit while the journal is paused (R262). -/
def State.annealOn (s : State) : Bool := s.inMode [.service, .degraded, .update] && !s.mm.annealPaused

/-- ANNEAL_TASK: Anneal starts its highest-ranked pending task, or the next unit of the running one; a task of a higher rank waits
only for a unit that has already started (R253, Table 8.5). -/
def execAnnealTask (s : State) : Answer :=
  occurs s s.annealOn (fun s =>
    match s.mm.running, s.nextTask with
    | none, some t => s.startTask t
    | none, none => s
    | some r, n =>
      let higher := match n with | some t => decide (t.rank < r.rank) | none => false
      match n with
      | some t => if higher then ({ s with mm := { s.mm with tasks := r :: s.mm.tasks } }).startTask t
                  else if r.jobs.isEmpty then (s.taskUnit r).flEval else s
      | none => if r.jobs.isEmpty then (s.taskUnit r).flEval else s)

end Sys2Proof.Machine
end

