-- ==== Sys2Proof/Machine/Power.lean ====
section
/-! DEFINITION. The Power Supervisor's measurements (chapter 9): the Landing limit, the trip level, the load pulses that learn the
bank's capacitance, and the arming of the Quench programs. -/
namespace Sys2Proof.Machine

/-! ## Inputs (R267, R268) -/

def Psv.vcut (p : Psv) : Nat := fld p.bankCfg 0 16
def Psv.eta (p : Psv) : Nat := fld p.bankCfg 16 10
def Psv.nom (p : Psv) : Nat := fld p.capNom 0 24
def Psv.board (p : Psv) : Nat := fld p.boardMw 0 16
def Psv.floorMv (p : Psv) : Nat := fld p.bankTrip 0 16
def Psv.readyMv (p : Psv) : Nat := fld p.bankTrip 16 16
def Psv.cPub (p : Psv) : Nat := fld p.cap 0 24

/-- PSV_STATUS.PROVISIONED: every input of R268 is non-zero. -/
def Psv.provisioned (p : Psv) : Bool :=
  decide (p.vcut ≠ 0) && decide (p.eta ≠ 0) && decide (p.nom ≠ 0) && decide (fld p.senseCfg 0 16 ≠ 0) && decide (p.board ≠ 0)

/-- What BANK_SENSE reports for a bank at `v` mV: the divider's ratio times 1.0 V at most (R478). -/
def Psv.reading (p : Psv) (v : Nat) : Nat := if fld p.senseCfg 0 16 = 0 then v else min v (fld p.senseCfg 0 16)

/-- The Power Supervisor takes `v` as the bank voltage: since when it has stood at or above READY_MV is kept (R271). -/
def State.sampleBank (s : State) (v : Nat) : State :=
  let v := s.psv.reading v
  let good := decide (s.psv.readyMv ≠ 0) && decide (s.psv.readyMv ≤ v)
  { s with psv := { s.psv with vbankMv := v, goodAt := if good then some (s.psv.goodAt.getD s.tick) else none } }

/-! ## The Landing limit (R41 to R43, R45) -/

/-- 2 C (v² − v_cut²) η in µF · mV² · per mille: half of it is the usable energy in 10⁻¹⁵ J. -/
def Psv.energy (p : Psv) (v : Nat) : Nat := p.cPub * (v * v - p.vcut * p.vcut) * p.eta

/-- t_allowed in µs: usable energy over 1.5 P_board. -/
def Psv.allowedUs (p : Psv) (v : Nat) : Nat := p.energy v / (3 * p.board * 1000000)

/-- The limit in MiB at bank voltage `v` with `n` fast-lane LUNs (R41): b_q is 50 · n bytes per µs. -/
def limitMibAt (p : Psv) (cap n v : Nat) : Nat :=
  min cap ((p.energy v - 9000 * 1000000 * p.board) * (50 * n) / (3 * p.board * 1000000 * mib))

/-- A waiting charge that the limit can no longer take ends its program (R45). -/
def State.judgeCharges (s : State) : State :=
  (s.lq.c0Queue ++ s.lq.shQueue).foldl (fun s c => match s.prog c.eng with
    | some p => if s.neverFits c.cls c.bytes p.group then s.endAtWord c.eng Ending.energyLimit 0 else s
    | none => s) s

/-- Recompute the Landing limit from the voltage measured now (R41 to R43). -/
def State.relimit (s : State) : State :=
  let p := s.psv
  let valid := p.provisioned && decide (p.cPub ≠ 0)
  let m := if valid then limitMibAt p s.lq.capMib s.flLive.length p.vbankMv else 0
  let above := valid && decide (m * mib < s.lq.heldAll)
  let lq := { s.lq with
    limitValid := valid, limitMib := m, tAllowedUs := if valid then min (p.allowedUs p.vbankMv) 0xFFFF else 0, lastCalc := s.tick
    overLimit := if valid then above else s.lq.overLimit, limitDrop := s.lq.limitDrop || above }
  (({ s with lq := lq }).setsIf above 0xB80000 8).judgeCharges

/-- The bank is measured and the limit computed in these modes: until the power-down of a Quench (R283). -/
def State.measures (s : State) : Bool := s.powered && !s.inMode [.quench, .hold]

/-- LANDING_LIMIT_RECOMPUTE: once every 1 ms (R42). `vbankMv` is the mean of the samples of the last 100 µs. -/
def execLandingLimitRecompute (vbankMv : Nat) (s : State) : Answer :=
  occurs s (s.measures && s.passedUs s.lq.lastCalc 1000) (fun s => (s.sampleBank vbankMv).relimit)

/-! ## The trip level (R274) -/

/-- Largest r with r² ≤ n, for n below 2⁴⁰. -/
def isqrt (n : Nat) : Nat := (List.range 20).foldr (fun k r => if (r + 2 ^ k) * (r + 2 ^ k) ≤ n then r + 2 ^ k else r) 0

/-- The voltage in mV at which the bank holds 1.2 times the energy of a Quench of the bytes held now, rounded down (log 14);
FLOOR_MV where it is larger. -/
def State.tripMv (s : State) : Nat :=
  let p := s.psv
  let bq := 50 * s.flLive.length
  let num := 24 * p.board * (3000 * bq + s.lq.heldAll) * 1000000
  let sq := p.vcut * p.vcut + num / (10 * p.cPub * p.eta * bq)
  max (max p.floorMv p.vcut) (isqrt sq)

/-- TRIP_RECOMPUTE: once every 1 ms, while PROVISIONED reads 1 (R268, R274). -/
def execTripRecompute (s : State) : Answer :=
  occurs s s.measures (fun s => { s with psv := { s.psv with tripEff := if s.psv.provisioned then s.tripMv else 0 } })

/-! ## Load pulses (R269 to R272) -/

/-- BAR0 block of the PSV registers. -/
def psvBlock : Nat := blockOf 0xC00000

/-- Drive the pulse line. -/
def State.pulseLine (s : State) (high : Bool) : State :=
  let m := BitVec.ofNat 32 (2 ^ fld s.psv.pulseCfg 0 5)
  { s with lpc := { s.lpc with gpioOut := if high then s.lpc.gpioOut ||| m else s.lpc.gpioOut &&& ~~~ m } }

/-- A pulse may run: the inputs and READY_MV are provisioned, the line enabled, none runs. -/
def State.pulseReady (s : State) : Bool :=
  s.measures && s.psv.provisioned && decide (s.psv.readyMv ≠ 0) && s.psv.pulseCfg.getLsbD 7 && s.psv.pulse.isNone

/-- The limit computed for v_bank − 300 mV covers the bytes held (R271). -/
def State.pulseCovered (s : State) (v : Nat) : Bool :=
  decide (s.lq.heldAll ≤ limitMibAt s.psv s.lq.capMib s.flLive.length (v - 300) * mib)

/-- Begin a pulse. -/
def State.beginPulse (s : State) (v : Nat) (test : Bool) : State :=
  let x : Pulse := { startTick := s.tick, startMv := v, fitted := none, endTick := 0, test := test }
  ({ s with psv := { s.psv with pulse := some x } }).pulseLine true

def ticksOfMs (ms : Nat) : Nat := ms * 100000

/-- A pulse is due: at power-up once the bank has been charged for 100 ms, then every 24 h, or at its retry. -/
def State.pulseDue (s : State) : Bool :=
  let retry := match s.psv.retryAt with | some t => decide (t ≤ s.tick) | none => true
  if s.psv.cPub = 0 then retry && (match s.psv.goodAt with | some t => s.passedMs t 100 | none => false)
  else match s.psv.retryAt with
    | some t => decide (t ≤ s.tick)
    | none => (match s.psv.lastOk with | some t => s.passedMs t (24 * 3600 * 1000) | none => true)

/-- PULSE_START: a load pulse begins; a daily one that the bytes held do not leave room for is deferred by 1 s (R269, R271). -/
def execPulseStart (vbankMv : Nat) (s : State) : Answer :=
  let s' := s.sampleBank vbankMv
  if !(s.pulseReady && s'.pulseDue) then .next s
  else if decide (s'.psv.cPub ≠ 0) && !s'.pulseCovered vbankMv then
    .next { s' with psv := { s'.psv with retryAt := some (s.tick + ticksOfMs 1000) } }
  else .next (s'.beginPulse vbankMv false)

/-- A pulse fails with cause 1 to 3 of Table 9.5 (R270, R272). -/
def State.failPulse (s : State) (cause : Nat) : State :=
  let test := match s.psv.pulse with | some x => x.test | none => false
  let fitted := match s.psv.pulse with | some x => x.fitted.getD 0 | none => 0
  let again := if s.psv.cPub = 0 then 10 * 1000 else 3600 * 1000
  let p := { s.psv with
    pulse := none, measFail := true, retryAt := some (s.tick + ticksOfMs again)
    testResult := if test then some (fitted, cause) else s.psv.testResult }
  ((({ s with psv := p }).sets 0xC00000 8).pulseLine false).postEventAll psvBlock 0x0041 0xFFFF (BitVec.ofNat 64 cause)

/-- A pulse is abandoned without a result. -/
def State.dropPulse (s : State) : State :=
  if s.psv.pulse.isSome then ({ s with psv := { s.psv with pulse := none } }).pulseLine false else s

/-- The capacitance in µF of a least-squares fit over the samples (mV, one per µs) after the first 100 µs, rounded down: current
over slope; none where the voltage does not fall. -/
def fitCap (ma : Nat) (samples : List Nat) : Option Nat :=
  let pts := (samples.zipIdx).drop 100
  let n : Int := pts.length
  let st : Int := (sumBy (fun p => p.2) pts : Nat)
  let sv : Int := (sumBy (fun p => p.1) pts : Nat)
  let stt : Int := (sumBy (fun p => p.2 * p.2) pts : Nat)
  let stv : Int := (sumBy (fun p => p.1 * p.2) pts : Nat)
  let num := st * sv - n * stv
  let den := n * stt - st * st
  if 0 < num then some (((ma : Int) * den / num).toNat) else none

/-- PULSE_END: the bank has fallen by 250 mV or 20 ms have passed: the line goes low and the capacitance is fitted, or the pulse
fails (R269, R270). `samples` are the bank voltages in mV, one each µs since the pulse began. -/
def execPulseEnd (samples : List Nat) (s : State) : Answer :=
  match s.psv.pulse with
  | none => .next s
  | some x =>
    let v := samples.getLastD x.startMv
    let drop := x.startMv - v
    let above := decide (250 ≤ drop) || decide (20000 ≤ samples.length)
    occurs s (x.fitted.isNone && above && s.passedUs x.startTick samples.length) (fun s =>
      let s := (s.sampleBank v).pulseLine false
      if drop < 50 then s.failPulse 1
      else match fitCap (fld s.psv.pulseCfg 16 16) samples with
        | none => s.failPulse 2
        | some c =>
          let s := { s with psv := { s.psv with pulse := some { x with fitted := some c, endTick := s.tick } } }
          if 4 * c < s.psv.nom then s.failPulse 2 else s)

/-- CAP_PUBLISH: the bank has recovered to its starting voltage within 1 s: the capacitance is published and the limit recomputed
(R270, R272). -/
def execCapPublish (vbankMv : Nat) (s : State) : Answer :=
  match s.psv.pulse with
  | none => .next s
  | some x =>
    match x.fitted with
    | none => .next s
    | some c =>
      occurs s (s.psv.provisioned && decide (x.startMv ≤ vbankMv) && decide (s.sinceNs x.endTick ≤ 1000 * msNs)) (fun s =>
        let new := min c s.psv.nom
        let old := s.psv.lastCap
        let worse := decide (new * 10 < old * 9)
        let p := { s.psv with
          cap := BitVec.ofNat 32 new, capMeas := BitVec.ofNat 32 (c % 2 ^ 24), lastCap := new, pulse := none, lastOk := some s.tick
          retryAt := none, stale := false, degraded := s.psv.degraded || worse
          testResult := if x.test then some (c, 0) else s.psv.testResult }
        let s := ({ s with psv := p }).setsIf worse 0xC00000 9
        let s := if worse then s.postEventAll psvBlock 0x0040 0xFFFF (BitVec.ofNat 64 (new + old * 2 ^ 32)) else s
        (s.sampleBank vbankMv).relimit)

/-- PULSE_RECOVERY_TIMEOUT: the bank has not recovered within 1 s of the end of the pulse (R270). -/
def execPulseRecoveryTimeout (vbankMv : Nat) (s : State) : Answer :=
  match s.psv.pulse with
  | none => .next s
  | some x => occurs s (x.fitted.isSome && decide (vbankMv < x.startMv) && s.passedMs x.endTick 1000) (fun s =>
      (s.sampleBank vbankMv).failPulse 3)

/-- BANK_STALE: no pulse has succeeded for 48 h; it is reported, and the old value stays in force (R272, class 0x2A). -/
def execBankStale (s : State) : Answer :=
  occurs s (s.measures && !s.psv.stale && (match s.psv.lastOk with | some t => s.passedMs t (48 * 3600 * 1000) | none => false)) (fun s =>
    ({ s with psv := { s.psv with stale := true } }).report 0x2A 0 0 0 0)

/-! ## Arming (R280, R307) -/

/-- The Quench program of R309, one line per instruction. -/
def quenchProgram : List Byte :=
  [0x03, 0x01, 0x04, 0x00] ++ List.replicate 12 0
  ++ [0x01, 0x10, 0x91, 0x08] ++ List.replicate 12 0
  ++ [0x04, 0x02] ++ List.replicate 14 0
  ++ [0x02, 0x02] ++ List.replicate 14 0
  ++ [0x05] ++ List.replicate 15 0

/-- Load the Quench program into a mover. -/
def Mover.loadQuench (m : Mover) : Mover :=
  { m with ram := Memory.writeN [] 0 quenchProgram, k := m.k.put 2 0xFFFFFFFF, armed := true, prgFault := false }

/-- ARMED: every unfenced mover holds the verified program. -/
def State.allArmed (s : State) : Bool := (List.range 64).all (fun m => (s.mover m).fenced || (s.mover m).armed)

/-- ARMED takes its value; its fall is timed. -/
def State.setArmed (s : State) : State :=
  let a := s.allArmed
  { s with lq := { s.lq with armed := a, unarmedAt := if a then none else some (s.lq.unarmedAt.getD s.tick) } }

/-- The movers named have failed their check. -/
def State.disarm (s : State) (bad : List Nat) : State :=
  bad.foldl (fun s m => if m < 64 then s.updMover m (fun x => { x with armed := false }) else s) s

/-- The Quench program is loaded into every unfenced mover, but for those that hold it already where `all` is false. -/
def State.loadMovers (s : State) (all : Bool) : State :=
  (List.range 64).foldl (fun s m => if (s.mover m).fenced || (!all && (s.mover m).armed) then s else s.updMover m Mover.loadQuench) s

/-- QUENCH_ARM_CHECK: firmware checks every mover's program RAM; `bad` names the movers that fail, and `reloaded` says that the
program has been loaded again (R280). -/
def execQuenchArmCheck (bad : List Nat) (reloaded : Bool) (s : State) : Answer :=
  occurs s (s.measures && s.mgp.running) (fun s =>
    let s := s.disarm bad
    let s := if reloaded then s.loadMovers false else s
    ({ s with lq := { s.lq with rearm := !bad.isEmpty && !reloaded } }).setArmed)

end Sys2Proof.Machine
end

