-- ==== Sys2Proof/Machine/Movers.lean ====
section
/-! DEFINITION. The movers (chapter 10): descriptors and their arbitration, program mode, and the reassignment of Quench units. -/
namespace Sys2Proof.Machine

/-! ## Descriptors (R301, Tables 10.2 to 10.4) -/

/-- Mover space codes beyond those of channel words (Table 10.3). -/
def spFcbuf : Nat := 9
def spMgpmem : Nat := 10
def spNorh : Nat := 11

def Desc.read (d : List Byte) : Desc :=
  let b := leAt d 20 1
  { src := BitVec.ofNat 64 (leAt d 0 8), dst := BitVec.ofNat 64 (leAt d 8 8), length := leAt d 16 3
    srcSpace := leAt d 19 1 % 16, dstSpace := leAt d 19 1 / 16, wb := b.testBit 0, paced := b.testBit 1, codec := b.testBit 2
    fixSrc := b.testBit 3, fixDst := b.testBit 4, cls := leAt d 21 1 % 4, mid := leAt d 22 1 % 64, requester := leAt d 24 2 % 512
    burst := leAt d 26 2, token := BitVec.ofNat 32 (leAt d 28 4) }

/-- A space code of Table 10.3. -/
def moverSpace (k : Nat) : Bool := [0, 1, 2, 6, 7, 9, 10, 11].contains k

/-- An FCBUF address has a reserved part that is not 0 (Table 10.3). -/
def fcbufBad (sp : Nat) (a : W64) : Bool := decide (sp = spFcbuf) && decide (fld a 9 7 ≠ 0)

/-- A descriptor whose effect is undefined: LENGTH 0, a reserved space code, or a reserved part that is not 0 (R7, R301). -/
def descUndef (d : List Byte) : Bool :=
  let x := Desc.read d
  decide (x.length = 0) || !moverSpace x.srcSpace || !moverSpace x.dstSpace || decide (32 ≤ leAt d 20 1) || decide (4 ≤ leAt d 21 1)
  || decide (64 ≤ leAt d 22 1) || decide (leAt d 23 1 ≠ 0) || decide (256 < leAt d 24 2) || decide (x.paced = decide (x.burst = 0))
  || fcbufBad x.srcSpace x.src || fcbufBad x.dstSpace x.dst

/-- The requesters of a channel, by the MID of their descriptors (R15, Table 10.1): engine transfers and port transfers run under a function's
MID, Landing drain under 0x12, Anneal, media reads, vault loads and the Management Processor under 0x10, the Fault Collector under 0x11. Channel
0 takes only classes 0 and 1. That no other requester writes a descriptor there is read from the table (DEDUCED, log 103). -/
def Desc.mayUse (d : Desc) (ch : Nat) : Bool :=
  if ch ≤ 7 then (fnOf d.mid).isSome && (decide (ch ≠ 0) || decide (d.cls ≤ 1))
  else if ch ≤ 11 then decide (d.mid = 0x10) || decide (d.mid = 0x12)
  else if ch ≤ 13 then (fnOf d.mid).isSome
  else if ch = 14 then decide (d.mid = 0x10)
  else decide (d.mid = 0x10) || decide (d.mid = 0x11)

/-- Spaces that a descriptor may name now: MGP memory belongs to MIDs 0x10 and 0x12, and the boot NORs are read in Boot and Diagnostic, and are
written by UPDATE_COMMIT alone (Table 10.3, R339). -/
def State.spaceOk (s : State) (d : Desc) : Bool :=
  ((decide (d.srcSpace ≠ spMgpmem) && decide (d.dstSpace ≠ spMgpmem)) || decide (d.mid = 0x10) || decide (d.mid = 0x12))
    && (decide (d.srcSpace ≠ spNorh) || s.inMode [.boot, .diagnostic]) && decide (d.dstSpace ≠ spNorh)

/-- DESCRIPTOR_WRITE: a requester of the channel writes a descriptor into its active or shadow set (R298). -/
def execDescriptorWrite (m ch : Nat) (d : List Byte) (s : State) : Answer :=
  let k := s.mvCh m ch
  let x := Desc.read d
  if !(s.descMode m && decide (ch < 16) && decide (d.length = 32) && (k.active.isNone || k.shadow.isNone) && x.mayUse ch
      && s.spaceOk x) then .next s
  else if descUndef d then .fault .reservedDescriptor
  else .next (if k.active.isNone then (s.updMvCh m ch (fun k => { k with active := some x, moved := 0 })).enter m ch
              else s.updMvCh m ch (fun k => { k with shadow := some x }))

/-! ## Bytes -/

/-- FCBUF key of an address: LUN and page-buffer slot. -/
def fcKey (a : W64) : Nat := fld a 16 8 * 512 + fld a 0 9

/-- Read `n` bytes of a mover space; what host memory, a port, a NOR or a NAND page gives is in `ext`. The flag tells of an uncorrectable
Yard word; bytes before it are delivered. -/
def State.mvRead (s : State) (sp : Nat) (a : W64) (n : Nat) (ext : List Byte) : List Byte × Bool × State :=
  if sp = spYard then
    let lo := a.toNat % yardSize
    match s.yard.firstBad lo n with
    | some w => (s.yard.read lo (w - lo), true, s.reportBad w 1)
    | none => (s.yard.read lo n, false, s)
  else if sp = spLocal then ((s.localStore (fld a 32 11)).readN (fld a 0 14) n, false, s)
  else if sp = spCellq then
    let r := State.cpTake (a.toNat % 4096) n n s
    (r.1, false, r.2)
  else if sp = spFcbuf then
    let b := s.mv.fcbuf.get (fcKey a) []
    ((b ++ ext.drop b.length).take n, false, s)
  else if sp = spMgpmem then (s.mv.mgpMem.readN (fld a 0 21) n, false, s)
  else (ext.take n, false, s)

/-- Write bytes to a mover space. -/
def State.mvWrite (s : State) (sp : Nat) (a : W64) (mid : Nat) (bs : List Byte) : State :=
  if bs.isEmpty then s
  else if sp = spHost then (match fnOf mid with | some fn => s.drive (.hostWrite fn a bs) | none => s)
  else if sp = spYard then s.yardWrite (a.toNat % yardSize) bs
  else if sp = spLocal then s.updEngine (fld a 32 11) (fun g => { g with store := g.store.writeN (fld a 0 14) bs })
  else if sp = spCellq then State.cpPushBytes (a.toNat % 4096) (bs.length + 1) true bs s
  else if sp = spFcbuf then { s with mv := { s.mv with fcbuf := s.mv.fcbuf.put (fcKey a) bs } }
  else if sp = spMgpmem then { s with mv := { s.mv with mgpMem := s.mv.mgpMem.writeN (fld a 0 21) bs } }
  else if sp = spNorh then s.drive (.nor (fld a 63 1) false bs)
  else s.drive (.port a bs)

/-- The function whose host memory a side of a transfer stands in. -/
def Desc.hostFn (d : Desc) : Option Nat := if d.srcSpace = spHost ∨ d.dstSpace = spHost then fnOf d.mid else none

/-- Requests may reach the host memory of a transfer now (R320). -/
def State.mvHost (s : State) (d : Desc) : Bool :=
  if d.srcSpace = spHost ∨ d.dstSpace = spHost then (match fnOf d.mid with | some fn => s.canIssue fn | none => false) else true

/-- Move `n` bytes from `a` to `b`: the bytes moved, the status, the state. `x` gives what the outside supplied. -/
def State.mvMoveBytes (s : State) (d : Desc) (a b : W64) (n : Nat) (x : Xfer) : Nat × Nat × State :=
  let r := s.mvRead d.srcSpace a n x.data
  let bs := if x.status = .ok then r.1 else r.1.take x.data.length
  let s := r.2.2.mvWrite d.dstSpace b d.mid bs
  let st := if x.status = .link then dsLink else if x.status = .decode || r.2.1 then dsEcc else if x.status = .timeout then dsTimeout
    else if bs.length < n then (if d.srcSpace = spHost then dsLink else dsShort) else dsOk
  (bs.length, st, s)

/-- Bytes of a transfer of `n` that move now: all, unless the outside has supplied only the first 512 B blocks of a read from host memory; those
move, and the descriptor stands at the boundary behind them (R300). -/
def Desc.piece (d : Desc) (n : Nat) (x : Xfer) : Nat :=
  if d.srcSpace = spHost ∧ x.status = .ok ∧ x.data.length < n then x.data.length / 512 * 512 else n

/-- The bytes of a descriptor have moved: with WB it waits for the acknowledgement of its host writes, after the zero-length read that asks for
it; other writes are acknowledged as they are made (R305). -/
def State.bytesDone (s : State) (m ch : Nat) (d : Desc) : State :=
  if d.wb ∧ d.dstSpace = spHost then
    (s.updMvCh m ch (fun k => { k with st := .barrier })).drive (.hostFlush ((fnOf d.mid).getD 0))
  else s.descEnd m ch dsOk

/-- A running descriptor moves bytes: it ends with a status, goes on, or ends its burst, is acknowledged, and waits for the next request
(R302, R303, R341). -/
def State.descMove (s : State) (m ch : Nat) (d : Desc) (x : Xfer) : State :=
  let k := s.mvCh m ch
  let left := d.length - k.moved
  let n := d.piece (if d.paced then min left (d.burst * 64) else left) x
  let at_ := fun (fix : Bool) (a : W64) => if fix then a else a + BitVec.ofNat 64 k.moved
  let r := s.mvMoveBytes d (at_ d.fixSrc d.src) (at_ d.fixDst d.dst) n x
  let s := r.2.2.moverBytes m ch r.1
  let s := if d.paced && k.bound then s.acknowledge k.line else s
  if r.2.1 ≠ dsOk then s.descEnd m ch r.2.1
  else if d.length ≤ k.moved + r.1 then s.bytesDone m ch d
  else if d.paced then s.burstOver m ch
  else s.preempt m

/-- DESCRIPTOR_COMPLETE: the running descriptor's bytes move; one that waits at its write barrier ends (R302, R305). The descriptor of an engine
word moves with the word's own command (log 90). Where the part issues no request for its function, a descriptor ends with LINK (R320). `x`
serves the transfer. -/
def execDescriptorComplete (m ch : Nat) (x : Xfer) (s : State) : Answer :=
  let k := s.mvCh m ch
  match k.active with
  | none => .next s
  | some d =>
    let on := s.descMode m && (s.chanEngine m ch).isNone && decide (x.status ≠ .timeout)
    if !s.mvHost d then occurs s (on && (decide (k.st = .running) || decide (k.st = .barrier))) (fun s => s.descEnd m ch dsLink)
    else if k.st = .barrier then occurs s on (fun s => s.descEnd m ch (if x.status = .link then dsLink else dsOk))
    else occurs s (on && decide (k.st = .running) && s.codecReady m ch) (fun s => s.descMove m ch d x)

/-- MOVER_STALL_TIMEOUT: a descriptor has moved no byte for STALL_US, the wait of a write barrier included: it ends with TIMEOUT, and the engine
word that it carries ends (R302, R305, Table 10.4). -/
def execMoverStallTimeout (m ch : Nat) (s : State) : Answer :=
  let k := s.mvCh m ch
  match k.active with
  | none => .next s
  | some d =>
    occurs s (s.descMode m && (decide (k.st = .running) || decide (k.st = .barrier)) && s.passedUs k.movedAt (fld s.mv.cfg 0 16)) (fun s =>
      match s.chanEngine m ch with
      | none => s.descEnd m ch dsTimeout
      | some e =>
        let far := [d.srcSpace, d.dstSpace].any (fun x => decide (x = spHost) || decide (x = spPort))
        (s.dropChan e dsTimeout).endAtWord e (if far then Ending.linkFault else Ending.dataFault) 0)

/-! ## Transfers of the Management Processor (R15) -/

/-- The Management Processor moves `n` bytes on channel `ch` under MID 0x10, admitted like any other work: the transfer holds the channel, is
granted and counted, and ends with OK. Which mover carries it is not stated: one whose channel is free, with the fewest busy channels (DESIGN
CHOICE, log 103); its class and requester likewise. -/
def State.mgpTransfer (s : State) (ch n : Nat) : State :=
  match minBy (fun m => (s.mover m).busyChans) ((List.range 64).filter (fun m => s.descMode m && (s.mvCh m ch).active.isNone)) with
  | none => s
  | some m =>
    let d : Desc := {
      src := 0, dst := 0, length := n, srcSpace := spMgpmem, dstSpace := spYard, wb := false, paced := false, codec := false, fixSrc := false, fixDst := false
      cls := 3, mid := 0x10, requester := annealReq, burst := 0, token := 0 }
    let s := s.moverGrant m ch d
    s.updMover m (fun x => { x.updChan ch (fun k => { k with lastStatus := dsOk }) with bytes := x.bytes + BitVec.ofNat 64 n })

/-- Content on its way to a verification: channel 14 carries it through one TRU hash engine, which it is granted like any other work (R15, R230,
R404). -/
def State.hashTransfer (s : State) (n : Nat) : State :=
  let s := s.mgpTransfer 14 n
  s.creditGrant (s.laneFor 112 4) annealReq 1 s.tick []

/-! ## Program mode (R307, R308, Tables 10.5 and 10.6) -/

/-- Byte `i` of the current instruction. -/
def Mover.insn (m : Mover) : List Byte := m.ram.readN (16 * m.pc) 16

/-- A mover whose program runs. -/
def State.prgOn (s : State) (m : Nat) : Bool :=
  let x := s.mover m
  decide (m < 64) && x.prgMode && x.prgRun && !x.fenced && decide (x.pc < 256)

/-- The program stops under R308. -/
def State.prgStop (s : State) (m st : Nat) : State :=
  (s.updMover m (fun x => { x with prgRun := false, prgFault := true, prgEnd := st, wait := none })).report 0x11 0 kindMover m 0

/-- Go on at instruction `t`; an index beyond the program stops it. -/
def State.prgGo (s : State) (m t : Nat) : State := if t < 256 then s.updMover m (fun x => { x with pc := t }) else s.prgStop m 0

def State.prgNext (s : State) (m : Nat) : State := s.prgGo m ((s.mover m).pc + 1)

/-- The transfer of the MOVE in hand: the spaces of its byte 2, the A registers of its byte 1, LENGTH or a K register (Table 10.5). -/
def State.prgDesc (s : State) (m : Nat) : Desc :=
  let v := s.mover m
  let i := v.insn
  let f := leAt i 3 1
  { src := v.a.get (leAt i 1 1 % 8) 0, dst := v.a.get (leAt i 1 1 / 16 % 8) 0
    length := if f.testBit 3 then (v.k.get (leAt i 7 1 % 4) 0).toNat else leAt i 4 3
    srcSpace := leAt i 2 1 % 16, dstSpace := leAt i 2 1 / 16, wb := f.testBit 2, paced := false, codec := true, fixSrc := false, fixDst := false
    cls := 0, mid := if s.inMode [.quench] then 0x12 else 0x10, requester := 0, burst := 0, token := v.k.get 3 0 }

/-- A MOVE whose effect is undefined, as of a descriptor. -/
def State.prgUndef (s : State) (d : Desc) : Bool :=
  !moverSpace d.srcSpace || !moverSpace d.dstSpace || decide (d.length = 0) || !s.spaceOk d || fcbufBad d.srcSpace d.src || fcbufBad d.dstSpace d.dst

/-- The A registers after a MOVE of `len` bytes: the source and the destination register advance where its byte 3 says so. -/
def advanceA (i : List Byte) (len : Nat) (a : Tbl W64) : Tbl W64 :=
  let adv := fun (a : Tbl W64) (n : Nat) (b : Bool) => if b then a.put n (a.get n 0 + BitVec.ofNat 64 len) else a
  adv (adv a (leAt i 1 1 % 8) ((leAt i 3 1).testBit 0)) (leAt i 1 1 / 16 % 8) ((leAt i 3 1).testBit 1)

/-- MV_MOVE: moves LENGTH bytes, or K bytes; a status other than OK stops the mover, and so does a reserved opcode (R307, R308). -/
def execMvMove (m : Nat) (x : Xfer) (s : State) : Answer :=
  let v := s.mover m
  let op := leAt v.insn 0 1
  if !s.prgOn m || v.wait.isSome || [2, 3, 4, 5].contains op then .next s
  else if op ≠ 1 then .next (s.prgStop m 0)
  else
    let d := s.prgDesc m
    if s.prgUndef d then .fault .reservedDescriptor
    else
      let r := s.mvMoveBytes d d.src d.dst d.length x
      let s := r.2.2.updMover m (fun y => { y with bytes := y.bytes + BitVec.ofNat 64 r.1 })
      .next (if r.2.1 ≠ dsOk then s.prgStop m r.2.1
             else (s.updMover m (fun y => { y with a := advanceA v.insn d.length y.a })).prgNext m)

/-- MV_LOOP: as R83 on a K register. -/
def execMvLoop (m : Nat) (s : State) : Answer :=
  let v := s.mover m
  let i := v.insn
  occurs s (s.prgOn m && v.wait.isNone && decide (leAt i 0 1 = 2)) (fun s =>
    let kn := leAt i 1 1 % 4
    let t := leAt i 4 2
    let c := v.k.get kn 0
    if 256 ≤ t then s.prgStop m 0
    else if c = 0 then s.prgNext m
    else
      let s := s.updMover m (fun y => { y with k := y.k.put kn (c - 1) })
      if c - 1 = 0 then s.prgNext m else s.prgGo m t)

/-- The next Quench unit queued for a mover. -/
def State.nextUnit (s : State) (m : Nat) : Option (Nat × QUnit) :=
  (s.lq.units.zipIdx.find? (fun p => decide (p.1.mover = some m) && !p.1.taken && !p.1.programmed)).map (fun p => (p.2, p.1))

def State.updUnit (s : State) (u : Nat) (f : QUnit → QUnit) : State :=
  { s with lq := { s.lq with units := s.lq.units.mapIdx (fun i x => if i = u then f x else x) } }

/-- LQ has closed the Quench queue, and it is empty: every unit has passed. -/
def State.unitsClosed (s : State) : Bool := s.lq.units.all (fun u => u.programmed)

/-- FCBUF address of a unit: its LUN and a page-buffer slot. -/
def unitBuf (u : Nat) (x : QUnit) : W64 := BitVec.ofNat 64 (x.lun + (u % 256) * 65536)

/-- A WAIT of a program ends: at the next instruction on its event, at ALT else (Table 10.5). -/
def State.prgWaitEnd (s : State) (m out alt : Nat) : State :=
  let s := s.updMover m (fun y => { y with wait := none, waitOut := out })
  if out = 0 then s.prgNext m else s.prgGo m alt

/-- The event of a program WAIT, taken now where it is there: the state, or none to wait. `nor` says that the NOR is ready. -/
def State.prgEvent (s : State) (m : Nat) (w : MvWait) (nor : Bool) : Option State :=
  match w.source with
  | 1 => (match s.nextUnit m with
    | some (u, x) =>
      -- where the unit's bytes stand in the Landing, and the codec control, are not stated (log 2)
      let (i, s) := s.takeFree
      let s := { s.updUnit u (fun x => { x with taken := true }) with free := s.free + 1 }
      let ld := fun (y : Mover) => { y with
        a := (y.a.put 0 (Config.freeWord i)).put 1 (unitBuf u x), tookAt := s.tick
        k := ((y.k.put 0 (BitVec.ofNat 32 x.bytes)).put 1 (BitVec.ofNat 32 u)).put 3 (BitVec.ofNat 32 (Config.freeNat (i + 1))) }
      some ((s.updMover m ld).prgWaitEnd m 0 w.alt)
    | none => if s.unitsClosed then some (s.prgWaitEnd m 1 w.alt) else none)
  | 2 => (match s.takeDreq (w.operand.toNat % 16) with
    | some s => some (s.prgWaitEnd m 0 w.alt)
    | none => none)
  | 3 => if fld w.operand 0 32 ≤ s.sinceNs w.startTick then some (s.prgWaitEnd m 0 w.alt) else none
  | 4 => if (s.mover m).event then some ((s.updMover m (fun y => { y with event := false })).prgWaitEnd m 0 w.alt) else none
  | _ => if nor then some (s.prgWaitEnd m 0 w.alt) else none

/-- MV_WAIT: a WAIT begins, or an event of the WAIT in progress comes (R307). A reserved source or an ALT beyond the program stops
the mover (R308). -/
def execMvWait (m : Nat) (norReady : Bool) (s : State) : Answer :=
  let v := s.mover m
  let i := v.insn
  occurs s (s.prgOn m && decide (leAt i 0 1 = 3)) (fun s =>
    let src := leAt i 1 1
    let w := v.wait.getD { source := src, operand := BitVec.ofNat 64 (leAt i 8 8), alt := leAt i 2 2, startTick := s.tick, limitUs := leAt i 4 4 }
    if src = 0 ∨ 5 < src ∨ 256 ≤ w.alt then s.prgStop m 0
    else match s.prgEvent m w norReady with
      | some s => s
      | none => s.updMover m (fun y => { y with wait := some w }))

/-- MV_WAIT_EXPIRY: the limit of a program's WAIT has passed: it continues at ALT (Table 10.5). -/
def execMvWaitExpiry (m : Nat) (s : State) : Answer :=
  match (s.mover m).wait with
  | none => .next s
  | some w => occurs s (s.prgOn m && decide (w.limitUs ≠ 0) && s.passedUs w.startTick w.limitUs) (fun s => s.prgWaitEnd m 2 w.alt)

/-- The next pSLC page of a LUN that no Quench unit has taken, block after block. -/
def State.quenchSpot (s : State) (l : Nat) : Option (Nat × Nat × Nat) :=
  let used := s.lq.units.filterMap (fun u => u.place)
  ((s.lun l).erased.flatMap (fun b => (List.range (s.rowsPslc l)).map (fun r => (l, b, r)))).find? (fun p => !used.contains p)

/-- Page program of Quench unit `u` on its LUN's page buffer (Table 10.6): the job waits for the LUN where it is busy. -/
def State.programUnit (s : State) (u : Nat) : State :=
  match s.lq.units[u]? with
  | none => s
  | some x => match s.quenchSpot x.lun with
    | none => s
    | some pl =>
      let (id, s) := s.freshJob
      let j := { PageJob.plain 6 0 0 0 pl.1 pl.2.1 pl.2.2 s.mm.quenchSet u with
        bytes := x.bytes, data := padPage id (s.pageBytesOf pl.1) x.data
        tag := pageTag s.mm.quenchSet pl.2.2 (pl.1 / 32) 6 [0, 0] 0 none (x.group.getD 0) }
      let s := s.updUnit u (fun x => { x with place := some pl })
      ({ s with mm := { s.mm with jobs := s.mm.jobs.put id j } }).kickQuench x.lun

/-- MV_SIGNAL: tells LQ that a unit has moved, starts its page program, raises a mover event, or interrupts the Management Processor
(Table 10.6). A reserved kind stops the mover (R308). -/
def execMvSignal (m : Nat) (s : State) : Answer :=
  let v := s.mover m
  let i := v.insn
  occurs s (s.prgOn m && v.wait.isNone && decide (leAt i 0 1 = 4)) (fun s =>
    let u := (v.k.get 1 0).toNat
    match leAt i 1 1 with
    | 1 => (s.updUnit u (fun x => { x with moved := true })).prgNext m
    | 2 => (s.programUnit u).prgNext m
    | 3 => (s.updMover (leAt i 8 1 % 64) (fun y => { y with event := true })).prgNext m
    | 4 => s.prgNext m
    | _ => s.prgStop m 0)

/-- MV_END: the program stops with its code; in Diagnostic the mover returns to descriptors (R307). -/
def execMvEnd (m : Nat) (s : State) : Answer :=
  let v := s.mover m
  let i := v.insn
  occurs s (s.prgOn m && v.wait.isNone && decide (leAt i 0 1 = 5)) (fun s =>
    s.updMover m (fun y => { y with prgRun := false, prgDone := true, prgEnd := leAt i 1 1, prgMode := !s.inMode [.diagnostic] }))

/-! ## Reassignment (R309) -/

/-- The next unfenced mover after `m`. -/
def State.nextMover (s : State) (m : Nat) : Option Nat :=
  ((List.range 63).map (fun k => (m + 1 + k) % 64)).find? (fun k => !(s.mover k).fenced)

/-- LQ passes the units queued for mover `m` on. -/
def State.passUnits (s : State) (m : Nat) : State :=
  match s.nextMover m with
  | none => s
  | some k => { s with lq := { s.lq with units := s.lq.units.map (fun u =>
      if u.mover = some m && !u.moved && !u.programmed then { u with mover := some k, taken := false } else u) } }

/-- LQ_REASSIGN: a mover has taken no unit for LQ_REASSIGN_US, or is fenced. -/
def execLqReassign (m : Nat) (s : State) : Answer :=
  let mine := s.lq.units.any (fun u => decide (u.mover = some m) && !u.taken && !u.programmed)
  occurs s (s.inMode [.quench] && mine && ((s.mover m).fenced || s.passedUs (s.mover m).tookAt (fld s.mv.cfg 16 16))) (fun s => s.passUnits m)

end Sys2Proof.Machine
end

