-- ==== Sys2Proof/Machine/Data.lean ====
section
/-! DEFINITION. Data words that move bytes: MOVE, REGION_READ, READ_STREAM, VAULT_READ, FILL (Table 3.11). -/
namespace Sys2Proof.Machine

/-! ## Carrying out a data operation (R113, R114, R299) -/

/-- The data operation begins: its checks have passed. -/
def State.beginXfr (s : State) (e : Nat) (x : Xfr) : State := s.updProg e (fun p => { p with xf := some x })

/-- Go on with the data operation in hand, once every page it waits for has been read (R217). -/
def State.goOn (s : State) (e : Nat) (go : Prog → Xfr → Ccw → State → State) : State :=
  match s.prog e with
  | none => s
  | some p => match p.xf, p.op with
    | some x, w :: _ => if x.reads.any (fun i => s.mm.jobs.has i) then s else go p x w s
    | _, _ => s

/-- A delivered data operation: its checks, then what begins it, then what moves its bytes; its command comes again while bytes are left
to move or something it needs is not there. -/
def State.dataWord (s : State) (e : Nat) (opc : BitVec 8) (chk : Prog → Ccw → State → Option Bad) (start : Prog → Ccw → State → State)
    (go : Prog → Xfr → Ccw → State → State) : Answer :=
  s.atWord e (fun w => decide (w.opc = opc)) (fun p w s =>
    if p.xf.isSome then .next (s.goOn e go)
    else s.checked e (chk p w s) (fun s => (start p w s).goOn e go))

/-- The plain beginning. -/
def plainStart (e : Nat) (_ : Prog) (_ : Ccw) (s : State) : State := s.beginXfr e Xfr.fresh

/-- Every check of a data operation in the order of R108: undefined effects, declared bounds, encoding, access. -/
def opChecks (f : Form) (p : Prog) (objLen ops : Nat) (drpOk : Bool) (rows access : List (Option Bad)) : Option Bad :=
  firstBad ([undefIf (dataUndef f p p.op), badIf (p.overBounds (opLen p.op) ops) Ending.programFault 0,
    dataChecks f p p.op objLen drpOk rows] ++ access)

/-! ## The channel (R299, R301) -/

/-- The operation takes bytes from its buffer. -/
def Prog.outward (p : Prog) (w : Ccw) : Bool :=
  decide (w.opc = 0x11) || decide (w.opc = 0x13) || decide (w.opc = 0x16) || (decide (w.opc = 0x10) && decide ((p.eff w).mode % 2 = 1))

/-- The mover descriptor of a data operation: its object on one side, its first buffer piece on the other. Streams, regions and vault
images stand in the Yard at addresses that no rule gives, and neither is the TOKEN given: free values `a` and `tok` (log 90). -/
def Prog.desc (p : Prog) (w : Ccw) (e : Nat) (a : W64) (tok : W32) : Desc :=
  let side := fun (x : Piece) => (x.space, if x.space = spLocal then x.addr + BitVec.ofNat 64 (e * 2 ^ 32) else x.addr)
  let v := p.eff w
  let obj := if v.space ≤ 2 ∨ v.space = spPort ∨ v.space = spCellq then side ⟨v.space, v.addr, 0⟩ else (spYard, a)
  let buf := side (p.bufPiece w)
  let src := if p.outward w then buf else obj
  let dst := if p.outward w then obj else buf
  { src := src.2, dst := dst.2, length := min (opLen p.op) 0xFFFFFF, srcSpace := src.1, dstSpace := dst.1, wb := false, paced := false,
    codec := false, fixSrc := decide (src.1 = spPort), fixDst := decide (dst.1 = spPort), cls := p.cls, mid := p.mid, requester := p.crew, burst := 0, token := tok }

/-- The operation of program `p` takes a free channel of its cluster's movers for its descriptor; none where no channel is free (R299). -/
def State.grab (s : State) (e : Nat) (p : Prog) (w : Ccw) : Option State :=
  let d := p.desc w e (Config.freeWord s.free) (BitVec.ofNat 32 (Config.freeNat (s.free + 1)))
  match s.seize (e / engPerCluster) d (if p.cls = 1 then p.deadline else 0) with
  | none => none
  | some (mc, t) => some (({ t with free := t.free + 2 } : State).updProg e (fun p => { p with xf := p.xf.map (fun x => { x with chan := some mc }) }))

/-- Run `f` while the mover carries the operation: it takes a free channel where it holds none, and where none is free the word stays in
EXEC (R299). -/
def State.carry (s : State) (e : Nat) (w : Ccw) (f : Prog → State → State) : State :=
  match s.prog e with
  | none => s
  | some p =>
    if p.chan.isSome then (if s.carried p then f p s else s)
    else match s.grab e p w with
      | none => s
      | some t => match t.prog e with
        | some q => if t.carried q then f q t else t
        | none => t

/-! ## Portions and progress (R126 to R128, R137) -/

/-- Bytes that one command of the operation moves at most: 64 KiB; with a Cell Pool queue, where the end of a packet ends the transfer,
the whole (log 90). -/
def Prog.portion (p : Prog) (cell : Bool) (total : Nat) : Nat := if cell then total - p.moved else min 65536 (total - p.moved)

/-- How much a transfer moved, and what stopped it. -/
structure Moved where
  bytes : Nat
  fail : Option (Nat × Ending)
  st : State

/-- The status with which the descriptor of the word ends (Table 10.4). -/
def xferStatus (fail : Option (Nat × Ending)) (mismatch : Bool) : Nat :=
  match fail with
  | some f => if f.2.status = Status.linkFault then dsLink else dsEcc
  | none => if mismatch then dsShort else dsOk

/-- The word ends: a failure ends the program; a length mismatch ends it unless the last word sets TOL; otherwise `fin` is done and the
word completes with its flags and counts (R76, R91, R101, R103, R126). -/
def State.endData (m : Moved) (e ops : Nat) (mismatch : Bool) (dev : Byte) (fin : Prog → Prog) : State :=
  match m.st.prog e with
  | none => m.st
  | some p =>
    let len := opLen p.op
    let heads := match p.xf with | some x => x.heads | none => 0
    let s := (m.st.updProg e (fun p => { p with residual := len - m.bytes })).dropChan e (xferStatus m.fail mismatch)
    match m.fail with
    | some f => s.endAtWord e f.2 f.1
    | none =>
      let s := s.updProg e fin
      if mismatch && !p.opTol then s.endAtWord e Ending.lengthMismatch 0
      else (s.updProg e (fun p => p.dataDone m.bytes heads ops mismatch dev)).completeWord e .next

/-- The operation has moved `m.bytes` more of the `total` bytes that its source holds, or ended short: it ends, or goes on; a further
64 KiB starts the step timeout again and is a handover point (R127, R137). -/
def State.wordProgress (m : Moved) (e : Nat) (p : Prog) (total ops : Nat) (short mismatch : Bool) (dev : Byte) (fin : Prog → Prog) : State :=
  let s := match (m.st.prog e).bind Prog.chan with | some (a, c) => m.st.moverBytes a c m.bytes | none => m.st
  let moved := p.moved + m.bytes
  let s := s.updProg e (fun q => { q with moved := moved, residual := opLen p.op - moved })
  if short || m.fail.isSome || decide (total ≤ moved) then
    State.endData { bytes := moved, fail := m.fail, st := s } e ops mismatch dev fin
  else
    let more := decide (moved / 65536 ≠ p.moved / 65536)
    (if more then s.ack e else s).updProg e (fun q => { q with further := more, execAt := if more then s.tick else q.execAt })

/-- Give source bytes to the buffer pieces. `x` may report that the transfer failed: then as many bytes as it carries had
moved. With DRP nothing is written (R72). -/
def State.deliverTo (s : State) (e : Nat) (p : Prog) (ps : List Piece) (bs : List Byte) (drp : Bool) (x : Xfer) : Moved :=
  let remote := !drp && ps.any (fun q => decide (q.space = spHost))
  let put := fun (b : List Byte) => if drp then s else State.scatter e p.fn ps b s
  match xferEnding x.status remote with
  | none => { bytes := bs.length, fail := none, st := put bs }
  | some n => { bytes := (bs.take x.data.length).length, fail := some (0, n), st := put (bs.take x.data.length) }

/-- The word that a failure of a delivery names: a failed write the piece it met (Table 4.5), a failed read of the object the first word. -/
def failAt (ps : List Piece) (off : Nat) (fail : Option (Nat × Ending)) : Option (Nat × Ending) :=
  fail.map (fun f => (if f.2.status = Status.linkFault then pieceIndex ps off else 0, f.2))

/-- Deliver the next portion of the bytes taken from the object. -/
def State.deliverNext (s : State) (e : Nat) (p : Prog) (w : Ccw) (ops : Nat) (mismatch : Bool) (x : Xfer) (fin : Prog → Prog) : State :=
  let src := match p.xf with | some y => y.src | none => []
  let ps := p.pieces p.op
  let n := p.portion (hasCell ps && !w.drp) src.length
  let m := s.deliverTo e p (slicePieces ps p.moved n) ((src.drop p.moved).take n) w.drp x
  State.wordProgress { m with fail := failAt ps (p.moved + m.bytes) m.fail } e p src.length ops false mismatch 1 fin

/-- Read the pieces of a source, as far as the outside served it: from host memory the bytes it supplied; from another
source that a failed transfer cut short, as many bytes as `x` carries. A failure names the piece it met. -/
def State.collect (s : State) (e : Nat) (ps : List Piece) (remote : Bool) (x : Xfer) : Got :=
  let host := ps.any (fun q => decide (q.space = spHost))
  let g := State.gather e 0 ps x.data s
  match xferEnding x.status (remote || host) with
  | none => g
  | some n =>
    let bs := if host then g.bytes else g.bytes.take x.data.length
    { g with bytes := bs, fail := some (pieceIndex ps bs.length, n) }

/-- The next portion of the buffer pieces as a source. -/
def State.collectNext (s : State) (e : Nat) (p : Prog) (remote : Bool) (x : Xfer) : Got :=
  let ps := p.pieces p.op
  let n := p.portion (hasCell ps) (opLen p.op)
  let g := s.collect e (slicePieces ps p.moved n) remote x
  { g with fail := g.fail.map (fun f => (pieceIndex ps (p.moved + g.bytes.length), f.2)) }

/-! ## MOVE (R90, R482) -/

def formMove : Form :=
  { spaces := [spHost, spYard, spLocal, spCellq, spRaw], gpref := true, buffer := true, spn := true, drp := true, modeMask := 1 }

/-- Number of the LUN that a RAWFLASH address names (Table 3.4). -/
def rawLun (a : W64) : Nat := fld a 60 4 * 32 + fld a 57 3 * 4 + fld a 55 2
def rawColumn (a : W64) : Nat := fld a 32 16

/-- Data and spare bytes of a page of a LUN, from its vendor table entry. -/
def State.pageBytes (s : State) (l : Nat) : Nat :=
  if (s.lun l).present then
    let v := s.mm.vendor.getD (s.lun l).vend []
    leAt v 8 4 + leAt v 12 2
  else 0

/-- Two ranges of one memory share a byte (R90). -/
def overlaps (x y : Piece) : Bool :=
  decide (x.space = y.space) && (decide (x.space = spHost) || decide (x.space = spYard) || decide (x.space = spLocal))
    && decide (x.addr.toNat < y.addr.toNat + y.len) && decide (y.addr.toNat < x.addr.toNat + x.len)

/-- The object of a MOVE as a piece. -/
def Prog.objPiece (p : Prog) (w : Ccw) : Piece :=
  { space := (p.eff w).space, addr := (p.eff w).addr, len := opLen p.op }

/-- Where the source and destination overlap, what the destination holds is not stated: free bytes (R90, log 2). -/
def Got.blur (g : Got) (b : Bool) : Got :=
  if b then { g with bytes := (g.st.takeFreeBytes g.bytes.length).1, st := (g.st.takeFreeBytes g.bytes.length).2 } else g

/-- Checks of a MOVE. -/
def State.moveChecks (s : State) (p : Prog) (w : Ccw) : Option Bad :=
  let v := p.eff w
  let out := v.mode % 2 = 1
  let len := opLen p.op
  let raw := decide (v.space = spRaw)
  opChecks formMove p len 0 (!out)
    [badIf (raw && decide (s.pageBytes (rawLun v.addr) < rawColumn v.addr + len)) Ending.programFault 0,
     badIf (raw && !s.inMode [.diagnostic]) Ending.protectionFault 0]
    [badIf (raw && !s.holds p.mid 9 0 5) Ending.protectionFault 0,
     badIf (!raw && !s.memAllowed p v.space v.addr len out) Ending.protectionFault 0,
     if w.drp then none else s.pieceDenied p (p.pieces p.op) (!out)]

/-- Whether a Cell Pool source has ended: it gave fewer bytes than the transfer asked for. -/
def cellEnd (src : List Piece) (g : Got) : Bool := hasCell src && g.fail.isNone && decide (g.bytes.length < sumBy (fun q => q.len) src)

/-- The NAND page of a RAWFLASH MOVE is read, or programmed, by a job of the program's class (R482). The row of a page counts the pages of
a LUN block by block (log 91). -/
def State.rawJob (s : State) (e : Nat) (p : Prog) (a : W64) (write : Bool) : State :=
  let l := rawLun a
  let rows := max 1 (s.rowsTlc l)
  let (id, s) := s.newJob (PageJob.plain (if write then 11 else 10) p.cls p.crew p.deadline l (fld a 0 32 / rows) (fld a 0 32 % rows) 0 0)
  s.updProg e (fun p => { p with xf := p.xf.map (fun x => { x with reads := [id], granted := true }) })

/-- A RAWFLASH MOVE: into the buffer once the page has been read; from the buffer its bytes are taken first, and the word completes once the
page has been programmed (R482). What the page's status reports is in `x`. -/
def State.rawMove (s : State) (e : Nat) (p : Prog) (x : Xfr) (w : Ccw) (y : Xfer) : State :=
  let v := p.eff w
  let len := opLen p.op
  if v.mode % 2 = 0 then
    if !x.granted then s.rawJob e p v.addr false
    else s.carry e w (fun p s =>
      let n := p.portion (hasCell (p.pieces p.op) && !w.drp) len
      let bs := y.data.take n
      let m := s.deliverTo e p (slicePieces (p.pieces p.op) p.moved n) bs w.drp y
      State.wordProgress { m with fail := failAt (p.pieces p.op) (p.moved + m.bytes) m.fail } e p len 0 false false 1 (fun p => p))
  else if x.granted then
    let fail := match xferEnding y.status false with | some n => some (0, n) | none => none
    State.endData { bytes := len, fail := fail, st := s } e 0 false 1 (fun p => p)
  else s.carry e w (fun p s =>
    let g := s.collectNext e p false y
    let short := cellEnd (p.pieces p.op) g
    let src := x.src ++ g.bytes
    let s := g.st.updProg e (fun p => { p with xf := p.xf.map (fun x => { x with src := src }) })
    if g.fail.isSome || short then State.wordProgress { bytes := g.bytes.length, fail := g.fail, st := s } e p len 0 true short 1 (fun p => p)
    else if src.length < len then State.wordProgress { bytes := g.bytes.length, fail := none, st := s } e p len 0 false false 1 (fun p => p)
    else
      let col := rawColumn v.addr
      let all := List.replicate col 0xFF ++ src ++ List.replicate (s.pageBytes (rawLun v.addr) - col - src.length) 0xFF
      let s := (s.dropChan e dsOk).drive (.nandRaw v.addr all)
      s.rawJob e p v.addr true)

/-- A MOVE between memories: the next portion goes from the source to the destination (R72, R90). -/
def State.memMove (s : State) (e : Nat) (w : Ccw) (y : Xfer) : State :=
  s.carry e w (fun p s =>
    let obj := p.objPiece w
    let ps := p.pieces p.op
    let blur := !w.drp && ps.any (fun q => overlaps obj q)
    let out := decide ((p.eff w).mode % 2 = 1)
    let n := p.portion (hasCell (obj :: ps)) (opLen p.op)
    let o := slicePieces [obj] p.moved n
    let b := slicePieces ps p.moved n
    let src := if out then b else o
    let dst := if out then o else b
    let remote := !w.drp && dst.any (fun q => decide (q.space = spHost))
    let g := (s.collect e src remote y).blur blur
    let s := if w.drp then g.st else State.scatter e p.fn dst g.bytes g.st
    let at_ := p.moved + g.bytes.length
    let i := if out || remote then pieceIndex ps at_ else 0
    let short := cellEnd src g
    State.wordProgress { bytes := g.bytes.length, fail := g.fail.map (fun f => (i, f.2)), st := s } e p (opLen p.op) 0 short short 1 (fun p => p))

/-- MOVE: bytes go from the object to the buffer, or from the buffer to the object with MODE[0] = 1 (R72, R90, R482). `x`
supplies bytes read from host memory or from a raw NAND page. -/
def execMove (e : Nat) (x : Xfer) (s : State) : Answer :=
  s.dataWord e 0x10 (fun p w s => s.moveChecks p w) (plainStart e) (fun p y w s =>
    if (p.eff w).space = spRaw then s.rawMove e p y w x else s.memMove e w x)

/-! ## Reading streams, regions and vault images (R53, R54, R57, R58, R93, R94) -/

/-- Records that readers can see: accepted, and before the first number still reserved (R29, R53). -/
def Stream.visible (x : Stream) : List Rec := x.live.filter (fun r => decide (r.seq < x.accSeq))

/-- Whole records, header and payload, as many as fit in `n` bytes; with the number after the last. -/
def takeRecs (id : Nat) : List Rec → Nat → List Byte × Option Nat
  | [], _ => ([], none)
  | r :: t, n =>
    let b := recHeader id r ++ r.payload
    if n < b.length then ([], none)
    else
      let rest := takeRecs id t (n - b.length)
      (b ++ rest.1, some (rest.2.getD (r.seq + 1)))

/-- Where a read starts: the records from the cursor on (R53). -/
def Stream.from (x : Stream) (time : Bool) (cur : Nat) : List Rec :=
  if time then x.visible.dropWhile (fun r => decide (r.ts.toNat < cur))
  else x.visible.filter (fun r => decide (cur ≤ r.seq))

/-- The number at which a read that delivers nothing would have started (R93). -/
def Stream.startAt (x : Stream) (time : Bool) (cur : Nat) : Nat :=
  match x.from time cur with
  | r :: _ => r.seq
  | [] => if time then x.accSeq else max cur x.accSeq

def formStream : Form := { spaces := [spStream], gpref := false, buffer := true, spn := true, drp := true, modeMask := 1 }

/-- A record's bytes are still in the Landing: the charge of its write has not been released (R29, R31). -/
def State.recInLanding (s : State) (st : Nat) (r : Rec) : Bool :=
  s.lq.groups.any (fun g => decide (g.id = r.group) && g.writes.any (fun w => !w.released && (match w.kind with
    | .record a q _ _ => decide (a = st) && decide (q = r.seq)
    | _ => false)))

/-- The pages that a read of records takes from NAND, with their segments: those of the records that the Landing no longer holds. -/
def State.recPages (s : State) (st : Nat) (rs : List Rec) : List (Nat × Nat × Nat × Nat) :=
  (rs.flatMap (fun r => if s.recInLanding st r then [] else r.places.map (fun p => (r.seg.getD 0, p)))).eraseDups

/-- READ_STREAM begins: whole records from the cursor on are chosen, and those on NAND are read; lost bytes end it with DATA_FAULT (R53, R54,
R93, R198, R216, R380). -/
def State.beginRead (s : State) (e : Nat) (p : Prog) (w : Ccw) : State :=
  let id := fld w.addr 48 16
  let cur := (p.getGp (fld w.sub 0 4 + 1)).toNat
  let time := w.mode.getLsbD 0
  match s.stream id with
  | none => s
  | some st =>
    if !time && decide (cur < st.oldSeq) then s.endAtWord e Ending.dataGone 0
    else
      let all := st.from time cur
      let r := takeRecs id all (opLen p.op)
      let read := all.takeWhile (fun q => decide (q.seq < r.2.getD 0))
      let pages := s.recPages id read
      let q := State.askReads p.cls p.crew p.deadline pages (s.useStream id)
      if pages.any (fun x => s.pageLost x.1 x.2) then s.endAtWord e Ending.dataFault 0
      else q.2.beginXfr e { Xfr.fresh with src := r.1, heads := 32 * read.length, next := r.2.getD (st.startAt time cur), reads := q.1 }

/-- The first of the chosen records whose bytes a failed media read did not deliver. -/
def State.lostFrom (s : State) (id cur : Nat) (time : Bool) (p : Prog) (n : Nat) : Nat :=
  match s.stream id with
  | none => cur
  | some st =>
    let l := st.from time cur
    (takeRecs id l (p.moved + n)).2.getD (match l with | q :: _ => q.seq | [] => 0)

/-- The checks of a READ_STREAM. -/
def State.streamChecks (s : State) (p : Prog) (w : Ccw) : Option Bad :=
  let id := fld w.addr 48 16
  opChecks formStream p 0 (mediaOps (opLen p.op)) true []
    [badIf (s.noStream id || !s.holds p.mid 3 id 0) Ending.protectionFault 0, if w.drp then none else s.pieceDenied p (p.pieces p.op) true]

/-- The next portion of a READ_STREAM; with its end GP((n+1) mod 16) takes the number after the last record (R93). -/
def State.streamNext (s : State) (e : Nat) (y : Xfr) (w : Ccw) (x : Xfer) : State :=
  s.carry e w (fun p s =>
    let id := fld w.addr 48 16
    let reg := fld w.sub 0 4 + 1
    let n := opLen p.op
    let lost := s.lostFrom id (p.getGp reg).toNat (w.mode.getLsbD 0) p x.data.length
    let s := if x.status = .decode then s.ladderFailed (lostStream id lost 1) id false else s
    s.deliverNext e p w (mediaOps n) (decide (y.src.length < n)) x (fun p => p.setGp reg (BitVec.ofNat 64 y.next)))

/-- READ_STREAM: whole records from the cursor in GP((n+1) mod 16) on, in order (R53, R54, R93). `x` carries the status of
reads from media. -/
def execReadStream (e : Nat) (x : Xfer) (s : State) : Answer :=
  s.dataWord e 0x12 (fun p w s => s.streamChecks p w)
    (fun p w s => s.beginRead e p w) (fun _ y w s => s.streamNext e y w x)

/-- Byte `a` of a region: 0x00 where nothing is written (R57). -/
def Region.byteAt (r : Region) (a : Nat) : Byte :=
  match r.units.find (a / 4096) with
  | some u => u.data.getD (a % 4096) 0
  | none => 0

def Region.bytesAt (r : Region) (a n : Nat) : List Byte := (List.range (min n (r.size - a))).map (fun k => r.byteAt (a + k))

/-- Region of a word's address and the byte offset in it (Table 3.4). -/
def regionId (a : W64) : Nat := fld a 56 8
def regionOff (a : W64) : Nat := fld a 0 56

def formRegionRead : Form := { spaces := [spRegion], gpref := false, buffer := true, spn := true, drp := true, modeMask := 0 }

/-- The pages that a read of `[off, off + n)` of a region takes from NAND. -/
def State.unitPages (s : State) (id : Nat) (r : Region) (off n : Nat) : List (Nat × Nat × Nat × Nat) :=
  ((r.units.filter (fun u => decide (off < u.1 * 4096 + 4096) && decide (u.1 * 4096 < off + n))).flatMap (fun u =>
    if s.unitInLanding id u.1 then [] else u.2.places.map (fun p => (u.2.seg.getD 0, p)))).eraseDups

/-- REGION_READ begins: its bytes are taken, and the pages on NAND are read; lost bytes end it with DATA_FAULT (R380). -/
def State.beginRegionRead (s : State) (e : Nat) (p : Prog) (w : Ccw) : State :=
  let id := regionId w.addr
  match s.region id with
  | none => s
  | some r =>
    let n := opLen p.op
    let pages := s.unitPages id r (regionOff w.addr) n
    let q := State.askReads p.cls p.crew p.deadline pages (s.useRegion id)
    if pages.any (fun x => s.pageLost x.1 x.2) then s.endAtWord e Ending.dataFault 0
    else q.2.beginXfr e { Xfr.fresh with src := r.bytesAt (regionOff w.addr) n, reads := q.1 }

/-- The checks of a REGION_READ. -/
def State.regionReadChecks (s : State) (p : Prog) (w : Ccw) : Option Bad :=
  let id := regionId w.addr
  opChecks formRegionRead p 0 (mediaOps (opLen p.op)) true []
    [badIf (s.noRegion id || !s.holds p.mid 4 id 0) Ending.protectionFault 0, if w.drp then none else s.pieceDenied p (p.pieces p.op) true]

/-- The next portion of a REGION_READ. -/
def State.regionNext (s : State) (e : Nat) (y : Xfr) (w : Ccw) (x : Xfer) : State :=
  s.carry e w (fun p s =>
    let id := regionId w.addr
    let n := opLen p.op
    let s := if x.status = .decode then
        s.ladderFailed (lostRegion id ((regionOff w.addr + p.moved + x.data.length) / 4096 * 4096) 1) id true else s
    s.deliverNext e p w (mediaOps n) (decide (y.src.length < n)) x (fun p => p))

/-- REGION_READ: the latest accepted content of each unit; beyond the end it delivers the bytes up to the end (R29, R57,
R94). -/
def execRegionRead (e : Nat) (x : Xfer) (s : State) : Answer :=
  s.dataWord e 0x14 (fun p w s => s.regionReadChecks p w)
    (fun p w s => s.beginRegionRead e p w) (fun _ y w s => s.regionNext e y w x)

/-- The slot a VAULT_READ reads: the named one, or the active one of its pair with MODE[0] = 1 (R94). -/
def State.vaultSlot (s : State) (w : Ccw) : Nat :=
  let n := fld w.addr 58 6
  if w.mode.getLsbD 0 then n / 2 * 2 + (if s.mm.active.get (n / 2) false then 1 else 0) else n

/-- The verified image of a slot. -/
def State.image (s : State) (n : Nat) : Option (List Byte) :=
  match s.mm.slots.find n with
  | some v => if v.verified then some v.image else none
  | none => none

def formVault : Form := { spaces := [spVault], gpref := false, buffer := true, spn := true, drp := true, modeMask := 1 }

/-- The checks of a VAULT_READ. -/
def State.vaultChecks (s : State) (p : Prog) (w : Ccw) : Option Bad :=
  opChecks formVault p 0 0 true []
    [badIf ((s.image (s.vaultSlot w)).isNone || !s.holds p.mid 5 (fld w.addr 58 6 / 2) 0) Ending.protectionFault 0,
     if w.drp then none else s.pieceDenied p (p.pieces p.op) true]

/-- The next portion of a VAULT_READ. -/
def State.vaultNext (s : State) (e : Nat) (y : Xfr) (w : Ccw) (x : Xfer) : State :=
  s.carry e w (fun p s => s.deliverNext e p w 0 (decide (y.src.length < opLen p.op)) x (fun p => p))

/-- VAULT_READ: bytes of a verified vault image (R58, R94). -/
def execVaultRead (e : Nat) (x : Xfer) (s : State) : Answer :=
  s.dataWord e 0x15 (fun p w s => s.vaultChecks p w)
    (fun p w s => s.beginXfr e { Xfr.fresh with
      src := (((s.image (s.vaultSlot w)).getD []).drop (fld w.addr 0 58)).take (opLen p.op) })
    (fun _ y w s => s.vaultNext e y w x)

/-! ## FILL -/

def formFill : Form := { spaces := [spHost, spYard, spLocal], gpref := true, buffer := false, spn := false, drp := false, modeMask := 1 }

/-- The pattern of a FILL (Table 3.11). -/
def Prog.pattern (p : Prog) (w : Ccw) : List Byte :=
  if (p.eff w).mode % 2 = 1 then leBytes 8 (p.getGp (fld w.sub 0 4)).toNat else [w.sub]

/-- The checks of a FILL. -/
def State.fillChecks (s : State) (p : Prog) (w : Ccw) : Option Bad :=
  let v := p.eff w
  firstBad [undefIf (decide (v.mode % 2 = 1) && decide (15 < w.sub.toNat)),
    opChecks formFill p (opLen p.op) 0 false [] [badIf (!s.memAllowed p v.space v.addr (opLen p.op) true) Ending.protectionFault 0]]

/-- The next portion of a FILL. -/
def State.fillNext (s : State) (e : Nat) (w : Ccw) (x : Xfer) : State :=
  s.carry e w (fun p s =>
    let n := opLen p.op
    let k := p.portion false n
    let bs := (List.range k).map (fun i => (p.pattern w).getD ((p.moved + i) % (p.pattern w).length) 0)
    State.wordProgress (s.deliverTo e p (slicePieces [p.objPiece w] p.moved k) bs false x) e p n 0 false false 1 (fun p => p))

/-- FILL: the object takes COUNT bytes of the pattern (Table 3.11). -/
def execFill (e : Nat) (x : Xfer) (s : State) : Answer :=
  s.dataWord e 0x18 (fun p w s => s.fillChecks p w)
    (plainStart e) (fun _ _ w s => s.fillNext e w x)

end Sys2Proof.Machine
end

