-- ==== Sys2Proof/Machine/Persist.lean ====
section
/-! DEFINITION. Persistence words (R31 to R45, R49 to R57, R92, R97, R98): APPEND, REGION_WRITE, SEAL, TRIM, SYNC and the
events that end their waits, and the time limits of a program (R127 to R129). -/
namespace Sys2Proof.Machine

/-! ## The write of a word -/

/-- What a persistence word is going to write. -/
inductive Target where
  | append (stream : Nat)
  | regionWrite (region off : Nat)
  | trimStream (stream below : Nat)
  | trimRegion (region off units : Nat)

/-- The target of a delivered persistence word. -/
def Prog.persistTarget (p : Prog) (w : Ccw) : Option Target :=
  if w.opc = 0x11 then some (.append (fld w.addr 48 16))
  else if w.opc = 0x13 then some (.regionWrite (regionId w.addr) (regionOff w.addr))
  else if w.opc = 0x31 then
    some (if w.space.toNat = spStream then .trimStream (fld w.addr 48 16) (p.getGp (fld w.sub 0 4)).toNat
      else .trimRegion (regionId w.addr) (regionOff w.addr) w.count.toNat)
  else none

/-- Its Landing charge (R31). -/
def Target.charge (t : Target) (len : Nat) : Nat :=
  match t with
  | .append _ => chargeAppend len
  | .regionWrite _ _ => chargeRegion len
  | .trimStream _ _ => chargeTrim
  | .trimRegion _ _ _ => chargeTrim

/-- Media operations of the word (R103). -/
def Target.ops (t : Target) (len : Nat) : Nat :=
  match t with
  | .append _ => mediaOps len
  | .regionWrite _ _ => mediaOps len
  | .trimStream _ _ => 1
  | .trimRegion _ _ _ => 1

/-- Reserve the next sequence number of a stream for group `g`; the timestamp never falls below the stream's last one
(R39, R47). -/
def Stream.reserveSeq (x : Stream) (g : Nat) (now : W64) : Stream :=
  { x with next := x.next + 1, reserved := x.reserved ++ [(x.next, g)],
           lastTs := if x.lastTs.toNat ≤ now.toNat then now else x.lastTs }

/-- What the word adds to its group, with the state after its number is reserved. -/
def State.bindWrite (s : State) (t : Target) (g : Nat) (data : List Byte) : WKind × State :=
  match t with
  | .append id =>
    match s.stream id with
    | none => (.trimStream id 0, s)
    | some st =>
      let s := s.updStream id (fun x => x.reserveSeq g s.tmr.time)
      (.record id st.next ((st.reserveSeq g s.tmr.time).lastTs) data, s)
  | .regionWrite r off => (.region r off data, s)
  | .trimStream id below => (.trimStream id below, s)
  | .trimRegion r off units => (.trimRegion r off units, s)

/-- A source that gave fewer bytes than the operation's length: what the rest holds is not stated (log 2). -/
def Got.fill (g : Got) (n : Nat) : Got :=
  if g.bytes.length < n then
    { g with bytes := g.bytes ++ (g.st.takeFreeBytes (n - g.bytes.length)).1, st := (g.st.takeFreeBytes (n - g.bytes.length)).2 }
  else g

/-- Bytes of a stream's records that open groups hold. -/
def State.openBytes (s : State) (id : Nat) : Nat :=
  sumBy (fun g => if g.sealed then 0 else sumBy (fun w => match w.kind with
    | .record st _ _ d => if st = id then 32 + d.length else 0
    | _ => 0) g.writes) s.lq.groups

/-- An APPEND that would take a PINNED stream beyond its byte count (R51). -/
def State.pinnedFull (s : State) (t : Target) (len : Nat) : Option Nat :=
  match t with
  | .append id =>
    match s.stream id with
    | some st => if st.policy = 2 ∧ st.limit < st.bytes + s.openBytes id + 32 + len then some id else none
    | none => none
  | _ => none

/-- Bytes that a persistence word takes from its buffer. -/
def Target.moves (t : Target) (len : Nat) : Nat :=
  match t with
  | .append _ => len
  | .regionWrite _ _ => len
  | _ => 0

/-- The charge is granted: the remaining class-1 reserve is drawn first, the number is reserved and the write joins the group, its bytes still to come; a
TRIM is done (R31, R34, R39, R51, R212). Seal each write seals here (R36). -/
def State.grantPersist (s : State) (e : Nat) : State :=
  match s.prog e with
  | none => s
  | some p =>
    match p.op.head?.bind p.persistTarget, p.group with
    | some t, some g =>
      let len := opLen p.op
      match s.pinnedFull t len with
      | some id => (s.updStream id (fun st => { st with full := true })).endAtWord e Ending.resourceExhausted 0
      | none =>
        let charge := t.charge len
        let s := s.updProg e (fun p => { p with reserve := p.reserve - charge, phase := .fetched })
        let b := s.bindWrite t g (List.replicate (t.moves len) 0)
        let s := b.2.addWrite g b.1 charge
        if t.moves len = 0 then
          let s := s.updProg e (fun p => p.deviceDone 0 1 1)
          (if p.policy = 2 then s.sealOpen e else s).completeWord e .next
        else s.beginXfr e { Xfr.fresh with granted := true }
    | _, _ => s

/-- Begin the write: the open group, its 4 MiB, then the Landing charge (R34, R44, R45, R51). -/
def State.beginPersist (s : State) (e : Nat) : State :=
  match s.prog e with
  | none => s
  | some p =>
    match p.op.head?.bind p.persistTarget with
    | none => s
    | some t =>
      let len := opLen p.op
      match s.pinnedFull t len with
      | some id => (s.updStream id (fun st => { st with full := true })).endAtWord e Ending.resourceExhausted 0
      | none =>
        let o := s.openGroup e p
        let s := o.2
        if groupMax < s.groupCharge (some o.1) + t.charge len then s.endAtWord e Ending.programFault 0
        else match s.tryCharge { p with group := some o.1 } (t.charge len) with
          | .refused => s.endAtWord e Ending.energyLimit 0
          | .waits => ((s.enqueueCharge e p.cls (t.charge len)).ack e).updProg e (fun p => { p with phase := .charge })
          | .granted => s.grantPersist e

/-- A write with the bytes that have come. -/
def WKind.withData (d : List Byte) : WKind → WKind
  | .record st seq ts _ => .record st seq ts d
  | .region r off _ => .region r off d
  | k => k

/-- The bytes of the last write of a group have come. -/
def State.fillWrite (s : State) (g : Nat) (d : List Byte) : State :=
  s.updGroup g (fun h => { h with writes := h.writes.mapIdx (fun i w => if i + 1 = h.writes.length then { w with kind := w.kind.withData d } else w) })

/-- The next portion of the data moves into the Landing; with the last of it the write is whole, and Seal each write seals it (R31, R36). A source that
ended short fills what TOL lets stand with bytes that are not stated (log 2). -/
def State.persistNext (s : State) (e : Nat) (w : Ccw) (y : Xfer) : State :=
  s.carry e w (fun p s =>
    let len := opLen p.op
    let g := s.collectNext e p false y
    let short := cellEnd (p.pieces p.op) g
    let src := (match p.xf with | some x => x.src | none => []) ++ g.bytes
    let s := g.st.updProg e (fun p => { p with xf := p.xf.map (fun x => { x with src := src }) })
    let whole := g.fail.isNone && (short || decide (len ≤ src.length)) && (!short || p.opTol)
    let s := match whole, p.group with
      | true, some i =>
        let r := Got.fill { g with bytes := src, st := s } len
        let s := r.st.fillWrite i r.bytes
        if p.policy = 2 then s.sealOpen e else s
      | _, _ => s
    State.wordProgress { bytes := g.bytes.length, fail := g.fail, st := s } e p len (mediaOps len) short short 1 (fun p => p))

/-! ## APPEND and REGION_WRITE -/

def formAppend : Form := { spaces := [spStream], gpref := false, buffer := true, spn := true, drp := false, modeMask := 0 }

/-- No Landing in Diagnostic (R442). -/
def State.noLanding (s : State) : Option Bad := badIf (s.inMode [.diagnostic]) Ending.programFault 0

/-- The checks of an APPEND. -/
def State.appendChecks (s : State) (p : Prog) (w : Ccw) : Option Bad :=
  let id := fld w.addr 48 16
  let n := opLen p.op
  opChecks formAppend p 0 (mediaOps n) false
    [badIf (decide (n = 0) || decide (256 * kib < n) || (decide (p.cls = 0) && decide (4096 < n))) Ending.programFault 0, s.noLanding]
    [badIf (s.noStream id || !s.holds p.mid 3 id 1) Ending.protectionFault 0, s.pieceDenied p (p.pieces p.op) false]

/-- APPEND: one record whose payload is the whole operation joins the open group (R49, R92). `x` supplies bytes read from
host memory. -/
def execAppend (e : Nat) (x : Xfer) (s : State) : Answer :=
  s.dataWord e 0x11 (fun p w s => s.appendChecks p w)
    (fun _ w s => (s.useStream (fld w.addr 48 16)).beginPersist e)
    (fun _ _ w s => s.persistNext e w x)

/-- A range of a region that is not aligned to 4 KiB, reaches beyond the region, or is too long at class 0 (R57, R97). -/
def State.regionRangeBad (s : State) (p : Prog) (a : W64) (n : Nat) : Bool :=
  decide (regionOff a % 4096 ≠ 0) || decide (n % 4096 ≠ 0)
    || (match s.region (regionId a) with | some r => decide (r.size < regionOff a + n) | none => false)
    || (decide (p.cls = 0) && decide (4096 < n))

def formRegionWrite : Form := { spaces := [spRegion], gpref := false, buffer := true, spn := true, drp := false, modeMask := 0 }

/-- The checks of a REGION_WRITE. -/
def State.regionWriteChecks (s : State) (p : Prog) (w : Ccw) : Option Bad :=
  let n := opLen p.op
  opChecks formRegionWrite p 0 (mediaOps n) false
    [badIf (s.regionRangeBad p w.addr n) Ending.programFault 0, s.noLanding]
    [badIf (s.noRegion (regionId w.addr) || !s.holds p.mid 4 (regionId w.addr) 1) Ending.protectionFault 0, s.pieceDenied p (p.pieces p.op) false]

/-- REGION_WRITE: whole 4 KiB units of a region join the open group (R57, R94). -/
def execRegionWrite (e : Nat) (x : Xfer) (s : State) : Answer :=
  s.dataWord e 0x13 (fun p w s => s.regionWriteChecks p w)
    (fun _ w s => (s.useRegion (regionId w.addr)).beginPersist e)
    (fun _ _ w s => s.persistNext e w x)

/-! ## SEAL, TRIM, SYNC -/

/-- SEAL: closes the open group, which is accepted as a whole (R26, R35, R40, R97). -/
def execSeal (e : Nat) (s : State) : Answer :=
  s.atWord e (fun w => decide (w.opc = 0x30)) (fun p w s =>
    s.checked e (zeroChecks p w false)
      (fun s => ((s.sealOpen e).updProg e (fun p => p.deviceDone 0 0 1)).completeWord e .next))

/-- Reserved parts of a TRIM word (Table 3.13). -/
def trimUndef (w : Ccw) : Bool :=
  decide (w.mode ≠ 0) ||
    (if w.space.toNat = spStream then decide (15 < w.sub.toNat) || decide (w.count ≠ 0) || decide (fld w.addr 0 48 ≠ 0)
     else if w.space.toNat = spRegion then decide (w.sub ≠ 0) else false)

/-- The checks of a TRIM. -/
def State.trimChecks (s : State) (p : Prog) (w : Ccw) : Option Bad :=
  let str := decide (w.space.toNat = spStream)
  let reg := decide (w.space.toNat = spRegion)
  let id := fld w.addr 48 16
  firstBad [
    undefIf (w.reservedBits || trimUndef w),
    badIf (p.overBounds 0 1) Ending.programFault 0,
    badIf (!str && !reg) Ending.programFault 0,
    flagChecks p w false false,
    badIf (reg && decide (w.count = 0)) Ending.programFault 0,
    badIf (reg && s.regionRangeBad p w.addr (w.count.toNat * 4096)) Ending.programFault 0,
    s.noLanding,
    badIf (str && (s.noStream id || !s.holds p.mid 3 id 2)) Ending.protectionFault 0,
    badIf (reg && (s.noRegion (regionId w.addr) || !s.holds p.mid 4 (regionId w.addr) 1)) Ending.protectionFault 0]

/-- TRIM: records below a number, or 4 KiB units of a region, are released when the group is accepted (R56, R57, R97). -/
def execTrim (e : Nat) (s : State) : Answer :=
  s.atWord e (fun w => decide (w.opc = 0x31)) (fun p w s => s.checked e (s.trimChecks p w) (fun s => s.beginPersist e))

/-- What a SYNC waits for has come: its groups are media-durable, and the stream has reached its number (R98). -/
def State.syncDone (s : State) (y : SyncS) : Bool :=
  y.groups.all (fun g => match s.group g with | some h => h.durable | none => true)
    && (match y.stream with
        | some q => (match s.stream q.1 with | some st => decide (q.2 ≤ st.durSeq) | none => true)
        | none => true)

/-- A SYNC completes: S tells of no DEVSTAT bit but DEV_END (R101). -/
def State.finishSync (s : State) (e : Nat) : State := (s.updProg e (fun p => p.deviceDone 0 0 1)).completeWord e .next

/-- The checks of a SYNC. -/
def State.syncChecks (s : State) (e : Nat) (p : Prog) (w : Ccw) : Option Bad :=
  let scope := w.mode.getLsbD 0
  let id := fld w.addr 48 16
  firstBad [
    undefIf (w.reservedBits || decide (3 < w.mode.toNat) || decide (w.sub ≠ 0)
      || (if scope then decide (fld w.addr 0 48 ≠ 0) else decide (w.addr ≠ 0))),
    badIf (p.overBounds 0 0) Ending.programFault 0,
    s.minorBelow e (if scope then 2 else 0),
    badIf (decide (w.space.toNat ≠ (if scope then spStream else 0))) Ending.programFault 0,
    flagChecks p w false false,
    badIf (decide (w.count = 0) && decide (p.cls ≤ 1)) Ending.programFault 0,
    badIf (scope && (s.noStream id || !s.holds p.mid 3 id 0)) Ending.protectionFault 0]

/-- The stream and number that a SYNC waits for, with MODE[0]. -/
def State.syncScope (s : State) (w : Ccw) : Option (Nat × Nat) :=
  if w.mode.getLsbD 0 then (s.stream (fld w.addr 48 16)).map (fun x => (fld w.addr 48 16, x.accSeq)) else none

/-- SYNC: seals first with MODE[1], then waits for its groups, and with MODE[0] for the stream (R98, R105). -/
def execSync (e : Nat) (s : State) : Answer :=
  s.atWord e (fun w => decide (w.opc = 0x32)) (fun p w s =>
    s.checked e (s.syncChecks e p w)
      (fun s =>
        let s := if w.mode.getLsbD 1 then s.sealOpen e else s
        let gs := match s.prog e with | some p => p.sealed | none => []
        let y : SyncS := { groups := gs, stream := s.syncScope w, startTick := s.tick, limitUs := w.count.toNat }
        if s.syncDone y then s.finishSync e else (s.ack e).updProg e (fun p => { p with phase := .sync y })))

/-- SYNC_COMPLETE: everything a SYNC waits for is media-durable (R98). -/
def execSyncComplete (e : Nat) (s : State) : Answer :=
  match s.running e with
  | none => .next s
  | some p =>
    match p.phase with
    | .sync y => occurs s (s.syncDone y) (fun s => s.finishSync e)
    | _ => .next s

/-- SYNC_LIMIT_EXPIRY: the limit of a SYNC has passed (R98). -/
def execSyncLimitExpiry (e : Nat) (s : State) : Answer :=
  match s.running e with
  | none => .next s
  | some p =>
    match p.phase with
    | .sync y =>
      occurs s (decide (y.limitUs ≠ 0) && s.passedUs y.startTick y.limitUs && !s.syncDone y) (fun s =>
        s.endAtWord e Ending.stepTimeout 0)
    | _ => .next s

/-! ## The waiting charges (R44) -/

/-- LANDING_CHARGE_GRANT: the charge at the head of a queue fits its room; its word goes on (R44, R127). `x` serves the word's
transfer. -/
def execLandingChargeGrant (c0 : Bool) (x : Xfer) (s : State) : Answer :=
  match s.lq.queue c0 with
  | [] => .next s
  | c :: _ =>
    match s.running c.eng with
    | none => .next s
    | some p =>
      occurs s (s.chargeOpen c.cls && decide (c.bytes ≤ s.freeRoom c.cls + p.reserve)) (fun s =>
        let s := s.dropCharge c.eng
        ((s.updProg c.eng (fun p => { p with execAt := s.tick })).grantPersist c.eng).goOn c.eng (fun _ _ w s => s.persistNext c.eng w x))

/-! ## Time limits (R127 to R129) -/

/-- Stop the word in execution at a time limit: a SEAL completes first (R128). -/
def State.stopWord (s : State) (e : Nat) (p : Prog) (n : Ending) : State :=
  let isSeal : Bool := match p.op with | w :: _ => decide (w.opc = 0x30) && decide (p.phase = .fetched) | [] => false
  (if isSeal then s.sealOpen e else s).endAtWord e n 0

/-- STEP_TIMEOUT: a word has executed for the crew's step timeout without progress; the program ends, and the engine reports
it (R127, R128, class 0x0C). -/
def execStepTimeout (e : Nat) (s : State) : Answer :=
  match s.running e with
  | none => .next s
  | some p =>
    occurs s ((decide (p.phase = .fetched) || decide (p.phase = .mbxFull) || decide (p.phase = .bar)) && s.passedUs p.execAt (s.stepUs p)) (fun s =>
      (s.stopWord e p Ending.stepTimeout).report 0x0C 0 kindEng e 0)

/-- A program stands inside a word. -/
def Phase.inWord : Phase → Bool
  | .fetched | .wait _ | .sync _ | .charge | .mbxFull | .bar => true
  | _ => false

/-- DEADLINE_EXPIRY: device time has reached the DEADLINE of a program that has not ended: classes 2 and 3 end with
STEP_TIMEOUT, class 1 with DEADLINE_MISSED once guarantee-lost is set (R129). -/
def execDeadlineExpiry (e : Nat) (s : State) : Answer :=
  match s.running e with
  | none => .next s
  | some p =>
    let due := decide (p.deadline ≠ 0) && decide (p.deadline.toNat ≤ s.now) && decide (p.phase ≠ .postwait)
    occurs s (due && (decide (2 ≤ p.cls) || (decide (p.cls = 1) && s.fcs.lost))) (fun s =>
      let n := if p.cls = 1 then Ending.deadlineMissed else Ending.stepTimeout
      if p.phase.inWord then s.stopWord e p n else s.endAtLast e n)

end Sys2Proof.Machine
end

