-- ==== Sys2Proof/Machine/Ports.lean ====
section
/-! DEFINITION. The external ports (chapter 11): links, gate lists, xSPI target ports, request lines, GPIO; what the port
words and the port events share. -/
namespace Sys2Proof.Machine

/-! ## Port numbers (Table 3.5) and rights -/

def fpOf (id : Nat) : Option Nat := if id ≤ 3 then some id else none
def dreqOf (id : Nat) : Option Nat := if 0x10 ≤ id ∧ id ≤ 0x1F then some (id - 0x10) else none
def xtOf (id : Nat) : Option Nat := if 0x20 ≤ id ∧ id ≤ 0x27 then some (id - 0x20) else none
def uartOf (id : Nat) : Option Nat := if 0x30 ≤ id ∧ id ≤ 0x31 then some (id - 0x30) else none
def i2cOf (id : Nat) : Option Nat := if 0x38 ≤ id ∧ id ≤ 0x39 then some (id - 0x38) else none

/-- A UART or I²C port that is a sideband (R344). -/
def State.isSideband (s : State) (id : Nat) : Bool :=
  match uartOf id with
  | some n => s.lpc.sbCfg.getLsbD n
  | none => match i2cOf id with
    | some n => s.lpc.sbCfg.getLsbD (2 + n)
    | none => false

/-! ### Framing of the sidebands (R344) -/

/-- The bytes of RFC 1055 (PRESUMED from that text, log 114). -/
def slipEnd : Byte := 0xC0
def slipEsc : Byte := 0xDB

/-- A SLIP frame of bytes. -/
def slip (bs : List Byte) : List Byte :=
  bs.flatMap (fun b => if b = slipEnd then [slipEsc, 0xDC] else if b = slipEsc then [slipEsc, 0xDD] else [b]) ++ [slipEnd]

/-- The bytes of a SLIP frame. -/
def unslip : List Byte → List Byte
  | [] => []
  | b :: t =>
    if b = slipEnd then unslip t
    else if b = slipEsc then
      match t with
      | [] => []
      | c :: u => (if c = 0xDC then slipEnd else if c = 0xDD then slipEsc else c) :: unslip u
    else b :: unslip t

/-- Bytes with their CRC-32C appended. -/
def withCrc (bs : List Byte) : List Byte := bs ++ leBytes 4 (crc32c bs).toNat

/-- What a SLIP frame carries; none where its CRC fails, and the frame is dropped. -/
def frameBody (wire : List Byte) : Option (List Byte) :=
  let bs := unslip wire
  let body := bs.take (bs.length - 4)
  if 4 ≤ bs.length ∧ withCrc body = bs then some body else none

/-- The command packet that reaches a sideband: in a SLIP frame on a UART, behind command byte 0x01 on I²C. -/
def sidebandPkt (port : Nat) (wire : List Byte) : Option (List Byte) :=
  let body := if (uartOf port).isSome then frameBody wire else match wire with | b :: t => if b = 1 then some t else none | [] => none
  body.filter (fun p => decide (p.length = 64))

/-- A reply leaves a sideband with its output data: at once in SLIP frames on a UART, at the controller's reads on I²C. A reply without data of its
own (`none`) leaves that of the one before. -/
def State.sidebandSend (s : State) (port : Nat) (reply : List Byte) (data : Option (List Byte)) : State :=
  if (uartOf port).isSome then
    let s := s.drive (.sideband port (slip (withCrc reply)))
    match data with
    | some (b :: t) => s.drive (.sideband port (slip (withCrc (b :: t))))
    | _ => s
  else
    { s with mgp := { s.mgp with
      sbReplies := s.mgp.sbReplies.put port (s.mgp.sbReplies.get port [] ++ [reply])
      sbData := match data with | some d => s.mgp.sbData.put port d | none => s.mgp.sbData } }

/-- I²C command bytes 0x02 and 0x03: 32 bytes of a reply, 0xFF when none is ready, and the next 32 bytes of result data; what follows the end of the
data is not stated and free (log 2). -/
def State.sidebandRead (s : State) (port : Nat) (wire : List Byte) : State :=
  if (uartOf port).isSome then s
  else if wire = [2] then
    match s.mgp.sbReplies.get port [] with
    | [] => s.drive (.sideband port (List.replicate 32 0xFF))
    | r :: t => ({ s with mgp := { s.mgp with sbReplies := s.mgp.sbReplies.put port t } } : State).drive (.sideband port r)
  else if wire = [3] then
    let d := s.mgp.sbData.get port []
    let f := s.takeFreeBytes (32 - d.length)
    ({ f.2 with mgp := { f.2.mgp with sbData := f.2.mgp.sbData.put port (d.drop 32) } } : State).drive (.sideband port (d.take 32 ++ f.1))
  else s

/-- The use right of a port, and the control right (Table 3.6); a sideband port rejects PORT words (R344). -/
def State.portDenied (s : State) (p : Prog) (id : Nat) (control : Bool) : Option Bad :=
  badIf (!s.holds p.mid 6 id 3 || (control && !s.holds p.mid 6 id 4) || s.isSideband id) Ending.protectionFault 0

def State.i2c (s : State) (n : Nat) : I2c := s.lpc.i2cs.get n I2c.reset
def State.updI2c (s : State) (n : Nat) (f : I2c → I2c) : State :=
  { s with lpc := { s.lpc with i2cs := s.lpc.i2cs.mod n I2c.reset f } }

/-- Post a port event to the functions that may read the FLD or the LPC block (R347). -/
def State.fldEvent (s : State) (code num : Nat) (info : W64) : State := s.postEventAll (blockOf 0xF00000) code num info
def State.lpcEvent (s : State) (code num : Nat) (info : W64) : State := s.postEventAll (blockOf 0xF80000) code num info

/-! ## Field Ports -/

/-- The port carries frames: enabled, its link up, not fenced (R327, R383). -/
def State.fpUp (s : State) (p : Nat) : Bool := (s.fport p).cfg.getLsbD 2 && (s.fport p).linkUp && !s.fcs.fencedPorts.contains p

/-- The link of a port goes up or down, with its event (R347). -/
def State.fpLink (s : State) (p : Nat) (up : Bool) : State :=
  if (s.fport p).linkUp = up then s
  else (s.updFport p (fun x => { x with linkUp := up })).fldEvent 0x0050 p (BitVec.ofNat 64 (bitN up 0))

/-- Bytes queued for a traffic class; each queue holds 64 KiB (R327). -/
def FPort.queued (x : FPort) (tc : Nat) : Nat := sumBy (fun f => if f.prio = tc then f.bytes.length else 0) x.tx
def txQueueSize : Nat := 64 * kib

/-- The entry of the operational gate list in force (R328). -/
def Gcl.entry (g : Gcl) (i : Nat) : Nat × Nat := g.entries.getD i (0xFF, 0)

/-- Nanoseconds for which traffic class `tc` stays open, scanning at most `fuel` entries; `none` while it is closed. -/
def Gcl.openNs (g : Gcl) (tc : Nat) : Nat → Nat → Nat
  | 0, _ => 0
  | fuel + 1, i =>
    let e := g.entry i
    if e.1.testBit tc then e.2 * 10 + Gcl.openNs g tc fuel ((i + 1) % max 1 g.entries.length) else 0

/-- Transmission time of a frame in ns at the port's speed: 8 bytes of preamble, the frame and its FCS (10G: 0.8 ns a
byte, 25G: 0.32 ns). -/
def FPort.frameNs (x : FPort) (n : Nat) : Nat :=
  let c := if fld x.cfg 0 2 = 2 then 32 else 80
  ((n + 12) * c + 99) / 100

/-- A frame of class `tc` may start now: its gate is open, and it ends before the gate closes (R328). An empty list keeps
every gate open. -/
def State.gateOpen (s : State) (x : FPort) (tc n : Nat) : Bool :=
  if x.oper.entries.isEmpty then true
  else
    let past := s.now - x.opAt
    decide (past + x.frameNs n ≤ x.oper.openNs tc (2 * x.oper.entries.length) x.opIdx)
      && (x.oper.entry x.opIdx).1.testBit tc

/-! ## xSPI target ports (R331 to R338) -/

/-- LPC_XT_STATUSn (Table 11.11). -/
def State.xtStatus (s : State) (n : Nat) : W32 :=
  let x := s.xt n
  let newer := match x.win with
    | some w => decide (w.1 ≠ w.1 / 2 * 2 + (if s.mm.active.get (w.1 / 2) false then 1 else 0))
    | none => false
  BitVec.ofNat 32 (bitN x.loaded 0 + bitN x.verified 1 + bitN x.rst 2 + bitN x.cycling 3 + bitN newer 4 + bitN x.wip 5
    + bitN x.octal 6 + bitN x.late 8 + bitN x.loadFail 9 + bitN x.windowFault 10 + bitN x.perrSeen 11)

/-- The least time of an assertion has passed (R336). -/
def State.xtMinPassed (s : State) (n : Nat) : Bool := s.passedUs (s.xt n).rstAt (fld (s.xt n).cfg 16 16)

/-- Every condition of R336 holds, and the safe state does not hold the line (R384). -/
def State.xtMayRelease (s : State) (n : Nat) : Bool :=
  let x := s.xt n
  x.cfg.getLsbD 0 && x.loaded && x.verified && !x.hold && !x.cycling && s.xtMinPassed n && !s.fcs.safeState

/-- Assert the client's reset: the client starts again in its boot mode (R331, R336). -/
def State.xtAssert (s : State) (n : Nat) : State :=
  s.updXt n (fun x => { x with rstAt := if x.rst then x.rstAt else s.tick, rst := true, octal := x.cfg.getLsbD 1, wel := false })

/-- Release the line where R336 allows it: the port starts in BOOT_MODE (R331). -/
def State.xtTryRelease (s : State) (n : Nat) : State :=
  if s.xtMayRelease n then s.updXt n (fun x => { x with rst := false, octal := x.cfg.getLsbD 1 }) else s

/-- Begin a reset cycle: the line is asserted and the window loads again (R337). -/
def State.xtStartCycle (s : State) (n : Nat) : State :=
  (s.xtAssert n).updXt n (fun x => { x with
    cycling := true, loaded := false, verified := false, win := if x.nextWin.isSome then x.nextWin else x.win, nextWin := none })

/-- The active slot of the pair that holds slot `k`. -/
def State.activeSlot (s : State) (k : Nat) : Nat := k / 2 * 2 + (if s.mm.active.get (k / 2) false then 1 else 0)

/-- A write-window error of the client (R334). -/
def Xt.writeError (x : Xt) : Xt := { x with wip := false, perr := true, perrSeen := true, werr := wrapAdd 32 x.werr 1, record := none }

def State.xtWriteError (s : State) (n : Nat) : State := (s.updXt n Xt.writeError).sets (0xF80004 + 0x100 * n) 11

/-- The write window: base and size in bytes (Table 11.12). -/
def Xt.writeWindow (x : Xt) : Nat × Nat := (fld x.wwin 0 16 * 4096, fld x.wwin 16 5 * 4096)
def Xt.inWrite (x : Xt) (a n : Nat) : Bool := decide (x.writeWindow.1 ≤ a) && decide (a + n ≤ x.writeWindow.1 + x.writeWindow.2)

/-! ## Request lines (R303, R340, R341) -/

/-- The mover channel a line is bound to. -/
def Dreq.bound (d : Dreq) : Bool := d.cfg.getLsbD 0
def Dreq.isLevel (d : Dreq) : Bool := d.cfg.getLsbD 1
def Dreq.mover (d : Dreq) : Nat := fld d.cfg 16 6
def Dreq.channel (d : Dreq) : Nat := if d.cfg.getLsbD 22 then 13 else 12

/-- Requests pending on a bound line. -/
def State.boundPending (s : State) (n : Nat) : Nat := (s.mvCh (s.dreq n).mover (s.dreq n).channel).pending

/-- Piece of a bound line's ring at its current offset, in at most two parts (R340). -/
def Dreq.ringPieces (d : Dreq) (n : Nat) : List Piece :=
  let base := d.ring.toNat / 64 * 64
  let sp := if fld d.ring 0 4 = spYard then spYard else spHost
  let off := d.off.toNat
  let size := d.size.toNat
  let a := min n (size - off)
  [{ space := sp, addr := BitVec.ofNat 64 (base + off), len := a }]
    ++ (if a < n then [{ space := sp, addr := BitVec.ofNat 64 base, len := n - a }] else [])

/-- The function whose host memory holds the ring. -/
def Dreq.ringFn (d : Dreq) : Nat := fld d.ring 4 4

/-- Advance the ring by a full burst (R340). -/
def State.ringAdvance (s : State) (n burst : Nat) : State :=
  s.updDreq n (fun d => { d with off := BitVec.ofNat 32 ((d.off.toNat + burst) % max 1 d.size.toNat) })

/-! ## GPIO (R342) -/

/-- Lines that orders and register writes may change: not the line of the Power Supervisor's pulse. -/
def State.gpioFree (s : State) : W32 :=
  if s.psv.pulseCfg.getLsbD 7 then ~~~ BitVec.ofNat 32 (2 ^ fld s.psv.pulseCfg 0 5) else 0xFFFFFFFF

/-- Write the output lines in `mask`. -/
def State.gpioWrite (s : State) (mask v : W32) : State :=
  let m := mask &&& s.gpioFree
  { s with lpc := { s.lpc with gpioOut := (s.lpc.gpioOut &&& ~~~ m) ||| (v &&& m) } }

end Sys2Proof.Machine
end

