-- ==== Sys2Proof/Machine/Fence.lean ====
section
/-! DEFINITION. Firebreak (R374 to R387): what each fence does to its unit and the work on it, the safe state, and guarantee-lost with
the safety pins. -/
namespace Sys2Proof.Machine

/-! ## Guarantee-lost (R386, R387, Table 13.7) -/

/-- A class-0 crew with a bound queue has no cluster in its pinned set that holds at least BURST of its seats. -/
def State.crewCause (s : State) : Bool :=
  s.eng.crews.any (fun k => decide (k.2.cls = 0) && s.qe.sqs.any (fun q => decide (q.2.crew = some k.1))
    && !(maskClusters k.2.pinned).any (fun c => decide (s.sch.burst ≤ k.2.seatsIn c)))

/-- A function that owns a class-0 submission queue is fenced. -/
def State.submitterCause (s : State) : Bool := s.qe.sqs.any (fun q => q.2.c0 && s.fcs.fencedFns.contains q.2.fn)

/-- The causes, as bits 1 to 5 of FCS_GUARANTEE. ARMING is set by ARMING_TIMEOUT and ends when ARMED reads 1; a full debug unlock
counts as SAFE (Table 14.8). -/
def State.causesNow (s : State) : Nat :=
  bitN s.crewCause 1 + bitN (decide (s.flLive.length < 16)) 2 + bitN s.submitterCause 3
    + bitN (s.fcs.causes.testBit 4 && !s.lq.armed) 4 + bitN (s.fcs.safeState || decide (s.tru.debugLevel = 2)) 5

/-- Modes in which the collector evaluates the causes: from the bring-up of the media on, and not after t0, when the pins keep their
levels (R283). -/
def State.evaluates (s : State) : Bool := s.inMode [.provision, .service, .degraded, .rebuild, .update, .diagnostic]

/-- FCS_GUARANTEE[7:0]. -/
def Fcs.guaranteeByte (f : Fcs) : Nat := bitN f.lost 0 + f.causes

/-- Evaluate guarantee-lost and the pins; a change is posted (R386, R387, Table 13.12). -/
def State.evalGuarantee (s : State) : State :=
  if !s.evaluates then { s with fcs := { s.fcs with safeErr := s.fcs.safeErr || s.fcs.iwdgExpired } }
  else
    let causes := s.causesNow
    let lost := decide (causes ≠ 0)
    let first := s.fcs.firstReady || (s.inMode [.service] && s.guaranteeReady)
    let f := { s.fcs with causes := causes, lost := lost, firstReady := first, safeErr := !first || lost || s.fcs.iwdgExpired }
    let s' := { s with fcs := f }
    if lost = s.fcs.lost then s'
    else s'.postEventAll fcsBlock 0x0071 0xFFFF (BitVec.ofNat 64 (bitN lost 0 + f.guaranteeByte * 256))

/-! ## Engines and clusters (R376, R377, Table 13.6) -/

/-- Fence engine `e`. With `moves` its program goes on at the tested spare that takes the seat; else, or without a spare, it ends with
UNIT_FENCED. A program in POSTWAIT has ended: the Queue Engine takes its completion (R174). -/
def State.fenceEngine (s : State) (e : Nat) (moves : Bool) : State :=
  let g := s.engine e
  if g.fenced then s
  else
    let fence := fun (s : State) => s.updEngine e (fun g => { g with fenced := true, testing := false, due := false })
    match (if moves && g.seated && g.prog.any (fun p => decide (p.phase ≠ .postwait)) then s.testedSpare (e / engPerCluster) else none) with
    | some f => fence (s.moveSeat e f)
    | none =>
      let s := fence s
      let s := if g.prog.isSome then s.clearEngine e Ending.unitFenced else s
      if g.seated then s.passSeat e else s

/-- Fence cluster `c`: every engine of it is fenced, its programs end and its seats are lost. -/
def State.fenceCluster (s : State) (c : Nat) : State :=
  let s := s.stopBist c
  let fence := fun (s : State) (e : Nat) => s.updEngine e (fun g => { g with fenced := true, testing := false, due := false })
  let s := (clusterEngines c).foldl fence s
  let s := (s.busyIn c).foldl (fun s e => s.clearEngine e Ending.unitFenced) s
  let s := (clusterEngines c).foldl (fun s e => s.updEngine e (fun g => { g with seated := false })) s
  let s := s.updCluster c (fun k => { k with fenced := true, waking := none, wakeReq := false, seats := 0, lost := [] })
  { s with eng := { s.eng with crews := s.eng.crews.all (fun _ k => if k.mask.getLsbD c then { k with lostIn := k.lostIn.put c k.seats } else k) } }

/-! ## Movers (R378) -/

/-- A descriptor whose word is not issued again: paced, or with a side in PORT or CELLQ. -/
def Desc.once (d : Desc) : Bool :=
  d.paced || [d.srcSpace, d.dstSpace].any (fun x => decide (x = spPort) || decide (x = spCellq))

/-- The engine word that a channel of a fenced mover carries is issued again from its start, on another mover, or ends its program with
LINK_FAULT (R378). Source bytes that it took from its buffer are taken again. -/
def State.reissue (s : State) (m c : Nat) : State :=
  match s.chanEngine m c, (s.mvCh m c).active with
  | some e, some d =>
    if d.once then s.endAtWord e Ending.linkFault 0
    else s.updProg e (fun p =>
      let out := match p.op with | w :: _ => p.outward w | [] => false
      { p with moved := 0, further := false, residual := opLen p.op
               xf := p.xf.map (fun x => { x with chan := none, src := if out then [] else x.src }) })
  | _, _ => s

/-- Fence mover `m`: its descriptors end with ABORTED, pending requests are discarded, Quench units pass on, and the engine words that it
carried are issued again or end. -/
def State.fenceMover (s : State) (m : Nat) : State :=
  let s := s.updMover m (fun x => { x with fenced := true })
  let s := (List.range 16).foldl (fun s c => (s.reissue m c).endCodec m c) s
  let stop := fun (_ : Nat) (k : MvCh) =>
    { k with active := none, shadow := none, moved := 0, pending := 0, st := .idle, lastStatus := if k.active.isSome then dsAborted else k.lastStatus }
  let s := s.updMover m (fun x => { x with
    armed := false, activeCh := none, preemptCh := none, prgRun := false, wait := none, chans := x.chans.all stop })
  s.passUnits m

/-! ## LUNs and channels (R379 to R381) -/

/-- Writes that meet `p` are written again from their Landing copy (R31, R379). -/
def State.rewrite (s : State) (p : GWrite → Bool) : State :=
  (s.lq.groups.flatMap (fun g => (g.writes.zipIdx.filter (fun w => p w.1 && !w.1.released)).map (fun w => (g.id, w.2)))).foldl State.writeAgain s

/-- Page jobs that meet `p` and are not in the array yet are dropped, and the LUNs they held become idle. -/
def State.dropJobs (s : State) (p : PageJob → Bool) : State :=
  (s.mm.jobs.sel (fun _ j => p j && !j.issued)).foldl (fun s x => (s.releaseLun x.2.lun x.1).dropJob x.1) s

/-- Segments of the stripe set `k` whose open row or open content is not closed. -/
def State.openSegs (s : State) (k : Nat) : List Nat := s.mm.segs.keys (fun _ g => decide (g.set = k) && !g.closed)

/-- The rows of stripe set `k` that are not closed are written again elsewhere, and its segments take no more data (R379). -/
def State.redoRows (s : State) (k : Nat) : State :=
  let segs := s.openSegs k
  let r := s.flRow k
  let hit := fun (x : Nat × Nat) => segs.contains x.1 || (decide (x.1 = r.seg) && decide (x.2 = r.page) && !r.blocks.isEmpty)
  let s := s.rewrite (fun w => w.rows.any hit)
  let s := s.dropJobs (fun j => hit (j.seg, j.row) && !j.bare)
  let s := segs.foldl (fun s n => s.updSeg n (fun g => g.shut)) s
  if r.blocks.isEmpty then s
  else { s with mm := { s.mm with flRows := s.mm.flRows.put k { r with written := [], passed := [], xor := [], page := r.page + 1, openAt := none } } }

/-- The pages at `ps` are lost from now on: two members of their row in stripe set `x` are fenced, and were not before LUN `l` was (R380). -/
def State.newlyLost (s : State) (x : StripeSet) (l : Nat) (ps : List (Nat × Nat × Nat)) : Bool :=
  let others := x.members.filter (fun k => decide (k ≠ l) && s.lunFenced k)
  let on := fun (ks : List Nat) => ps.any (fun p => ks.contains p.1)
  !others.isEmpty && on (l :: others) && !(decide (2 ≤ others.length) && on others)

/-- The durable records and units of a stripe set that the fence of `l` loses, where the Landing no longer holds them (R380). -/
def State.loseSet (s : State) (x : StripeSet) (l : Nat) : State :=
  let recs := s.mm.streams.flatMap (fun y => (y.2.recs.filter (fun r => r.durable && s.newlyLost x l r.places && !s.recInLanding y.1 r)).map (fun r => (y.1, r.seq)))
  let units := s.mm.regions.flatMap (fun y => (y.2.units.filter (fun u => s.newlyLost x l u.2.places && !s.unitInLanding y.1 u.1)).map (fun u => (y.1, u.1)))
  let s := recs.foldl (fun s r => s.recordLoss (lostStream r.1 r.2 1) r.1 false) s
  units.foldl (fun s u => s.recordLoss (lostRegion u.1 (u.2 * 4096) 1) u.1 true) s

/-- A job of a LUN that is given up: a page that was being programmed, or waited to be, is written again from its Landing copy, in a Quench by
another member; an erase is asked for again (R31, R244, R379). -/
def State.giveUpJob (s : State) (id : Nat) (j : PageJob) : State :=
  let s := if j.issued && !j.bare then s.retire j.lun j.block else s
  let s := s.dropJob id
  if j.kind = 9 then (s.annealErase j.lun j.block j.seg).2
  else if j.kind = 6 then s.unitDone j.row false
  else j.writes.foldl State.writeAgain s

/-- What a LUN does is abandoned: a running or suspended program retires its block, an erase is marked for a fresh one, reads end (R244, R379). -/
def State.abandonLun (s : State) (l : Nat) : State :=
  let s := s.updLun l (fun u => { u with op := .idle, above := none, suspends := 0 })
  (s.mm.jobs.sel (fun _ j => decide (j.lun = l))).foldl (fun s p => s.giveUpJob p.1 p.2) s

/-- What the fence of LUN `l` does, the flag itself apart (R379, R380). -/
def State.disposeLun (s : State) (l : Nat) : State :=
  let u := s.lun l
  let quench := s.inMode [.quench]
  let s := if quench then
      (s.lq.units.zipIdx.filter (fun p => decide (p.1.lun = l) && !p.1.programmed)).foldl (fun s p => s.unitDone p.2 false) s
    else s
  let s := s.abandonLun l
  let sets := s.mm.sets.filter (fun p => p.2.members.contains l)
  let s := sets.foldl (fun s p => s.redoRows p.1) s
  let s := sets.foldl (fun s p => s.loseSet p.2 l) s
  let s := (sets.flatMap (fun p => s.mm.segs.keys (fun _ g => decide (g.set = p.1)))).foldl State.relocate s
  if u.fastLane then s.relimit.flEval else s

def State.fenceLun (s : State) (l : Nat) : State :=
  if s.lunFenced l then s else ((s.updLun l (fun u => { u with fenced := true })).disposeLun l)

/-- Fence channel `n`: chip enables and write protect are driven inactive, and every LUN of it is treated as fenced (R381). -/
def State.fenceChan (s : State) (n : Nat) : State :=
  let ls := s.fc.luns.keys (fun l u => decide (l / 32 = n) && u.present && !s.lunFenced l)
  let s := s.updChan n (fun c => { c with fenced := true, wpHigh := false })
  ls.foldl State.disposeLun s

/-! ## Functions, ports, the part (R382 to R384) -/

/-- Fence function `fn`: its programs end at once; its completions are held, since nothing is issued for it (R382). -/
def State.fenceFn (s : State) (fn : Nat) : State :=
  let s := { s with fcs := { s.fcs with fencedFns := if s.fcs.fencedFns.contains fn then s.fcs.fencedFns else fn :: s.fcs.fencedFns } }
  let s := s.logAer fn aerInternal
  (s.engsWith (fun p => decide (p.fn = fn))).foldl (fun s e => s.endAtLast e Ending.unitFenced) s

/-- Fence Field Port `p`: its link is forced down (R383). -/
def State.fencePort (s : State) (p : Nat) : State :=
  let s := { s with fcs := { s.fcs with fencedPorts := if s.fcs.fencedPorts.contains p then s.fcs.fencedPorts else p :: s.fcs.fencedPorts } }
  s.fpLink p false

/-- The safe state (R384). -/
def State.enterSafe (s : State) : State :=
  if s.fcs.safeState then s
  else
    let s := { s with fcs := { s.fcs with safeState := true } }
    let s := (List.range 16).foldl (fun s c => if (s.cluster c).fenced then s else s.fenceCluster c) s
    let s := (List.range 4).foldl State.fencePort s
    (List.range 8).foldl State.xtAssert s

/-! ## Abandoned commands (R350 to R352) -/

/-- The update state that the clusters show: firmware, rolling or complete (Table 12.8). -/
def State.rolledState (s : State) : Nat :=
  let new := s.mgp.upd.swapped
  if !new.isEmpty && (List.range 16).all (fun c => (s.cluster c).fenced || new.contains c) then 5
  else if new.isEmpty && !(List.range 16).any (fun c => (s.cluster c).out) then 3 else 4

/-- The update is in the state its clusters show; before the firmware restart it is in the state it was. -/
def State.settleUpdate (s : State) : State :=
  let u := s.mgp.upd
  if u.state = 0 then s
  else { s with mgp := { s.mgp with upd := { u with state := if 6 ≤ u.state ∧ u.prior ≤ 2 then u.prior else s.rolledState } } }

/-- Where no step is under way, a rolling or complete update follows the fencing and the return of clusters (Table 12.8). -/
def State.reroll (s : State) : State :=
  let u := s.mgp.upd
  if (u.state = 4 ∨ u.state = 5) ∧ !(List.range 16).any (fun c => (s.cluster c).out) then
    { s with mgp := { s.mgp with upd := { u with state := s.rolledState } } }
  else s

/-- What a started command that never reaches its commit point has done is taken back: a cluster that was taken out of service rejoins
(Table 12.10), one under reintegration is fenced again (R390), a commanded pulse is abandoned, the Management Processor runs its old
firmware, an update returns to the state it was in, and a proposal under RATIFY is discarded. -/
def State.undoEffect (s : State) (p : Packet) : State :=
  let opc := leAt p.eff 0 2
  let sub := leAt p.eff 8 2
  let back := fun (s : State) (c : Nat) => s.updCluster c (fun k => { k with out := false })
  if !p.started then s
  else if opc = 0x0801 ∧ sub = 2 then (back s (leAt p.eff 16 1)).repin
  else if opc = 0x0703 ∧ sub % 256 = 1 then (back s (leAt p.eff 9 1)).repin.settleUpdate
  else if opc = 0x0703 then { s with mgp := { s.mgp with running := true, restartAt := none } }
  else if opc = 0x0502 ∧ sub % 256 = kindCluster then s.fenceCluster (leAt p.eff 12 4)
  else if opc = 0x0602 then (match s.psv.pulse with | some x => if x.test then s.dropPulse else s | none => s)
  else if 6 ≤ s.mgp.upd.state ∧ (opc = 0x0705 ∨ (s.mgp.upd.state = 6 ∧ opc = 0x0704)) then
    ((List.range 16).foldl back s).repin.settleUpdate
  else s

def State.undoCmd (s : State) (p : Packet) : State :=
  let s := s.undoEffect p
  match p.inner with
  | some x => s.consentResolved x 6 0x3F
  | none => s

/-! ## Reactions (Table 13.2, R370) -/

/-- A report names a unit that is already fenced (R372). -/
def State.unitFenced (s : State) (kind unit : Nat) : Bool :=
  if kind = kindEng then (s.engine unit).fenced || (s.cluster (unit / engPerCluster)).fenced
  else if kind = kindCluster then (s.cluster unit).fenced
  else if kind = kindMover then (s.mover unit).fenced
  else if kind = kindLun then s.lunFenced unit
  else if kind = kindChan then (s.chan unit).fenced
  else if kind = kindFunction then (match fnOf unit with | some fn => s.fcs.fencedFns.contains fn | none => false)
  else if kind = kindField then s.fcs.fencedPorts.contains unit
  else false

/-- The fence that reaction `r` of source class `cls` puts on the unit of a report. -/
def State.fenceBy (s : State) (r cls kind unit : Nat) : State :=
  match r with
  | 1 => s.fenceEngine unit (decide (cls = 0x09) || decide (cls = 0x0B))
  | 2 => s.fenceCluster (if kind = kindEng then unit / engPerCluster else unit)
  | 3 => s.fenceLun unit
  | 4 => s.fenceChan (if kind = kindLun then unit / 32 else unit)
  | 5 => s.fenceMover unit
  | 6 => (match fnOf unit with | some fn => s.fenceFn fn | none => s)
  | 7 => s.fencePort unit
  | 15 => s.enterSafe
  | _ => s

/-- Apply reaction `r` of source class `cls` to the unit of a report: a fenced unit holds no grant any more (R232). -/
def State.react (s : State) (r cls kind unit : Nat) : State :=
  let t := s.fenceBy r cls kind unit
  if r = 0 then t else t.freeHolds kind unit

/-- Steps 3 to 5 of Table 13.5: pinned sets and guarantee-lost are evaluated, and Service gives way to Degraded (R385). -/
def State.afterFence (s : State) : State :=
  let s := s.repin.reroll.setArmed.evalGuarantee
  if s.inMode [.service] && s.anyFenced then s.setMode .degraded else s

end Sys2Proof.Machine
end

