-- ==== Sys2Proof/Machine/Crypto.lean ====
section
/-! DEFINITION. The public codes the manual names: SHA-384 (R402, R411) and the Ethernet frame check sequence (R326). PRESUMED: their
definitions are those of FIPS 180-4 and IEEE 802.3 (log 5). -/
namespace Sys2Proof

/-! ## SHA-384 -/

/-- Whether a number of at most 440 is prime: no divisor from 2 to 20 below it. -/
def smallPrime (p : Nat) : Bool := decide (2 ≤ p) && (List.range 19).all (fun d => decide (p ≤ d + 2) || decide (p % (d + 2) ≠ 0))

/-- The first 80 primes, the last of them 409. -/
def firstPrimes : List Nat := (List.range 410).filter smallPrime

/-- The largest root below `r + 2 ^ n` whose power `k` is at most `x`, found bit by bit from bit `n - 1` down. -/
def rootBits (k x : Nat) : Nat → Nat → Nat
  | 0, r => r
  | n + 1, r => rootBits k x n (if (r + 2 ^ n) ^ k ≤ x then r + 2 ^ n else r)

/-- The first 64 bits of the fraction of the `k`-th root of a number below 512. -/
def rootFraction (k p : Nat) : W64 := BitVec.ofNat 64 (rootBits k (p * 2 ^ (64 * k)) 69 0)

/-- The round constants: the fractions of the cube roots of the first 80 primes. -/
def shaConstants : List W64 := firstPrimes.map (rootFraction 3)

/-- The eight initial hash words: the fractions of the square roots of the ninth to the sixteenth prime. -/
def shaInit : List W64 := ((firstPrimes.drop 8).take 8).map (rootFraction 2)

/-- Big-endian bytes of a number, `n` of them, and the number that big-endian bytes spell. -/
def beBytes (n v : Nat) : List Byte := (leBytes n v).reverse
def beNat (bs : List Byte) : Nat := leNat bs.reverse

/-- The eight working words and the 16 schedule words of a round. -/
structure Sha where
  a : W64
  b : W64
  c : W64
  d : W64
  e : W64
  f : W64
  g : W64
  h : W64
  w : List W64
  deriving DecidableEq, Repr

def shaWord (w : List W64) (i : Nat) : W64 := w.getD i 0

/-- One round with its constant. -/
def Sha.round (x : Sha) (k : W64) : Sha :=
  let r := fun (v : W64) (n : Nat) => v.rotateRight n
  let t1 := x.h + (r x.e 14 ^^^ r x.e 18 ^^^ r x.e 41) + ((x.e &&& x.f) ^^^ (~~~ x.e &&& x.g)) + k + shaWord x.w 0
  let t2 := (r x.a 28 ^^^ r x.a 34 ^^^ r x.a 39) + ((x.a &&& x.b) ^^^ (x.a &&& x.c) ^^^ (x.b &&& x.c))
  let s0 := let v := shaWord x.w 1; r v 1 ^^^ r v 8 ^^^ (v >>> 7)
  let s1 := let v := shaWord x.w 14; r v 19 ^^^ r v 61 ^^^ (v >>> 6)
  { a := t1 + t2, b := x.a, c := x.b, d := x.c, e := x.d + t1, f := x.e, g := x.f, h := x.g
    w := x.w.drop 1 ++ [s1 + shaWord x.w 9 + s0 + shaWord x.w 0] }

/-- The 16 words of a 128-byte block. -/
def shaWords : Nat → List Byte → List W64
  | 0, _ => []
  | n + 1, bs => BitVec.ofNat 64 (beNat (bs.take 8)) :: shaWords n (bs.drop 8)

/-- One block. -/
def shaBlock (hs : List W64) (bs : List Byte) : List W64 :=
  let v := fun (i : Nat) => shaWord hs i
  let x : Sha := { a := v 0, b := v 1, c := v 2, d := v 3, e := v 4, f := v 5, g := v 6, h := v 7, w := shaWords 16 bs }
  let y := shaConstants.foldl Sha.round x
  [v 0 + y.a, v 1 + y.b, v 2 + y.c, v 3 + y.d, v 4 + y.e, v 5 + y.f, v 6 + y.g, v 7 + y.h]

/-- The blocks of a padded message. -/
def shaBlocks : Nat → List W64 → List Byte → List W64
  | 0, hs, _ => hs
  | n + 1, hs, bs => shaBlocks n (shaBlock hs (bs.take 128)) (bs.drop 128)

/-- SHA-384 of a byte string, 48 bytes. -/
def sha384 (bs : List Byte) : List Byte :=
  let n := bs.length
  let blocks := (n + 17 + 127) / 128
  let padded := bs ++ [0x80] ++ List.replicate (blocks * 128 - n - 17) 0 ++ beBytes 16 (8 * n)
  (shaBlocks blocks shaInit padded).take 6 |>.flatMap (fun w => beBytes 8 w.toNat)

/-! ## The frame check sequence -/

def fcsBit (c : W32) : W32 := if c.getLsbD 0 then (c >>> 1) ^^^ 0xEDB88320#32 else c >>> 1
def fcsByte (c : W32) (b : Byte) : W32 := fcsBit (fcsBit (fcsBit (fcsBit (fcsBit (fcsBit (fcsBit (fcsBit (c ^^^ b.zeroExtend 32))))))))

/-- The FCS of a frame's bytes. -/
def fcs32 (bs : List Byte) : W32 := ~~~ (bs.foldl fcsByte 0xFFFFFFFF#32)

/-- Whether the last four bytes of a frame are the FCS of the rest. -/
def fcsOk (bs : List Byte) : Bool :=
  let n := bs.length - 4
  decide (4 ≤ bs.length) && decide (leBytes 4 (fcs32 (bs.take n)).toNat = bs.drop n)

end Sys2Proof
end

