-- ==== Sys2Proof/Machine/PortEvents.lean ====
section
/-! DEFINITION. What happens at the external ports (chapter 11): frames, links, gate lists, gPTP, request lines, UART
bytes, GPIO edges, xSPI clients, PPS_OUT, MSI-X unmasking. -/
namespace Sys2Proof.Machine

/-! ## Host ports (R321, R323) -/

/-- Vector `vec` is masked or unmasked; an unmasked vector sends one message for its pending bit. -/
def State.maskVec (s : State) (fn vec : Nat) (m : Bool) : State :=
  let s := s.updHfn fn (fun f => { f with vecs := f.vecs.mod vec (0, 0, true) (fun v => (v.1, v.2.1, m)) })
  let f := s.hfn fn
  if !m && f.pba.contains vec then (s.updHfn fn (fun f => { f with pba := f.pba.erase vec })).sendMsix fn vec else s

/-- MSIX_UNMASK: a vector is unmasked; its pending bit sends one message (R321). -/
def execMsixUnmask (fn vec : Nat) (s : State) : Answer := .next (s.maskVec fn vec false)

/-- Running descriptors, and write barriers, with requests to the host memory of a port's functions: mover and channel. -/
def State.onLink (s : State) (port : Nat) : List (Nat × Nat) :=
  s.mv.movers.flatMap (fun x => x.2.chans.filterMap (fun k => match k.2.active with
    | some d => if (d.hostFn.any (fun f => decide (portOf f = port))) && (decide (k.2.st = .running) || decide (k.2.st = .barrier)) then some (x.1, k.1) else none
    | none => none))

/-- A request in flight ends with LINK: the word of an engine that it serves with LINK_FAULT. -/
def State.linkEnd (s : State) (x : Nat × Nat) : State :=
  match s.chanEngine x.1 x.2 with
  | none => s.descEnd x.1 x.2 dsLink
  | some e => (s.dropChan e dsLink).endAtWord e Ending.linkFault 0

/-- HOST requests in flight end with LINK: descriptors, and the reads that words held by BAR wait for (R323). -/
def State.linkLost (s : State) (port : Nat) : State :=
  let s := (s.onLink port).foldl State.linkEnd s
  (s.engsWith (fun p => decide (p.phase = .bar) && decide (portOf p.fn = port))).foldl (fun s e => s.endAtWord e Ending.linkFault 0) s

/-- DL_DOWN: the link of a host port goes down without a reset; its functions keep their queues, and requests in flight end with LINK
(R323). -/
def execDlDown (port : Nat) (s : State) : Answer := .next ((s.linkLost port).updHport port (fun p => { p with dlUp := false }))

/-- DL_UP: the link comes up (R323). -/
def execDlUp (port : Nat) (s : State) : Answer :=
  let g := s.takeFree
  let w := g.2.takeFree
  .next (w.2.updHport port (fun p => { p with
    dlUp := true, perst := false, gen := min (max 1 (Config.freeNat g.1)) (fld p.linkCfg 0 4)
    width := min (max 1 (Config.freeNat w.1)) (fld p.linkCfg 8 4) }))

/-! ## Field Ports -/

/-- FP_LINK_CHANGE: the link of an enabled port comes up or goes down; a port held down or fenced stays down (R347, R383). -/
def execFpLinkChange (port : Nat) (up : Bool) (s : State) : Answer :=
  let x := s.fport port
  .next (s.fpLink port (up && x.cfg.getLsbD 2 && !x.down && !s.fcs.fencedPorts.contains port))

/-- Destination address of a frame, as FLD_MAC holds it, and the VLAN tag (EtherType 0x8100). -/
def frameDst (bs : List Byte) : Nat := leAt bs 0 6
def frameTagged (bs : List Byte) : Bool := decide (leAt bs 12 2 = 0x0081)

/-- The port's filter: its unicast address, broadcast, its multicast addresses, which have bit 0 of the first byte set (Table 11.3; that bit
is PRESUMED from IEEE 802, log 19). -/
def State.fpAccepts (s : State) (p : Nat) (bs : List Byte) : Bool :=
  decide (frameDst bs = (s.fport p).mac.toNat % 2 ^ 48) || decide (frameDst bs = 2 ^ 48 - 1) || (bs.headD 0).getLsbD 0 && Config.multicast p bs

/-- The words of receive rule `r`. -/
def FPort.rule (x : FPort) (r : Nat) : List W32 := (List.range 4).map (fun k => x.rules.get (4 * r + k) 0)

/-- The queue that takes a frame, with the rule index: the first matching rule, else the default queue (R325). A rule whose words
are all 0 is not set. -/
def FPort.route (x : FPort) (bs : List Byte) : Option (Nat × Nat) :=
  match (List.range 64).find? (fun r => (x.rule r).any (fun w => decide (w ≠ 0)) && Config.ruleMatch (x.rule r) bs) with
  | some r => some (Config.ruleQueue (x.rule r) % 4096, r)
  | none => if x.cfg.getLsbD 3 then some (fld x.cfg 8 12, 0xFF) else none

/-- Words of a received frame (Table 11.4). -/
def frameHead (p rule : Nat) (now : W64) (bs : List Byte) : List Nat :=
  [bs.length + p % 4 * 2 ^ 16 + bitN (frameTagged bs) 18 + Config.udpState bs % 4 * 2 ^ 19 + rule % 256 * 2 ^ 24,
   fld now 0 32, fld now 32 32]


/-- FRAME_RECEIVE: a frame (with its FCS) arrives on a Field Port; it is checked, filtered, routed and written as one packet, or
dropped and counted (R325, R326). -/
def execFrameReceive (port : Nat) (bytes : List Byte) (s : State) : Answer :=
  occurs s (s.fpUp port) (fun s =>
    if bytes.length < 64 || decide (9216 < bytes.length) || !fcsOk bytes then
      s.updFport port (fun x => { x with fcsDrops := wrapAdd 32 x.fcsDrops 1 })
    else
      let bs := bytes.take (bytes.length - 4)
      if !s.fpAccepts port bs then s
      else match (s.fport port).route bs with
        | none => s.updFport port (fun x => { x with noruleDrops := wrapAdd 32 x.noruleDrops 1 })
        | some r =>
          let was := (s.cpq r.1).words.length
          let s := s.updFport port (fun x => { x with rxFrames := wrapAdd 32 x.rxFrames 1 })
          let all := ((frameHead port r.2 s.tmr.time bs).map (fun w => leBytes 4 w)).flatten ++ bs
          let s := State.cpPushBytes r.1 (all.length + 1) true all s
          let q := s.cpq r.1
          if !q.en ∨ q.words.length = was + (all.length + 3) / 4 then s
          else s.updFport port (fun x => { x with cplDrops := wrapAdd 32 x.cplDrops 1 }))

/-- The queued frame that may go first: the highest traffic class whose gate is open for it (R328). -/
def State.nextFrame (s : State) (p : Nat) : Option TxFrame :=
  let x := s.fport p
  let heads := (List.range 8).reverse.filterMap (fun tc => x.tx.find? (fun f => decide (f.prio = tc)))
  heads.find? (fun f => s.gateOpen x f.prio f.bytes.length)

/-- FRAME_TRANSMIT: the next frame leaves on the wire with its FCS, and with its timestamp where asked (R327, R328). -/
def execFrameTransmit (port : Nat) (s : State) : Answer :=
  match s.nextFrame port with
  | none => .next s
  | some f =>
    occurs s (s.fpUp port) (fun s =>
      let s := s.updFport port (fun x => { x with tx := x.tx.erase f, txFrames := wrapAdd 32 x.txFrames 1,
                                                  txTs := if f.stamp then s.tmr.time else x.txTs })
      s.drive (.frame port (f.bytes ++ leBytes 4 (fcs32 f.bytes).toNat)))

/-- GATE_LIST_TAKE_EFFECT: the committed list becomes the operational one at its time (R328). -/
def execGateListTakeEffect (port : Nat) (s : State) : Answer :=
  match (s.fport port).committed with
  | none => .next s
  | some g =>
    occurs s (decide (g.base.toNat ≤ s.now)) (fun s =>
      s.updFport port (fun x => { x with oper := g, committed := none, opIdx := 0, opAt := g.base.toNat, opCycle := g.base.toNat }))

/-- End of the gate entry in force: its interval, or the end of the cycle for the last one. -/
def FPort.entryEnd (x : FPort) : Nat :=
  let cyc := x.opCycle + x.oper.cycle
  if x.opIdx + 1 < x.oper.entries.length then min (x.opAt + (x.oper.entry x.opIdx).2 * 10) cyc else cyc

/-- GCL_INTERVAL_END: the next gate entry takes over; a new cycle starts with the first (R328). -/
def execGclIntervalEnd (port : Nat) (s : State) : Answer :=
  let x := s.fport port
  let t := x.entryEnd
  occurs s (!x.oper.entries.isEmpty && decide (t ≤ s.now)) (fun s =>
    s.updFport port (fun x =>
      if x.opIdx + 1 < x.oper.entries.length ∧ t < x.opCycle + x.oper.cycle then { x with opIdx := x.opIdx + 1, opAt := t }
      else { x with opIdx := 0, opAt := t, opCycle := t }))

/-! ## gPTP (R329) -/

/-- Message kinds of GPTP_MESSAGE_RECEIVE and GPTP_INTERVAL_TIMEOUT. -/
def gptpSync : Nat := 0
def gptpFollowUp : Nat := 1
def gptpPdelayReq : Nat := 2
def gptpPdelayResp : Nat := 3
def gptpPdelayFollow : Nat := 4
def gptpAnnounce : Nat := 5

/-- The best announce among the ports: the port with the least vector, where it is below the part's own (BMCA). -/
def State.bestPort (s : State) : Option Nat :=
  let l := (List.range 4).filterMap (fun p => (s.fport p).announce.map (fun v => (p, v.toNat)))
  match minBy (fun x => x.2) l with
  | some x => if x.2 < Config.ownPriority.toNat then some x.1 else none
  | none => none

/-- Port states of the BMCA: the best port is the slave, an enabled port is a master, else disabled. -/
def State.gptpStates (s : State) : State :=
  let best := s.bestPort
  (List.range 4).foldl (fun s p => s.updFport p (fun x =>
    { x with gptp := if !x.cfg.getLsbD 2 || !x.linkUp then 0 else if best = some p then 1 else 2 })) s

/-- Send a message on every master port but `p` (R329: the part relays time between its ports). -/
def State.gptpRelay (s : State) (p kind : Nat) : State :=
  (List.range 4).foldl (fun s q => if q ≠ p ∧ (s.fport q).gptp = 2 then s.drive (.gptp q kind) else s) s

/-- GPTP_MESSAGE_RECEIVE: an 802.1AS message on a Field Port. An Announce carries its priority vector, a peer-delay response the
delay measured; Sync and Follow_Up of the slave port are relayed to the master ports (R329). -/
def execGptpMessageReceive (port kind : Nat) (v : W64) (s : State) : Answer :=
  occurs s (s.fpUp port) (fun s =>
    if kind = gptpAnnounce then (s.updFport port (fun x => { x with announce := some v })).gptpStates
    else if kind = gptpPdelayReq then (s.drive (.gptp port gptpPdelayResp)).drive (.gptp port gptpPdelayFollow)
    else if kind = gptpPdelayFollow then s.updFport port (fun x => { x with pdelay := v })
    else if (kind = gptpSync || kind = gptpFollowUp) && decide ((s.fport port).gptp = 1) then s.gptpRelay port kind
    else s)

/-- GPTP_INTERVAL_TIMEOUT: an 802.1AS interval of a port has passed: a master sends Announce or Sync with its Follow_Up, every
port its peer-delay request; a slave that hears no Announce loses its master (R329). -/
def execGptpIntervalTimeout (port kind : Nat) (s : State) : Answer :=
  occurs s (s.fpUp port) (fun s =>
    if kind = gptpPdelayReq then s.drive (.gptp port gptpPdelayReq)
    else if (s.fport port).gptp = 2 then
      (if kind = gptpSync then (s.drive (.gptp port gptpSync)).drive (.gptp port gptpFollowUp)
       else if kind = gptpAnnounce then s.drive (.gptp port gptpAnnounce) else s)
    else if kind = gptpAnnounce then (s.updFport port (fun x => { x with announce := none })).gptpStates
    else s)

/-! ## Request lines (R116, R303, R340) -/

/-- DREQ_REQUEST: an assertion of a request line. On a bound line it is counted on its channel, up to 15; on an unbound one it
completes the engine WAIT that began first, or is kept for the next (R85, R116, R303). -/
def execDreqRequest (n : Nat) (s : State) : Answer :=
  let d := s.dreq n
  let s := s.updDreq n (fun d => { d with level := true })
  if d.bound then
    let s := s.setsIf (decide (15 ≤ (s.mvCh d.mover d.channel).pending)) (0x500100 + 0x2000 * d.mover + 0x80 * d.channel) 20
    .next ((s.updMvCh d.mover d.channel (fun c =>
      if 15 ≤ c.pending then { c with reqOvr := true, drops := satAdd 32 c.drops 1 } else { c with pending := c.pending + 1 })).startBurst d.mover d.channel)
  else match s.firstWaiter (fun k => decide (k = .dreq n)) with
    | some e => .next (s.finishWait e true)
    | none => .next (s.updDreq n (fun d => { d with pending := min 15 (d.pending + 1) }))

/-- DREQ_DEASSERT: the line goes inactive, which ends a LEVEL burst short (R340). -/
def execDreqDeassert (n : Nat) (s : State) : Answer := .next (s.updDreq n (fun d => { d with level := false }))

/-! ## UART and GPIO (R342, R343) -/

/-- UART_RX_BYTE: a byte arrives on a program-port UART; with 256 in the FIFO it is lost and an overrun is sensed (R343). -/
def execUartRxByte (n : Nat) (b : Byte) (s : State) : Answer :=
  occurs s (!s.lpc.sbCfg.getLsbD n) (fun s =>
    s.updUart n (fun u =>
      if 256 ≤ u.rx.length then { u with overrun := true, attention := true, lastAt := s.tick }
      else { u with rx := u.rx ++ [b], lastAt := s.tick }))

/-- Whether an edge is selected: 0 rising, 1 falling, 2 either. -/
def edgeSelected (sel : Nat) (rising : Bool) : Bool :=
  decide (sel = 2) || (rising && decide (sel = 0)) || (!rising && decide (sel = 1))

/-- GPIO_EDGE: a GPIO line changes level; an enabled edge of an input is noted and raises its vector (R342). -/
def execGpioEdge (line : Nat) (high : Bool) (s : State) : Answer :=
  let bit : W32 := BitVec.ofNat 32 (2 ^ (line % 32))
  occurs s (decide (s.lpc.gpioIn.getLsbD (line % 32) ≠ high)) (fun s =>
    let s := { s with lpc := { s.lpc with gpioIn := if high then s.lpc.gpioIn ||| bit else s.lpc.gpioIn &&& ~~~ bit } }
    if !s.lpc.gpioDir.getLsbD (line % 32) && s.lpc.gpioIrqEn.getLsbD (line % 32) && edgeSelected (fld s.lpc.gpioCfg 16 2) high then
      let s := ({ s with lpc := { s.lpc with gpioStatus := s.lpc.gpioStatus ||| bit, gpioAttention := true } }).sets 0xF82014 (line % 32)
      s.sendMsix (fld s.lpc.gpioCfg 8 3) (fld s.lpc.gpioCfg 0 8)
    else s)

/-- PPS_OUT_PULSE: PPS_OUT rises at a whole second of device time, once for each, and falls after WIDTH_MS (R330). -/
def execPpsOutPulse (s : State) : Answer :=
  let sec := s.now / 1000000000
  if s.lpc.ppsCfg.getLsbD 16 && decide (s.now % 1000000000 < 11) && decide (s.lpc.ppsAt ≠ some sec) then
    .next (({ s with lpc := { s.lpc with ppsAt := some sec, ppsUp := some s.tick } } : State).drive (.pps true))
  else
    match s.lpc.ppsUp with
    | some t => occurs s (s.passedMs t (fld s.lpc.ppsCfg 0 16)) (fun s => ({ s with lpc := { s.lpc with ppsUp := none } } : State).drive (.pps false))
    | none => .next s

/-! ## xSPI clients (R331 to R338) -/

/-- A client out of reset on an enabled port. -/
def State.xtClient (s : State) (n : Nat) : Bool := (s.xt n).cfg.getLsbD 0 && !(s.xt n).rst

/-- Size of the window that a port serves, and the Yard address of its byte `k` (R59, R333). -/
def Xt.size (x : Xt) : Nat := match x.win with | some w => w.2.2 | none => 0
def Xt.pinAt (x : Xt) (k : Nat) : Nat := x.pages.getD (k / 4096) 0 * 4096 + k % 4096

/-- What a client reads at address `k`: the window's byte, and 0xFF beyond it and in the write window (R333, R334). -/
def State.xtByte (s : State) (n k : Nat) : Byte :=
  let x := s.xt n
  if x.inWrite k 1 || decide (x.size ≤ k) then 0xFF else s.yard.byte (x.pinAt k)

/-- The first uncorrectable byte of a window from address `addr` on, of `len` (R338). -/
def State.xtBad (s : State) (n addr len : Nat) : Option Nat :=
  let x := s.xt n
  if s.yard.bad.isEmpty then none
  else ((List.range (min len (x.size - addr))).map (fun k => x.pinAt (addr + k))).find? (fun a => s.yard.bad.contains (a / 8 * 8))

/-- An uncorrectable Yard error at address `a` in a window: the port stops, asserts its client's reset and runs a reset cycle (R338, class 0x04). -/
def State.xtFault (s : State) (n a : Nat) : State :=
  let s := ((s.xtStartCycle n).updXt n (fun x => { x with windowFault := true, attention := true })).sets (0xF80004 + 0x100 * n) 10
  (s.lpcEvent 0x0052 n 2).report 0x04 0 kindXt n (BitVec.ofNat 64 (a / 8 * 8))

/-- Address of a command: 4 bytes in 8D mode, 3 in 1S mode (Table 11.5). -/
def Xt.at_ (x : Xt) (addr : Nat) : Nat := addr % (if x.octal then 2 ^ 32 else 2 ^ 24)

/-- XT_READ: the window's bytes from client address 0 while it is verified (R333, R334); never a byte that the port could not read (R338). A
client that clocks faster than f_max samples undefined bytes, and LATE sets where a byte was not ready at its edge: whether it does is free
(R332). -/
def execXtRead (n addr len : Nat) (s : State) : Answer :=
  let addr := (s.xt n).at_ addr
  occurs s (s.xtClient n && (s.xt n).verified) (fun s =>
    match s.xtBad n addr len with
    | some a => s.xtFault n a
    | none =>
      if Config.clientLate n s.tick then
        let r := s.takeFreeBytes len
        ((r.2.updXt n (fun x => { x with late := true })).sets (0xF80004 + 0x100 * n) 8).drive (.xspi n r.1)
      else s.drive (.xspi n ((List.range len).map (fun k => s.xtByte n (addr + k)))))

/-- XT_PAGE_PROGRAM: 1 to 256 bytes within one page of the write window make a record, checked against the append right of the
stamped MID; anything else is an error; while WIP is 1 it is ignored (R334). It needs WEL, which it clears (PRESUMED, log 42:
JESD251). -/
def execXtPageProgram (n addr : Nat) (bytes : List Byte) (s : State) : Answer :=
  let x := s.xt n
  let addr := x.at_ addr
  occurs s (s.xtClient n && !x.wip && x.wel) (fun s =>
    let k := bytes.length
    let page := decide (1 ≤ k) && decide (k ≤ 256) && decide (addr / 256 = (addr + k - 1) / 256) && x.inWrite addr k
    let id := fld x.stream 0 16
    let mid := fld x.stream 24 6
    let may := (s.stream id).isSome && s.holds mid 3 id 1
    let off := addr - x.writeWindow.1
    let rec' := leBytes 4 off ++ leBytes 2 k ++ leBytes 1 n ++ [0] ++ bytes
    if page && may then s.updXt n (fun x => { x with wel := false, wip := true, record := some rec' })
    else (s.xtWriteError n).updXt n (fun x => { x with wel := false }))

/-- Record `d` of port `n`'s client is accepted: it takes the stream's next sequence number, charges the Landing, and is a sealed group of
its own at the port's class (R334). -/
def State.takeRecord (s : State) (n : Nat) (st : Stream) (d : List Byte) : State :=
  let x := s.xt n
  let id := fld x.stream 0 16
  let cls := fld x.stream 16 2
  let bytes := chargeAppend d.length
  let i := s.lq.nextGroup
  let ts := (st.reserveSeq i s.tmr.time).lastTs
  let w := GWrite.fresh cls (.record id st.next ts d) bytes
  let g : Group := { id := i, pid := 0, cls := cls, crew := 0, fn := (fnOf (fld x.stream 24 6)).getD 0, sqid := 0xFFFF, tag := 0, writes := [w],
                     sealed := true, sealNo := s.lq.nextSeal, bell := s.tick, posted := true, deadline := 0, late := 0,
                     missed := false, askedAt := s.tick }
  let s := s.updStream id (fun st => st.reserveSeq i s.tmr.time)
  let s := { s with lq := { s.lq with groups := s.lq.groups ++ [g], nextGroup := i + 1, nextSeal := s.lq.nextSeal + 1,
                                      accBytes := s.lq.accBytes + BitVec.ofNat 64 bytes } }
  (s.acceptWrite i g.sealNo w.kind).markPosted [i]

/-- XT_RECORD_ACCEPTED: the record charges the Landing, joins a group of its own, and is accepted; a record that cannot be is an
error; until there is room it waits (R334). -/
def execXtRecordAccepted (n : Nat) (s : State) : Answer :=
  let x := s.xt n
  match x.record with
  | none => .next s
  | some d =>
    let id := fld x.stream 0 16
    let cls := fld x.stream 16 2
    let mid := fld x.stream 24 6
    let bytes := chargeAppend d.length
    match s.stream id with
    | none => .next (s.xtWriteError n)
    | some st =>
      if !s.holds mid 3 id 1 || s.neverFits cls bytes none then .next (s.xtWriteError n)
      else if (s.pinnedFull (.append id) d.length).isSome then
        .next ((s.updStream id (fun st => { st with full := true })).xtWriteError n)
      else
        occurs s (s.chargeOpen cls && !s.standsBehind cls && decide (bytes ≤ s.freeRoom cls)) (fun s =>
          (s.takeRecord n st d).updXt n (fun x => { x with wip := false, record := none, records := wrapAdd 32 x.records 1 }))

/-- XT_ERASE: a 4 KiB erase has no effect inside the write window, and is an error elsewhere (R334). -/
def execXtErase (n addr : Nat) (s : State) : Answer :=
  let x := s.xt n
  occurs s (s.xtClient n) (fun s =>
    if x.inWrite (x.at_ addr / 4096 * 4096) 4096 then s
    else (s.updXt n (fun x => { x with perr := true, perrSeen := true })).sets (0xF80004 + 0x100 * n) 11)

/-- XT_READ_ID: the three bytes of LPC_XT_IDn (R335). -/
def execXtReadId (n : Nat) (s : State) : Answer :=
  occurs s (s.xtClient n) (fun s => s.drive (.xspi n (leBytes 3 (fld (s.xt n).id 0 24))))

/-- XT_READ_STATUS: WIP, WEL and P_ERR (R335). -/
def execXtReadStatus (n : Nat) (s : State) : Answer :=
  occurs s (s.xtClient n) (fun s =>
    let x := s.xt n
    s.drive (.xspi n [BitVec.ofNat 8 (bitN x.wip 0 + bitN x.wel 1 + bitN x.perr 5)]))

/-- The density that SFDP presents: the window size rounded up to a power of two, at least 1 MiB (Table 11.6). -/
def Xt.density (x : Xt) : Nat :=
  let size := match x.win with | some w => w.2.2 | none => 0
  ((List.range 6).map (fun k => mib * 2 ^ k)).find? (fun d => decide (size ≤ d)) |>.getD (64 * mib)

/-- XT_READ_SFDP: bytes of the SFDP tables of JESD216 with the values of Table 11.6 (R331). -/
def execXtReadSfdp (n addr len : Nat) (s : State) : Answer :=
  occurs s (s.xtClient n) (fun s =>
    let x := s.xt n
    s.drive (.xspi n ((List.range len).map (fun k => Config.sfdp x.density (fld x.cfg 8 6) (addr % 2 ^ 24 + k)))))

/-- XT_WRITE_ENABLE: WEL is set, and P_ERR clears (R334, R335). -/
def execXtWriteEnable (n : Nat) (s : State) : Answer :=
  occurs s (s.xtClient n) (fun s => s.updXt n (fun x => { x with wel := true, perr := false }))

/-- XT_WRITE_DISABLE: WEL is cleared (R331, R335). -/
def execXtWriteDisable (n : Nat) (s : State) : Answer :=
  occurs s (s.xtClient n) (fun s => s.updXt n (fun x => { x with wel := false }))

/-- XT_VOLATILE_CONFIG_WRITE: the client moves to 8D-8D-8D; 0xFF is the 1S setting of JESD251 (PRESUMED, log 42) (R331). -/
def execXtVolatileConfigWrite (n : Nat) (v : Byte) (s : State) : Answer :=
  occurs s (s.xtClient n) (fun s => s.updXt n (fun x => { x with octal := decide (v ≠ 0xFF) }))

/-- Bytes of the active image of a window's pair that the window copies. -/
def State.windowBytes (s : State) (w : Nat × Nat × Nat) : Option (List Byte) :=
  (s.image (s.activeSlot w.1)).map (fun b => (b.drop w.2.1).take w.2.2)

/-- Pages of the vault-pin partition that no other port's window holds (R59). -/
def State.freePins (s : State) (n : Nat) : List Nat :=
  let used := (List.range 8).flatMap (fun k => if k = n then [] else (s.xt k).pages)
  ((List.range (s.partSize 5 / 4096)).map (fun i => s.partBase 5 / 4096 + i)).filter (fun p => !used.contains p)

/-- Write a list of pages to the Yard. -/
def State.writePages (s : State) : List Nat → List Byte → State
  | [], _ => s
  | p :: t, bs => State.writePages (s.yardWrite (p * 4096) (bs.take 4096)) t (bs.drop 4096)

/-- The copy of a window goes into free pages of the vault-pin partition, on channel 14 (R15, R59, Table 11.7); which pages is not stated
(DESIGN CHOICE: the lowest, log 105). -/
def State.pinWindow (s : State) (n : Nat) (bs : List Byte) : State :=
  let ps := (s.freePins n).take ((bs.length + 4095) / 4096)
  ((s.mgpTransfer 14 bs.length).writePages ps bs).updXt n (fun x => { x with pages := ps })

/-- XT_CYCLE_DONE: the window has loaded from the active slot of its pair and been verified against the signed digest, `pass`;
the line is released unless it is held, or stays low on a failure (R337, R347). -/
def execXtCycleDone (n : Nat) (pass : Bool) (s : State) : Answer :=
  let x := s.xt n
  match x.win with
  | none => .next s
  | some w =>
    let got := if pass then s.windowBytes w else none
    match got with
    | none => occurs s x.cycling (fun s =>
        ((s.updXt n (fun x => { x with cycling := false, loadFail := true, attention := true })).sets (0xF80004 + 0x100 * n) 9).lpcEvent 0x0052 n 1)
    | some bs =>
      occurs s (x.cycling && (x.hold || s.xtMinPassed n)) (fun s =>
        let s := (s.pinWindow n bs).updXt n (fun x => { x with
          cycling := false, loaded := true, verified := true, attention := true, win := some (s.activeSlot w.1, w.2) })
        (s.xtTryRelease n).lpcEvent 0x0051 n s.tmr.time)

/-- A word of a window has become uncorrectable; which one is outside the model: a free one (R338, R485, log 2). -/
def State.pinError (s : State) (n : Nat) : State :=
  let (i, s) := s.takeFree
  let a := (s.xt n).pinAt (Config.freeNat i % max 1 (s.xt n).size)
  (s.markBad a).xtFault n a

/-- XT_WINDOW_FAULT: an uncorrectable Yard error in a window stops the read. -/
def execXtWindowFault (n : Nat) (s : State) : Answer := occurs s (s.xt n).loaded (fun s => s.pinError n)

/-- CLIENT_RST_MIN_ELAPSED: the least assertion time has passed and nothing else withholds the release (R336). -/
def execClientRstMinElapsed (n : Nat) (s : State) : Answer :=
  occurs s ((s.xt n).rst && s.xtMayRelease n) (fun s => s.xtTryRelease n)

end Sys2Proof.Machine
end

