-- ==== Sys2Proof/Machine/Faults.lean ====
section
/-! DEFINITION. The Fault Collector (chapter 13): source classes, collection, the handling window, the fault log, the fault state, the
Management Processor's restart, the watchdogs, scrubs and monitors. -/
namespace Sys2Proof.Machine

/-! ## Source classes (Tables 13.2, 13.3) -/

/-- A row of Table 13.3: unit kind, default reaction, allowed reactions (none where the class is fixed). -/
structure SrcClass where
  kind : Nat
  react : Nat
  allowed : List Nat
  deriving DecidableEq, Repr

def reactMgp : Nat := 8
def reactSafe : Nat := 15

/-- Table 13.3. -/
def srcClass (c : Nat) : Option SrcClass :=
  match c with
  | 0x01 => some ⟨kindBank, 0, [0, 15]⟩
  | 0x02 => some ⟨kindBank, 0, [0]⟩
  | 0x03 => some ⟨kindBank, 0, [0, 15]⟩
  | 0x04 => some ⟨kindXt, 0, [0, 15]⟩
  | 0x05 => some ⟨kindLun, 0, [0, 15]⟩
  | 0x08 => some ⟨kindEng, 1, [1, 2, 15]⟩
  | 0x09 => some ⟨kindEng, 1, [1, 2, 15]⟩
  | 0x0A => some ⟨kindEng, 1, [1, 2]⟩
  | 0x0B => some ⟨kindEng, 0, [0, 1]⟩
  | 0x0C => some ⟨kindEng, 0, [0, 1]⟩
  | 0x10 => some ⟨kindMover, 5, [5, 15]⟩
  | 0x11 => some ⟨kindMover, 5, [5, 15]⟩
  | 0x14 => some ⟨kindEng, 1, [1, 2, 15]⟩
  | 0x15 => some ⟨kindMover, 5, [5, 15]⟩
  | 0x16 => some ⟨kindChan, 4, [4, 15]⟩
  | 0x17 => some ⟨kindLane, 15, [15]⟩
  | 0x18 => some ⟨kindLun, 3, [3]⟩
  | 0x19 => some ⟨kindLun, 3, [3]⟩
  | 0x1A => some ⟨kindLun, 3, [3, 4]⟩
  | 0x1B => some ⟨kindChan, 4, [4, 15]⟩
  | 0x1C => some ⟨kindFunction, 0, [0, 15]⟩
  | 0x1D => some ⟨0, 0, [0, 15]⟩
  | 0x20 => some ⟨kindFunction, 0, [0, 6]⟩
  | 0x21 => some ⟨kindFunction, 0, [0, 6]⟩
  | 0x24 => some ⟨kindFunction, 6, [6, 15]⟩
  | 0x25 => some ⟨kindField, 7, [7, 15]⟩
  | 0x26 => some ⟨kindFunction, 0, [0, 6, 15]⟩
  | 0x28 => some ⟨kindRail, 15, [0, 15]⟩
  | 0x29 => some ⟨kindRail, 15, [15]⟩
  | 0x2A => some ⟨0, 0, [0]⟩
  | 0x2B => some ⟨0, 0, [0]⟩
  | 0x30 => some ⟨kindMgpUnit, reactMgp, []⟩
  | 0x31 => some ⟨kindMgpUnit, reactMgp, []⟩
  | 0x32 => some ⟨kindMgpUnit, reactSafe, []⟩
  | _ => none

/-- The reaction of class `c` in force (R374). -/
def State.reactionOf (s : State) (c : Nat) : Nat :=
  s.fcs.react.get c (match srcClass c with | some x => x.react | none => 0)

/-- FCS_REACTc (Table 13.18). -/
def State.reactReg (s : State) (c : Nat) : Nat :=
  match srcClass c with
  | none => 0
  | some x => s.reactionOf c + bitN x.allowed.isEmpty 4 + bitN (s.fcs.react.has c) 5

/-- A report of a class and unit kind of Table 13.3; class 0x17 names an LDPC lane or a TRU engine (R370). -/
def Report.listed (r : Report) : Bool :=
  match srcClass r.cls with
  | none => false
  | some x => decide (r.kind = x.kind) || (decide (r.cls = 0x17) && decide (r.kind = kindTru))

/-- The 12-bit source code (R369). -/
def Report.code (r : Report) : Nat := r.cls * 16 + r.detail % 16

/-! ## The fault log (R396, Table 13.10) -/

def logSize : Nat := 512

/-- The 32 bytes of a log entry. -/
def logEntry (time : W64) (r : Report) (reaction : Nat) (first fault lost : Bool) (mode : Mode) (seq : Nat) : List Byte :=
  let body := leBytes 8 time.toNat ++ leBytes 2 r.code ++ leBytes 1 reaction
    ++ leBytes 1 (bitN first 0 + bitN fault 1 + bitN lost 2) ++ leBytes 1 r.kind ++ leBytes 1 mode.code
    ++ leBytes 2 r.unit ++ leBytes 8 r.info.toNat ++ leBytes 4 seq
  body ++ leBytes 4 (crc32c body).toNat

/-- Write an entry; a full log loses its oldest. -/
def State.logFault (s : State) (e : List Byte) : State :=
  let full := decide (logSize ≤ s.fcs.log.length)
  { s with fcs := { s.fcs with
      log := (if full then s.fcs.log.drop 1 else s.fcs.log) ++ [e], logSeq := wrapAdd 32 s.fcs.logSeq 1
      overwritten := if full then satAdd 16 s.fcs.overwritten 1 else s.fcs.overwritten } }

/-- Count a source of class `c`. -/
def State.countSource (s : State) (c : Nat) : State :=
  { s with fcs := { s.fcs with counts := s.fcs.counts.put c (satAdd 32 (s.fcs.counts.get c 0) 1) } }

/-- Latch the first fault with its snapshot, or set OVF (R371). -/
def State.latchFirst (s : State) (r : Report) (reaction : Nat) : State :=
  let s := { s with fcs := { s.fcs with fresh := some (s.fcs.fresh.getD (r, reaction)) } }
  match s.fcs.first with
  | some _ => { s with fcs := { s.fcs with ovf := true } }
  | none =>
    let s := s.snapshot 0xFFFF
    { s with fcs := { s.fcs with
        first := some (r.code, reaction), firstUnit := (r.kind, r.unit), firstTime := s.tmr.time
        snapshot := some (s.tmr.time, 0xFFFF, s.eng.engines.map (fun p => (p.1, p.2.snap))) } }

/-! ## Restart of the Management Processor (R391, R414, R427) -/

/-- The Management Processor stops; how long its restart takes is not stated (log 2). Its proposals are discarded, and the channels of
its mailbox ends cleared. -/
def State.restartMgp (s : State) : State :=
  let (i, s) := s.takeFree
  let m := { s.mgp with running := false, restarts := satAdd 8 s.mgp.restarts 1, restartAt := some (s.tick + Config.freeNat i) }
  let s := { s with mgp := m, fcs := { s.fcs with mgpRestart := some s.tick } }
  (s.endProps (fun _ => true) 6 0x3F).mbxReset (fun x => decide (x.kind = kindMgp))

/-- A reply without result bytes: the packet's tag and a status. -/
def plainReply (tag : W32) (status : BitVec 16) (time : W64) : Cqe :=
  { tag := tag, sqid := 0xFFFF, status := status, body := 0, time := time.truncate 56 }

/-- A packet past its commit point: it took effect, or has ordered the reset with which its effect began (DEDUCED,
log 120). -/
def Packet.past (p : Packet) : Bool := p.committed || p.resetting

/-- The work of a started packet goes on: until its commit point, and for an UPDATE_COMMIT behind it (R363). -/
def Packet.works (p : Packet) : Bool := p.started && (!p.committed || decide (leAt p.eff 0 2 = 0x0704))

/-- The restarted firmware reports ready, its image verified again (R443): each command fetched and not past its commit point is
answered ABORTED_RESET (R391). -/
def State.mgpReady (s : State) : State :=
  let out := s.mgp.staged.filter (fun p => !p.past)
  let s := { s with
    mgp := { s.mgp with running := true, restartAt := none, servedAt := s.tick, staged := s.mgp.staged.filter Packet.past }
    fcs := { s.fcs with mgpRestart := none }, tru := { s.tru with verifyLast := 0xFFFF0001 } }
  let s := out.foldl (fun s p => if p.mute then s.undoCmd p else (s.undoCmd p).updAq p.fn (fun a => { a with
    replies := a.replies ++ [(p.no, plainReply (BitVec.ofNat 32 (leAt p.bytes 4 4)) Status.abortedReset s.tmr.time)] })) s
  let s := s.mgp.sideband.foldl (fun s x =>
    s.sidebandSend x.1 ((plainReply (BitVec.ofNat 32 (leAt x.2.bytes 4 4)) Status.abortedReset s.tmr.time).bytes false) none) s
  { s with mgp := { s.mgp with sideband := [] } }

/-- The restart ends at its tick, unless 500 ms have passed before (R391). -/
def State.mgpTick (s : State) : State :=
  match s.fcs.mgpRestart, s.mgp.restartAt with
  | some t, some r => if decide (r ≤ s.tick) && decide (r < t + ticksOfMs 500) then s.mgpReady else s
  | _, _ => s

/-! ## Collection (R371 to R375) -/

/-- The reaction runs, unless the voltage monitor reports between t0 and QUENCH_DONE (R472). -/
def State.runReaction (s : State) (r : Report) (reaction : Nat) : State :=
  if s.inMode [.quench] && decide (r.cls = 0x28) && !s.psv.quenchDone then s
  else if reaction = reactMgp then s.restartMgp
  else s.react reaction r.cls r.kind r.unit

/-- A collected source whose reaction is not log: the part is in the fault state and a window is open (R373, R389). -/
def State.openWindow (s : State) : State :=
  { s with fcs := { s.fcs with fault := true, quietAt := s.tick, window := true } }

/-- Collect one source. -/
def State.collectOne (s : State) (r : Report) : State :=
  let seq := s.fcs.logSeq
  let mode := s.mode
  if s.unitFenced r.kind r.unit then
    (s.countSource r.cls).logFault (logEntry s.tmr.time r 0 false s.fcs.fault s.fcs.lost mode seq)
  else
    let reaction := s.reactionOf r.cls
    let first := s.fcs.first.isNone
    let before := s.fcs.fault
    let s := (s.countSource r.cls).latchFirst r reaction
    let s := if reaction = 0 then s else ((s.openWindow).runReaction r reaction).afterFence
    let s := s.logFault (logEntry s.tmr.time r reaction first before s.fcs.lost mode seq)
    s.postEventAll fcsBlock 0x0070 r.code (BitVec.ofNat 64 (reaction + r.kind * 2 ^ 8 + r.unit * 2 ^ 16 + seq * 2 ^ 32))

/-- Sources of one cycle in their order: the lowest source code first, and on equal codes the lowest unit id (R372). -/
def insertReport (r : Report) : List Report → List Report
  | [] => [r]
  | q :: t => if r.code < q.code ∨ (r.code = q.code ∧ r.unit < q.unit) then r :: q :: t else q :: insertReport r t
def orderReports (rs : List Report) : List Report := rs.foldl (fun l r => insertReport r l) []

/-- Collect every source that waits. What the reactions themselves report waits for the next collection. -/
def State.collectAll (s : State) : State :=
  let rs := orderReports s.fcs.inbox
  let s := { s with fcs := { s.fcs with inbox := [] } }
  rs.foldl State.collectOne s

def extToReport (x : ExtReport) : Report := { cls := x.cls, detail := x.detail, kind := x.kind, unit := x.unit, info := x.info }

/-- A report whose signal stays asserted: in a window it is collected at the close (R373). -/
def State.reportHeld (s : State) (r : Report) : State :=
  if s.fcs.window then
    { s with fcs := { s.fcs with asserted := if s.fcs.asserted.contains r then s.fcs.asserted else s.fcs.asserted ++ [r] } }
  else { s with fcs := { s.fcs with inbox := s.fcs.inbox ++ [r] } }

/-- A report from outside the modelled units enters the collector. One of a Yard class comes from a word that has become uncorrectable, at the
address it carries (R485, Table 13.10). -/
def State.takeExt (s : State) (x : ExtReport) : State :=
  let yard := decide (x.cls = 0x01) || decide (x.cls = 0x03) || decide (x.cls = 0x04)
  let s := if yard && decide (x.info.toNat < yardSize) then s.markBad x.info.toNat else s
  if x.held then s.reportHeld (extToReport x) else s.report x.cls x.detail x.kind x.unit x.info

/-- SOURCE_COLLECTED: the sources received in one cycle are collected: those the units have reported, and `ext` from outside the
modelled units. -/
def execSourceCollected (ext : List ExtReport) (s : State) : Answer :=
  occurs s s.powered (fun s =>
    ((ext.filter (fun x => (extToReport x).listed)).foldl State.takeExt s).collectAll)

/-- The engine whose error line a report is. -/
def Report.line (r : Report) : Option Nat := if r.cls = 0x08 ∧ r.detail = 0 then some r.unit else none

/-- FCS_ENG_ERR shows the line of engine `e`. -/
def State.latchLine (s : State) (e : Nat) : State :=
  ({ s with fcs := { s.fcs with engErr := if s.fcs.engErr.contains e then s.fcs.engErr else e :: s.fcs.engErr } }).sets (0xE00100 + 4 * (e / 32)) (e % 32)

/-- The window closes: what was asserted in it counts as received now. -/
def State.closeWindow (s : State) : State :=
  let lines := s.fcs.asserted.filterMap Report.line
  let f := { s.fcs with window := false, windows := wrapAdd 8 s.fcs.windows 1, quietAt := s.tick, inbox := s.fcs.inbox ++ s.fcs.asserted, asserted := [] }
  lines.foldl State.latchLine { s with fcs := f }

/-- WINDOW_CLOSE: the reactions are complete; sources still asserted are collected as new (R373). -/
def execWindowClose (s : State) : Answer := occurs s s.fcs.window (fun s => s.closeWindow.collectAll)

/-- An engine whose line is not collected: it is fenced, or its cluster is. -/
def State.lineDead (s : State) (e : Nat) : Bool := (s.engine e).fenced || (s.cluster (e / engPerCluster)).fenced

/-- ENGINE_ERROR_LINE: a line held high outside the pulse slot (R368). -/
def execEngineErrorLine (e : Nat) (s : State) : Answer :=
  occurs s (decide (e < engCount) && s.powered && !s.lineDead e) (fun s =>
    let r : Report := { cls := 0x08, detail := 0, kind := kindEng, unit := e, info := 0 }
    if s.fcs.window then s.reportHeld r
    else (s.latchLine e).reportHeld r)

/-- An engine that is asked for its heartbeat. -/
def State.asked (s : State) (e : Nat) : Bool :=
  let c := s.cluster (e / engPerCluster)
  decide (e < engCount) && c.ready && !c.gated && c.waking.isNone && !s.lineDead e

/-- An engine that was asked has not answered. -/
def State.silent (s : State) (e : Nat) : State :=
  (({ s with fcs := { s.fcs with hbFail := if s.fcs.hbFail.contains e then s.fcs.hbFail else e :: s.fcs.hbFail } }).sets
    (0xE00200 + 4 * (e / 32)) (e % 32)).report 0x09 0 kindEng e 0

/-- HEARTBEAT_REQUEST: every 100 µs each unfenced engine of a cluster that is not gated answers; `missing` names those that do not
(R368, R155). -/
def execHeartbeatRequest (missing : List Nat) (s : State) : Answer :=
  occurs s (s.powered && s.passedUs s.fcs.hbAt 100) (fun s =>
    let s := { s with fcs := { s.fcs with hbAt := s.tick } }
    if s.fcs.window then s else (missing.filter s.asked).foldl State.silent s)

/-- PAIR_FAULT: a complementary pair holds an invalid state for more than one cycle: its class, with detail 0xF (R367). -/
def execPairFault (cls kind unit : Nat) (s : State) : Answer :=
  let r : Report := { cls := cls, detail := 0xF, kind := kind, unit := unit, info := 0 }
  occurs s (s.powered && r.listed) (fun s => s.reportHeld r)

/-- QUIET_PERIOD_END: QUIET_MS have passed since the last source whose reaction is not log and since the last window (R389). -/
def execQuietPeriodEnd (s : State) : Answer :=
  let quiet := s.fcs.fault && !s.fcs.window && !s.fcs.safeState && s.fcs.inbox.isEmpty && s.passedMs s.fcs.quietAt (fld s.fcs.quiet 0 16)
  occurs s quiet (fun s =>
    let n := satAdd 32 (s.psv.mc.get 1 0) 1
    let s := { s with fcs := { s.fcs with fault := false }, psv := { s.psv with mc := s.psv.mc.put 1 n } }
    s.postEventAll fcsBlock 0x0072 0xFFFF (BitVec.ofNat 64 n))

/-- FCS_CLEAR_FIRST: a write of FCS_CTRL with CLEAR_FIRST. It acts before a source of the same tick, which is then latched as the new first (R371). -/
def execFcsClearFirst (mid : Nat) (v : W32) (s : State) : Answer :=
  occurs s (s.mayWrite mid fcsBlock && v.getLsbD 0) (fun s =>
    let s := { s with fcs := { s.fcs with first := none, firstUnit := (0, 0), firstTime := 0, ovf := false } }
    match s.fcs.fresh with
    | some (r, reaction) => s.latchFirst r reaction
    | none => s)

/-! ## The Management Processor and the watchdogs (R391, R392) -/

/-- A source of the Management Processor is collected at once. -/
def State.mgpSource (s : State) (cls : Nat) : State := (s.report cls 0 kindMgpUnit 0 0).collectAll

/-- MGP_WATCHDOG_EXPIRY: the firmware has not serviced the collector for TIMEOUT_MS: it is restarted. -/
def execMgpWatchdogExpiry (s : State) : Answer :=
  occurs s (s.powered && s.mgp.running && s.passedMs s.mgp.servedAt (fld s.fcs.mgpWd 0 16)) (fun s => s.mgpSource 0x31)

/-- LOCKSTEP_MISMATCH: the lockstep compare fails: the Management Processor is restarted. -/
def execLockstepMismatch (s : State) : Answer := occurs s (s.powered && s.mgp.running) (fun s => s.mgpSource 0x30)

/-- MGP_RESTART_TIMEOUT: a restart does not report ready within 500 ms: the safe state. -/
def execMgpRestartTimeout (s : State) : Answer :=
  match s.fcs.mgpRestart with
  | none => .next s
  | some t => occurs s (s.passedMs t 500 && s.mgp.restartAt.isSome) (fun s =>
      ({ s with mgp := { s.mgp with restartAt := none } }).mgpSource 0x32)

/-- WDOG_SERVICE: every 1 ms, while its reaction sequencer passes its self-check, the collector services the independent watchdog and
toggles WDOG_KICK. -/
def execWdogService (selfCheck : Bool) (s : State) : Answer :=
  occurs s (s.powered && selfCheck && !s.fcs.iwdgHalted && s.passedUs s.fcs.iwdgServed 1000) (fun s =>
    { s with fcs := { s.fcs with iwdgServed := s.tick, kick := !s.fcs.kick } })

/-- IWDG_EXPIRY: the independent watchdog has not been serviced for 2 ms: WDOG_OUT_N falls, SAFE_ERR is forced and admission stops
until a device reset. -/
def execIwdgExpiry (s : State) : Answer :=
  occurs s (s.powered && !s.fcs.iwdgHalted && !s.fcs.iwdgExpired && s.passedUs s.fcs.iwdgServed 2000) (fun s =>
    ({ s with fcs := { s.fcs with iwdgExpired := true } }).evalGuarantee)

/-- ARMING_TIMEOUT: ARMED has read 0 for 2 ms: guarantee-lost is set, and class 0x2B raised (R280, Table 13.7). -/
def execArmingTimeout (s : State) : Answer :=
  let due := s.evaluates && !s.fcs.causes.testBit 4 && !s.lq.armed
    && (match s.lq.unarmedAt with | some t => s.passedUs t 2000 | none => false)
  occurs s due (fun s =>
    (({ s with fcs := { s.fcs with causes := s.fcs.causes + 16 } }).report 0x2B 0 0 0 0).evalGuarantee)

/-! ## Scrubs and monitors (R394, R450, R451, R470) -/

/-- Accepted writes that are in the Landing only, as (group, write number). -/
def State.landingOnly (s : State) : List (Nat × Nat) :=
  (s.lq.groups.filter (fun g => g.sealed)).flatMap (fun g => g.writes.zipIdx.filterMap (fun w =>
    if w.1.released then none else some (g.id, w.2)))

/-- The loss of what one failing Landing word held: which accepted write lay there is not kept, so it is free (R380, R394, log 2). -/
def State.loseLanding (s : State) : State :=
  let (i, s) := s.takeFree
  let l := s.landingOnly
  match l[Config.freeNat i % (l.length + 1)]? with
  | none => s
  | some (g, k) =>
    match (s.lq.groups.find? (fun x => decide (x.id = g))).bind (fun x => x.writes[k]?) with
    | none => s
    | some w => match w.kind with
      | .record st seq _ _ => s.recordLoss (lostStream st seq 1) st false
      | .region r off _ => s.recordLoss (lostRegion r (off / 4096 * 4096) 1) r true
      | _ => s

/-- A word of the Landing at `a` that the scrub corrects, and one that it cannot. -/
def State.scrubFixed (s : State) (a : Nat) : State := s.report 0x02 0 kindBank (a / (2 * mib)) (BitVec.ofNat 64 a)
def State.scrubBad (s : State) (a : Nat) : State :=
  ((s.markBad a).report 0x03 0 kindBank (a / 8 * 8 / (2 * mib)) (BitVec.ofNat 64 (a / 8 * 8))).loseLanding

/-- LANDING_SCRUB: every 1 ms the Landing is read; single-bit errors at the addresses `corrected` are corrected and counted; `uncorrectable` words fail (R394). -/
def execLandingScrub (corrected uncorrectable : List Nat) (s : State) : Answer :=
  occurs s (s.powered && s.passedUs s.fcs.scrubAt 1000) (fun s =>
    let s := { s with fcs := { s.fcs with scrubAt := s.tick } }
    let inside := fun (a : Nat) => s.meetsPart 0 a 1
    (uncorrectable.filter inside).foldl State.scrubBad ((corrected.filter inside).foldl State.scrubFixed s))

/-- VAULT_PIN_SCRUB: every 8 ms a pinned window is read; an uncorrectable error acts as one met by a client read (R338, R394). -/
def execVaultPinScrub (x : Nat) (bad : Bool) (s : State) : Answer :=
  occurs s (s.powered && (s.xt x).win.isSome && (s.xt x).loaded && s.passedMs (s.fcs.pinScrubAt.get x 0) 8) (fun s =>
    let s := { s with fcs := { s.fcs with pinScrubAt := s.fcs.pinScrubAt.put x s.tick } }
    if bad then s.pinError x else s)

/-- RAIL_OUT_OF_RANGE: a rail stays outside its range for 2 µs (R470, Table 18.7). -/
def execRailOutOfRange (rail : Nat) (s : State) : Answer :=
  occurs s (s.powered && decide (0x10 ≤ rail) && decide (rail ≤ 0x16)) (fun s =>
    s.reportHeld { cls := 0x28, detail := 0, kind := kindRail, unit := rail, info := 0 })

/-- CLOCK_FAULT: a clock is off by more than 2 % for 10 µs (R451). -/
def execClockFault (clk : Nat) (s : State) : Answer :=
  occurs s (s.powered && decide (clk < 7)) (fun s =>
    let s := ({ s with top := { s.top with clkFaults := s.top.clkFaults ||| 2 ^ clk } }).sets 0x18 (8 + clk)
    s.reportHeld { cls := 0x29, detail := 0, kind := kindRail, unit := clk, info := 0 })

/-! ## The idle tick -/

/-- What a CLK_TIME tick brings: time advances, a restarted Management Processor reports ready, and guarantee-lost and the safety pins
follow the conditions of the part (log 7, R386, R387, R391). -/
def State.idle (s : State) : State :=
  let s := s.clockTick
  if s.powered then s.mgpTick.evalGuarantee else s

end Sys2Proof.Machine
end

