-- ==== Sys2Proof/Machine/Quench.lean ====
section
/-! DEFINITION. Power loss (chapter 9): t0 and the power-loss sequences, the Quench and its seal, Hold, the reset of the part, and the
power-up. -/
namespace Sys2Proof.Machine

/-! ## Contiguous ranges -/

def insertNat (n : Nat) : List Nat → List Nat
  | [] => [n]
  | m :: t => if n < m then n :: m :: t else if n = m then m :: t else m :: insertNat n t
/-- A list in ascending order, without repeats. -/
def ascending (l : List Nat) : List Nat := l.foldl (fun a n => insertNat n a) []

/-- The contiguous ranges of an ascending list: first number and count. -/
def runsOf : List Nat → List (Nat × Nat)
  | [] => []
  | n :: t => match runsOf t with
    | (f, c) :: r => if f = n + 1 then (n, c + 1) :: r else (n, 1) :: (f, c) :: r
    | [] => [(n, 1)]

/-! ## The manifest (R63, R64, R279, Table 2.7) -/

/-- Status 0x0032, ABORTED_QUENCH. -/
def stAbortedQuench : Nat := 0x0032

/-- A type 0x01 entry: a discarded range of a stream. -/
def discardedStream (g : Group) (id first n : Nat) : LossEntry :=
  leBytes 1 1 ++ leBytes 1 g.cls ++ leBytes 2 id ++ leBytes 4 g.tag.toNat ++ leBytes 2 g.sqid ++ leBytes 1 (midOf g.fn) ++ leBytes 1 0
    ++ leBytes 4 g.id ++ leBytes 8 first ++ leBytes 4 n ++ leBytes 2 stAbortedQuench ++ leBytes 2 0

/-- A type 0x02 entry: a discarded range of a region, in 4 KiB units. -/
def discardedRegion (g : Group) (id unit n : Nat) : LossEntry :=
  leBytes 1 2 ++ leBytes 1 g.cls ++ leBytes 1 id ++ leBytes 1 0 ++ leBytes 4 g.tag.toNat ++ leBytes 2 g.sqid ++ leBytes 1 (midOf g.fn)
    ++ leBytes 1 0 ++ leBytes 4 g.id ++ leBytes 8 (unit * 4096) ++ leBytes 4 n ++ leBytes 2 stAbortedQuench ++ leBytes 2 0

/-- Numbers of stream `x` that group `g` has reserved. -/
def Stream.reservedBy (x : Stream) (g : Nat) : List Nat := ascending (x.reserved.filterMap (fun r => if r.2 = g then some r.1 else none))

/-- 4 KiB units of region `r` that group `g` writes or trims. -/
def Group.unitsOf (g : Group) (r : Nat) : List Nat :=
  ascending (g.writes.flatMap (fun w => match w.kind with
    | .region k off d => if k = r then (List.range (d.length / 4096)).map (fun i => off / 4096 + i) else []
    | .trimRegion k off n => if k = r then (List.range n).map (fun i => off / 4096 + i) else []
    | _ => []))

/-- The entries of a discarded group: its streams, then its regions, ascending. -/
def State.discardEntries (s : State) (g : Group) : List LossEntry :=
  s.mm.streams.flatMap (fun x => (runsOf (x.2.reservedBy g.id)).map (fun r => discardedStream g x.1 r.1 r.2))
    ++ s.mm.regions.flatMap (fun x => (runsOf (g.unitsOf x.1)).map (fun r => discardedRegion g x.1 r.1 r.2))

def insertGroup (g : Group) : List Group → List Group
  | [] => [g]
  | h :: t => if g.id < h.id then g :: h :: t else h :: insertGroup g t

/-- The groups open now, in ascending order of their ids. -/
def State.openGroups (s : State) : List Group := (s.lq.groups.filter (fun g => !g.sealed)).foldl (fun l g => insertGroup g l) []

/-- The manifest of the groups open at step 3. -/
def State.makeManifest (s : State) : Manifest :=
  let gs := s.openGroups
  { entries := gs.flatMap s.discardEntries, groups := gs.length
    streams := s.mm.streams.keys (fun _ x => gs.any (fun g => !(x.reservedBy g.id).isEmpty))
    marks := s.mm.streams.map (fun x => (x.1, x.2.accSeq)) }

/-- A type 0x03 entry: the records of a stream accepted by programs that have not posted. -/
def tailEntry (id : Nat) (x : Stream) : LossEntry :=
  let un := x.recs.filter (fun r => !r.posted)
  leBytes 1 3 ++ leBytes 1 0 ++ leBytes 2 id ++ leBytes 4 0 ++ leBytes 8 x.next
    ++ leBytes 8 (match un.head? with | some r => r.seq | none => 0) ++ leBytes 4 un.length ++ leBytes 4 0

/-! ## Steps 1 to 5 (Tables 9.2 and 9.14) -/

/-- Every program ends without a completion (R61, R130); every cluster is gated. -/
def State.stopEngines (s : State) : State :=
  let s := { s with eng := { s.eng with
    engines := s.eng.engines.all (fun _ g => { g with prog := none, store := [], testing := false, due := false })
    clusters := s.eng.clusters.all (fun _ c => { c with gated := true, waking := none, bist := .idle, stop := true }), bcast := [] } }
  { s with lq := { s.lq with c0Queue := [], shQueue := [] } }

/-- PCIe links go idle, Field Ports stop, every client reset is asserted. -/
def State.stopPorts (s : State) : State :=
  let s := { s with hpc := { s.hpc with ports := s.hpc.ports.all (fun _ p => { p with dlUp := false }) } }
  let s := (List.range 4).foldl (fun s p => s.updFport p (fun x => { x with linkUp := false, tx := [] })) s
  (List.range 8).foldl State.xtAssert s

/-- A descriptor that runs ends with ABORTED; shadow descriptors and pending requests are discarded (R309). -/
def State.stopMovers (s : State) : State :=
  let stop := fun (_ : Nat) (k : MvCh) =>
    { k with active := none, shadow := none, moved := 0, pending := 0, st := .idle, lastStatus := if k.active.isSome then dsAborted else k.lastStatus }
  { s with mv := { s.mv with movers := s.mv.movers.all (fun _ m =>
      { m with activeCh := none, preemptCh := none, prgRun := false, wait := none, event := false, chans := m.chans.all stop }) } }

/-- Every unfenced mover starts its armed Quench program. -/
def State.startQuenchPrograms (s : State) : State :=
  { s with mv := { s.mv with movers := s.mv.movers.all (fun _ m =>
      if m.fenced || !m.armed then m else { m with prgMode := true, prgRun := true, prgDone := false, pc := 0, tookAt := s.tick }) } }

/-- The segments and fast-lane blocks into which Anneal was moving data lose what was copied: the old place stays in force (R254). -/
def State.dropCopies (s : State) : State :=
  let ts := s.mm.running.toList ++ s.mm.tasks
  let moves := ts.filter (fun t => decide (t.rank ≠ 1) && decide (t.rank ≠ 3))
  let copies := (moves.flatMap (fun t => t.recs.map (fun m => m.2.1) ++ t.units.map (fun m => m.2.1))).eraseDups
  let s := { s with mm := { s.mm with running := none, tasks := ts.map (fun t => Task.fresh t.rank t.seg t.lun t.block) } }
  copies.foldl State.dropSeg s

/-- The block of a program that was abandoned takes no more pages: a segment is closed, and Rebuild relocates what it holds; an open fast-lane row
is closed at every Rebuild, and its blocks are folded (R278). -/
def State.closeAt (s : State) (seg : Nat) : State :=
  if seg < segKeys then (s.updSeg seg Segment.shut).relocate seg else s

/-- What a LUN does is ended at step 3 of a Quench (R278): an erase is suspended by the vendor command, or reset where the vendor table defines no
erase suspend, and so is a program on a fast-lane LUN, which is then abandoned; reads are abandoned; a program elsewhere runs to
completion. -/
def State.quenchLun (s : State) (l : Nat) : State :=
  let u := s.lun l
  let job := fun (i : Nat) => match s.mm.jobs.find i with | some j => some (j.seg, j.issued) | none => none
  let rest := fun (s : State) => s.updLun l (fun u => { u with op := .idle, above := none, suspends := 0 })
  let close := fun (s : State) (x : Option (Nat × Bool)) => match x with | some (g, _) => s.closeAt g | none => s
  match u.op with
  | .idle => s
  | .read _ => rest s
  | .erase _ _ => rest (if (leAt (s.vendor l) 43 1).testBit 2 then s.suspendLun l else s.drive (.nandReset l))
  | .eraseSusp _ _ => rest (match u.above.bind job with | some (_, true) => s.suspendLun l | _ => s)
  | .program i => (match job i with
    | some (g, true) => if u.fastLane then rest ((s.suspendLun l).closeAt g) else s
    | _ => rest s)
  | .progSusp i => rest (close (match u.above.bind job with | some (_, true) => s.suspendLun l | _ => s) (job i))

/-- Page jobs that go on after t0: erases, which are asked for again, and programs that run outside the fast lane. -/
def State.keepJobs (s : State) : State :=
  let runs := fun (i : Nat) => s.fc.luns.any (fun p => decide (p.2.op = .program i))
  let jobs := (s.mm.jobs.filter (fun p => decide (p.2.kind = 9) || runs p.1)).map (fun p => if p.2.kind = 9 then (p.1, { p.2 with issued := false }) else p)
  { s with mm := { s.mm with jobs := jobs } }

/-- NAND operations at step 3 (R278, Tables 9.1 and 9.14): outside Service, Degraded and Update every operation is ended by a LUN reset. -/
def State.stopNand (s : State) (reset : Bool) : State :=
  let s := s.dropCopies
  let busy := s.fc.luns.keys (fun _ u => decide (u.op ≠ .idle))
  (if reset then busy.foldl (fun s l => (s.updLun l (fun u => { u with op := .idle, above := none, suspends := 0 })).drive (.nandReset l)) s
   else busy.foldl State.quenchLun s).keepJobs

/-- Unreleased writes of a group. -/
def Group.live (g : Group) : List GWrite := g.writes.filter (fun w => !w.released)

def quenchPage : Nat := 16384

def insertSeal (g : Group) : List Group → List Group
  | [] => [g]
  | h :: t => if g.sealNo < h.sealNo then g :: h :: t else h :: insertSeal g t

/-- Accepted groups not yet media-durable, oldest accepted first (R279). -/
def State.quenchGroups (s : State) : List Group :=
  (s.lq.groups.filter (fun g => g.sealed && !g.durable)).foldl (fun l g => insertSeal g l) []

/-- Bytes cut into pages. -/
def pagesOf (bs : List Byte) : List (List Byte) := (List.range (ceilDiv bs.length quenchPage)).map (fun i => (bs.drop (i * quenchPage)).take quenchPage)

/-- A write as it stands in the Landing, to the length of its charge, and encrypted as it goes to NAND (R31, R60). What fills the rest of a charge,
and the index of an encrypted unit on this path, are not stated (log 102). -/
def State.flushed (s : State) (g : Group) (w : GWrite) (i : Nat) : List Byte :=
  let bs := w.kind.content g.id
  padPage (g.sealNo * 65536 + i) w.charge (match w.kind.obj with | some o => s.atRest o (g.sealNo * 2 ^ 20 + i * 2048) bs | none => bs)

/-- The bytes of the manifest: its entries, then the accepted mark of every stream, as entries of type 0x03 (R279, R289). -/
def State.manifestBytes (s : State) (m : Manifest) : List Byte := m.entries.flatten ++ s.mm.streams.flatMap (fun x => tailEntry x.1 x.2)

/-- The pages of a Quench in their order, with their group: manifest, delta, content; after every 15 of them a parity page, their XOR (R279). The
packing of groups into pages, and the content of the delta, are not stated: each group begins a page (log 102). -/
def State.quenchPages (s : State) (m : Manifest) : List (Option Nat × List Byte) :=
  let man : List (Option Nat × List Byte) := (pagesOf (s.manifestBytes m)).map (fun p => (none, p))
  let delta : List (Option Nat × List Byte) := (pagesOf (padPage s.mm.nextJob s.mm.jHeld [])).map (fun p => (none, p))
  let content := s.quenchGroups.flatMap (fun g => (pagesOf (g.live.zipIdx.flatMap (fun w => s.flushed g w.1 w.2))).map (fun p => (some g.id, p)))
  let all : List (Option Nat × List Byte) := (man ++ delta ++ content).zipIdx.map (fun p => (p.1.1, padPage (s.mm.nextJob + 1 + p.2) quenchPage p.1.2))
  all.zipIdx.flatMap (fun (p : (Option Nat × List Byte) × Nat) =>
    if p.2 % 15 = 14 ∨ p.2 + 1 = all.length then
      [p.1, ((none : Option Nat), (((all.drop (p.2 / 15 * 15)).take 15).map (fun q => q.2)).foldl xorBytes [])]
    else [p.1])

/-- LQ assigns the pages: unit i goes to LUN i mod n of the Quench set, and to the mover that serves that LUN (R280). -/
def State.assignUnits (s : State) (m : Manifest) : State :=
  let set := s.flLive
  let units := if set.isEmpty then [] else (s.quenchPages m).zipIdx.map (fun p =>
    let i := p.2 % set.length
    ({ group := p.1.1, data := p.1.2, place := none, bytes := p.1.2.length, lun := set.getD i 0, mover := some (i % 64), taken := false, moved := false
       programmed := false } : QUnit))
  let s := { s with
    lq := { s.lq with quenchSet := set, units := units }
    mm := { s.mm with manifest := some m, quenchSet := segKeys + s.mm.nextFl, nextFl := s.mm.nextFl + 1, nextJob := s.mm.nextJob + units.length + 1 } }
  ((List.range 64).filter (fun k => (s.mover k).fenced)).foldl State.passUnits s

/-- Write protect falls on every channel, and the independent watchdog halts (R276, R392). -/
def State.endSequence (s : State) (done : Bool) : State :=
  { s with
    fc := { s.fc with chans := s.fc.chans.all (fun _ c => { c with wpHigh := false }) }
    psv := { s.psv with phase := .done, quenchDone := done }, fcs := { s.fcs with iwdgHalted := true } }

/-- t0: the sequence of the mode runs its steps 1 to 5 (R18, R275 to R279, R285). -/
def State.powerLoss (s : State) (pfail trip commanded : Bool) : State :=
  let m0 := s.mode
  let full := commanded || s.inMode [.service, .degraded, .update]
  let redo := if s.inMode [.provision] then s.mgp.staged.filter (fun p => p.started && !p.committed && decide (leAt p.bytes 0 2 = 0x0801)) else []
  let s := ((s.tornCheckpoint (!full)).setMode .quench).dropPulse
  let p := { s.psv with
    quenchCause := bitN pfail 0 + bitN trip 1 + m0.code * 16, timeT0 := s.tmr.time, rtcT0 := s.psv.rtc, phase := .running s.tick, commanded := commanded
    quenchDone := false }
  let s := { s with psv := p, mgp := { s.mgp with staged := [], redo := s.mgp.redo ++ redo }, sch := { s.sch with quenchHeld := true, frameFrom := none, frameAt := none, holds := [], lanes := [] } }
  let man := s.makeManifest
  let s := if full then (s.openGroups.foldl (fun s g => s.discardGroup g.id) s) else s
  let s := (s.stopEngines.stopPorts.stopMovers).stopNand (!full)
  if full then (s.assignUnits man).startQuenchPrograms else s.endSequence true

/-! ## What the Quench has written -/

/-- The units that hold bytes `[o, o + n)` of group `g`. -/
def State.unitsFor (s : State) (g o n : Nat) : List QUnit :=
  ((s.lq.units.filter (fun u => decide (u.group = some g))).drop (o / quenchPage)).take ((o + n - 1) / quenchPage + 1 - o / quenchPage)

/-- A 4 KiB unit of a region that lies in Quench pages: it is media-durable there, and is read from there (R287). -/
def State.indexUnit (s : State) (g : Group) (r u : Nat) (data : List Byte) (ps : List (Nat × Nat × Nat)) : State :=
  s.updRegion r (fun x => ({ x with units := x.units.upd u (fun v =>
    if v.order = g.sealNo then { v with seg := some s.mm.quenchSet, places := ps } else v) }).keep g.sealNo u data 1)

/-- What of a write at byte `o` of its group lies in Quench pages that have passed: a record as a whole, a region write unit by unit (R62, R287). -/
def State.indexWrite (s : State) (g : Group) (w : GWrite) (o : Nat) : State :=
  let us := s.unitsFor g.id o w.charge
  let all := us.all (fun u => u.programmed)
  let place := fun (us : List QUnit) => us.filterMap (fun u => u.place)
  let s := match w.kind with
    | .record st seq _ _ => if all then s.updStream st (fun x =>
        { x with recs := x.recs.map (fun (r : Rec) => if r.seq = seq ∧ r.group = g.id then { r with seg := some s.mm.quenchSet, places := place us } else r) })
        else s
    | .region r off d =>
      (List.range (d.length / 4096)).foldl (fun s i =>
        let vs := s.unitsFor g.id (o + 4096 * i) 4096
        if vs.all (fun u => u.programmed) then s.indexUnit g r (off / 4096 + i) ((d.drop (4096 * i)).take 4096) (place vs) else s) s
    | _ => s
  if all && !w.durable then s.markDurable g.id g.sealNo w else s

/-- Every write of a group whose pages have passed is indexed. -/
def State.indexGroup (s : State) (g : Group) : State :=
  (g.live.foldl (fun (a : State × Nat) w => (a.1.indexWrite g w a.2, a.2 + w.charge)) (s, 0)).1

/-- Units of a region write that is not wholly programmed stand on pages that are: Rebuild recovers them (R62). -/
def State.recoverWrite (s : State) (g : Group) (w : GWrite) : State :=
  match w.kind with
  | .region r off d =>
    (List.range (d.length / 4096)).foldl (fun s i =>
      let ps := w.spots.get (off / 4096 + i) []
      if !ps.isEmpty && ps.all (fun p => !w.pages.contains p) then
        s.updRegion r (fun x => x.keep g.sealNo (off / 4096 + i) ((d.drop (4096 * i)).take 4096) 1)
      else s) s
  | _ => s

/-- The blocks that took Quench pages leave the erased blocks of their LUN and wait for a fold. -/
def State.takeQuenchBlocks (s : State) (ps : List (Nat × Nat × Nat)) : State :=
  ((ps.map (fun p => (p.1, p.2.1))).eraseDups).foldl (fun s b => s.updLun b.1 (fun u =>
    if u.erased.contains b.2 then { u with erased := u.erased.erase b.2, used := u.used ++ [(b.2, s.mm.quenchSet)] } else u)) s

/-- The media after a Quench, sealed or not: what its pages hold is known by their tags (R62, R287). -/
def State.indexQuench (s : State) : State :=
  let s := s.quenchGroups.foldl (fun s g => g.writes.foldl (fun s w => s.recoverWrite g w) s) s
  (s.quenchGroups.foldl State.indexGroup s).takeQuenchBlocks (s.lq.units.filterMap (fun u => u.place))

/-- Charges of the accepted groups that the Quench writes. -/
def State.quenchBytes (s : State) : Nat := sumBy (fun g => sumBy (fun w => w.charge) g.live) s.quenchGroups

/-! ## The reset of the part (R375, R396, R452) -/

/-- What a reset keeps of the media tables: everything MM records in its metadata. -/
def Mm.kept (m : Mm) : Mm :=
  { Mm.reset with
    streams := m.streams, regions := m.regions, slots := m.slots, active := m.active, retClock := m.retClock, sets := m.sets
    heat := m.heat, segs := m.segs.all (fun _ g => g.shut)
    nextFl := m.nextFl, nextGen := m.nextGen, jobs := m.jobs.sel (fun _ j => decide (j.kind = 9)), nextJob := m.nextJob, flRows := m.flRows
    lifeWarned := m.lifeWarned, reactions := m.reactions, retired := m.retired, erases := m.erases, reads := m.reads, recons := m.recons
    tasks := m.tasks, jHeld := m.jHeld, jSince := m.jSince, jPage := m.jPage, jTime := m.jTime, areaA := m.areaA, areaB := m.areaB, ckptA := m.ckptA, ckptB := m.ckptB, ckptGen := m.ckptGen, vendor := m.vendor
    lunThr := m.lunThr, blkThr := m.blkThr, thrMoved := m.thrMoved, characterised := m.characterised, sealed := m.sealed, manifest := m.manifest
    quenchSet := m.quenchSet, landingEmpty := m.landingEmpty, loss := m.loss }

/-- Flash: the chips keep their content, and MM's facts about them are metadata; every operation has ended. -/
def Fc.kept (f : Fc) : Fc :=
  { Fc.reset with luns := f.luns.all (fun _ u => { u with present := false, fenced := false, op := .idle, above := none, suspends := 0, suspendedAt := 0, resumedAt := 0 }) }

/-- The backup domain (R292, R296) and the supply pins. -/
def Psv.kept (p : Psv) : Psv :=
  { Psv.reset with
    vbankMv := p.vbankMv, pfailHigh := p.pfailHigh, quenchCause := p.quenchCause, rtc := p.rtc, rtcFrac := p.rtcFrac, rtcT0 := p.rtcT0
    timeT0 := p.timeT0, mc := p.mc, bkram := p.bkram, lastCap := p.lastCap, offMs := p.offMs, lost := p.lost, xtalOk := p.xtalOk }

/-- What the metadata keeps of an update that a reset ends: one past its commit point is completed, another is over (R363, R364). -/
def Update.cut (u : Update) : Update :=
  if u.state = 0 then u else { u with state := 0, ended := if 2 ≤ u.written then 1 else 3, swapped := [] }

/-- The state after a device reset, in Boot: every unit at its reset values, but for one-time-programmable memory, the backup domain, and
what media and metadata hold. The access rules and the consent group are kept (DEDUCED, log 25: they hold after the lock, whatever the power does). -/
def State.afterReset (s : State) : State :=
  let parts := s.top.nextParts.getD s.top.parts
  { State.reset with
    mm := s.mm.kept, fc := s.fc.kept, psv := s.psv.kept, otp := s.otp
    lq := { Lq.reset with capMib := min 32 (parts.headD 32), nextGroup := s.lq.nextGroup, nextSeal := s.lq.nextSeal, quenchGen := s.lq.quenchGen, lastUs := s.lq.lastUs, lastBytes := s.lq.lastBytes }
    tru := { Tru.reset with rules := s.tru.rules, group := s.tru.group, lockedRec := s.tru.lockedRec }
    mgp := { Mgp.reset with redo := s.mgp.redo, mediaFormat := s.mgp.mediaFormat, upd := s.mgp.upd.cut }
    top := { Top.reset with nor := s.top.nor, parts := parts, vbat := s.top.vbat }
    fcs := { Fcs.reset with iwdgServed := s.tick, kick := s.fcs.kick, hbAt := s.tick, scrubAt := s.tick, logSeq := 0 }
    tick := s.tick, free := s.free, out := s.out, pending := s.pending }

/-- Highest device time that the metadata records: the checkpoints', the journal's and the seal record's (R294). -/
def Mm.latest (m : Mm) : Nat :=
  [m.ckptA.map (fun c => c.time.toNat), m.ckptB.map (fun c => c.time.toNat), some m.jTime.toNat, m.sealed.map (fun x => x.t0.toNat)].foldl
    (fun a x => max a (x.getD 0)) 0

/-- RTC periods in milliseconds and in nanoseconds. -/
def rtcMs (n : Nat) : Nat := n * 1000 / 32768
def rtcNs (n : Nat) : Nat := n * 1000000000 / 32768

/-- RTC periods since the last t0. -/
def Psv.sinceT0 (p : Psv) : Nat := (p.rtc + 2 ^ 48 - p.rtcT0) % 2 ^ 48

/-- Device time as Boot begins (R294). -/
def State.bootTime (s : State) : W64 :=
  if s.psv.lost then BitVec.ofNat 64 (s.mm.latest + 1000000000) else s.psv.timeT0 + BitVec.ofNat 64 (rtcNs s.psv.sinceT0)

/-- With the backup domain lost, the counters come from the current checkpoint and the fuses (R295, R406). -/
def State.restoreMc (s : State) : State :=
  let cp := match s.mm.current with | some c => c.mc | none => []
  { s with psv := { s.psv with mc := [(0, s.otp.fuses), (1, cp.getD 0 0), (2, cp.getD 1 0), (3, cp.getD 2 0)] } }

/-- The rollback counter and the fuses are reconciled: an interrupted raise is completed, and MC0 follows the fuses (R406). -/
def State.reconcile (s : State) : State :=
  let n := s.rollbackFloor
  { s with otp := { s.otp with fuses := n }, psv := { s.psv with mc := s.psv.mc.put 0 n } }

/-- The floor is raised to `n`: MC0 first, and from then on the fuses, one at a time (R406, `State.blowFuse`). -/
def State.raiseFloor (s : State) (n : Nat) : State :=
  { s with psv := { s.psv with mc := s.psv.mc.put 0 n }, tru := { s.tru with fuseAt := s.tick } }

/-- Boot begins, with cause bit `bit` of TOP_RESET_CAUSE. LOST speaks of this power-up: a device reset, which spares the backup domain,
reads it as 0 (DEDUCED, log 30). -/
def State.enterBoot (s : State) (bit : Nat) : State :=
  let s := { s with psv := { s.psv with lost := s.psv.lost && decide (bit = 0) } }.afterReset.reconcile
  let t := s.bootTime
  let off := if s.psv.lost then none else some (rtcMs s.psv.sinceT0)
  { s with
    tmr := { s.tmr with time := t }, psv := { s.psv with offMs := off }
    top := { s.top with modeTime := t, cause := 2 ^ bit, rootLock := true } }

def causePowerUp : Nat := 0
def causeHoldExit : Nat := 1
def causeCommanded : Nat := 2

/-! ## The commands -/

/-- QUENCH_TRIGGER: PFAIL_N has been low for FILT_NS, or the bank is below its trip: t0 (R273, R275). -/
def execQuenchTrigger (pfailLow : Bool) (vbankMv : Nat) (s : State) : Answer :=
  let trip := s.psv.provisioned && decide (vbankMv < s.psv.tripEff)
  occurs s (s.powered && !s.inMode [.quench, .hold] && (pfailLow || trip)) (fun s =>
    let s := s.sampleBank vbankMv
    ({ s with psv := { s.psv with pfailHigh := !pfailLow } }).powerLoss pfailLow trip false)

/-- The 60 bytes of a seal record (Table 9.3); `first` is the first manifest page, as segment and row, four bytes each (log 102). -/
def Seal.encode (r : Seal) (first : Nat × Nat) : List Byte :=
  let t := leBytes 2 0xD2E8 ++ leBytes 2 1 ++ leBytes 8 r.gen ++ leBytes 8 r.t0.toNat ++ leBytes 8 r.rtc ++ leBytes 8 r.bytes ++ leBytes 8 r.ckpt
    ++ leBytes 4 first.1 ++ leBytes 4 first.2 ++ leBytes 4 r.pages
  t ++ leBytes 4 (crc32c t).toNat

/-- The pages that take the seal record: on the lowest-channel unfenced member of each of the first four fast-lane stripe sets (R281). -/
def State.sealSpots (s : State) : List (Nat × Nat × Nat) :=
  (s.flSets.take 4).filterMap (fun p => ((((List.range 16).map p.2.member).filter (fun l => p.2.members.contains l && !s.lunFenced l)).head?).bind s.quenchSpot)

/-- One copy of the seal record is programmed. -/
def State.putSeal (r : Seal) (s : State) (pl : Nat × Nat × Nat) : State :=
  let (id, s) := s.freshJob
  let first := (s.mm.quenchSet, match s.lq.units.head?.bind (fun u => u.place) with | some p => p.2.2 | none => 0)
  s.program { PageJob.plain 6 0 0 0 pl.1 pl.2.1 pl.2.2 s.mm.quenchSet pl.2.2 with
    data := padPage id (s.pageBytesOf pl.1) (r.encode first), tag := pageTag s.mm.quenchSet pl.2.2 (pl.1 / 32) 6 [0, 0] 0 none 0 }

/-- The seal record as this Quench writes it. -/
def State.sealRecord (s : State) : Seal :=
  { gen := s.lq.quenchGen + 1, t0 := s.psv.timeT0, rtc := s.psv.rtcT0, bytes := s.quenchBytes
    ckpt := match s.mm.current with | some c => c.gen | none => 0, pages := s.lq.units.length }

/-- The copies of the seal record go out. -/
def State.writeSeal (s : State) : State :=
  let ps := s.sealSpots
  (ps.foldl (State.putSeal s.sealRecord) s).takeQuenchBlocks ps

/-- The seal record stands on media, with the groups it covers media-durable (R281). -/
def State.sealQuench (s : State) (t0 : Nat) (r : Seal) : State :=
  let gen := r.gen
  let bytes := r.bytes
  let s := s.indexQuench
  { s with
    mm := { s.mm with sealed := some r, jHeld := 0 }
    lq := { s.lq with groups := [], quenchGen := gen, lastUs := min (s.sinceNs t0 / 1000) 0xFFFFFFFF, lastBytes := bytes } }

/-- QUENCH_SEAL: every Quench page has passed; `pass` says that every copy of the seal record has, too: QUENCH_DONE rises. With no
LUN left, or a record that cannot be written, the sequence ends without it (R281, R282). A commanded sequence ends in the device reset
(R453). -/
def execQuenchSeal (pass : Bool) (s : State) : Answer :=
  match s.psv.phase with
  | .running t0 =>
    let none' := s.lq.quenchSet.isEmpty
    occurs s (s.inMode [.quench] && (none' || s.unitsClosed)) (fun s =>
      let ok := pass && !none'
      let r := s.sealRecord
      let s := if none' then s else s.writeSeal
      let s := (if ok then s.sealQuench t0 r else s.indexQuench).endSequence ok
      if s.psv.commanded then s.enterBoot causeCommanded else s)
  | _ => .next s

/-- Power is present: PFAIL_N is high and, on a provisioned part, the bank is at READY_MV (R286). -/
def State.inputGood (s : State) (pfailHigh : Bool) (v : Nat) : Bool := pfailHigh && (!s.psv.provisioned || decide (s.psv.readyMv ≤ v))

/-- The supply pins as sampled. -/
def State.sampleSupply (s : State) (pfailHigh : Bool) (v : Nat) : State :=
  { s with psv := { s.psv with pfailHigh := pfailHigh, vbankMv := s.psv.reading v } }

/-- HOLD_ENTRY: the sequence has ended and power is present (R284, R286). -/
def execHoldEntry (pfailHigh : Bool) (vbankMv : Nat) (s : State) : Answer :=
  occurs s (s.inMode [.quench] && decide (s.psv.phase = .done) && s.inputGood pfailHigh vbankMv) (fun s =>
    let s := (s.sampleSupply pfailHigh vbankMv).setMode .hold
    { s with psv := { s.psv with holdAt := some s.tick } })

/-- HOLD_INPUT_LOSS: the input fails in Hold: the part stays there, and the 50 ms start again (R286). -/
def execHoldInputLoss (pfailHigh : Bool) (vbankMv : Nat) (s : State) : Answer :=
  occurs s (s.inMode [.hold] && !s.inputGood pfailHigh vbankMv) (fun s =>
    let s := s.sampleSupply pfailHigh vbankMv
    { s with psv := { s.psv with holdAt := some s.tick } })

/-- HOLD_EXIT_RESET: good input has held for 50 ms: a device reset (R286). -/
def execHoldExitReset (s : State) : Answer :=
  match s.psv.holdAt with
  | none => .next s
  | some t => occurs s (s.inMode [.hold] && s.passedMs t 50) (fun s => s.enterBoot causeHoldExit)

/-- The backup domain without supply: RTC, counters and RAM are lost (R292, R296). -/
def State.loseBackup (s : State) : State :=
  { s with psv := { s.psv with rtc := 0, rtcFrac := 0, rtcT0 := 0, timeT0 := 0, mc := [], bkram := [], lastCap := 0, quenchCause := 0, lost := true, xtalOk := false } }

/-- The part without its main supplies. -/
def State.dark (s : State) (m : Mode) : State :=
  let s := s.afterReset
  { s with top := { s.top with mode := m }, mgp := { s.mgp with bootRom := false } }

/-- SUPPLY_COLLAPSE: the main supplies collapse after a power-loss sequence, or during one that runs out of energy (R282, R286, R440). -/
def execSupplyCollapse (vbat : Bool) (s : State) : Answer :=
  occurs s (s.inMode [.quench, .hold]) (fun s =>
    let s := if decide (s.psv.phase ≠ .done) then s.indexQuench else s
    let s := s.dark (if vbat then .backup else .off)
    let s := { s with top := { s.top with vbat := vbat } }
    if vbat then { s with psv := { s.psv with lost := false } } else s.loseBackup)

/-- POWER_UP: the supplies are valid and the root PLL locks: Boot begins (R292 to R295, R406, R447). PFAIL_N is taken as high until
a later row finds it low (log 16). -/
def execPowerUp (xtalOk : Bool) (s : State) : Answer :=
  occurs s (s.inMode [.off, .backup]) (fun s =>
    let s := if s.psv.lost then s.restoreMc else s
    let s := { s with psv := { s.psv with mc := s.psv.mc.put 2 (satAdd 32 (s.psv.mc.get 2 0) 1), xtalOk := xtalOk, pfailHigh := true } }
    let off := if s.psv.lost then 0 else rtcNs s.psv.sinceT0
    let old := fun (_ : Nat) (g : Segment) => { g with age := g.age + 2 * off, programmedAt := g.programmedAt + off }
    let s := { s with mm := { s.mm with retClock := s.mm.retClock + off, segs := s.mm.segs.all old } }
    s.enterBoot causePowerUp)

/-- VBAT_APPLIED: VBAT comes while the part is Off: the backup domain runs (R440). -/
def execVbatApplied (s : State) : Answer :=
  occurs s (s.inMode [.off]) (fun s => { s with top := { s.top with mode := .backup, vbat := true }, psv := { s.psv with xtalOk := true } })

/-- VBAT_REMOVED: VBAT falls below its range in Backup: the backup domain loses its state (R292, R440). -/
def execVbatRemoved (s : State) : Answer :=
  occurs s (s.inMode [.backup]) (fun s => ({ s with top := { s.top with mode := .off, vbat := false } }).loseBackup)

end Sys2Proof.Machine
end

