-- ==== Sys2Proof/Machine/Regs.lean ====
section
/-! DEFINITION. Writes of registers that have no row of their own (R6 to R9, R457 to R461, Table 17.5): BAR0, the mailbox and MSI-X
windows of BAR4, and the configuration space; the latches of the stream and Tally windows. -/
namespace Sys2Proof.Machine

/-- What a register write gives: `none` where it holds a reserved encoding, whose effect is undefined (R7). -/
abbrev WRes := Option State

/-- A write that is undefined where `bad` holds. -/
def okIf (bad : Bool) (s : State) : WRes := if bad then none else some s

/-- A register under the provisioning lock (RWL): read-only once locked (R416). -/
def rwl (s : State) (r : WRes) : WRes := if s.otp.locked then some s else r

/-- The word of a 64-bit register that a write of half `hi` replaces. -/
def putHalf (x : W64) (hi : Bool) (v : W32) : W64 := if hi then setFld x 32 32 v.toNat else setFld x 0 32 v.toNat

/-! ## The blocks -/

/-- TOP: TOP_RESET_CAUSE and TOP_CLK_STATUS (W1C). -/
def State.regTop (s : State) (o : Nat) (v : W32) : WRes :=
  if o = 0xC then some { s with top := { s.top with cause := (BitVec.ofNat 4 s.top.cause &&& ~~~ (v.truncate 4)).toNat } }
  else if o = 0x18 then some { s with top := { s.top with clkFaults := (BitVec.ofNat 7 s.top.clkFaults &&& ~~~ BitVec.ofNat 7 (fld v 8 7)).toNat } }
  else some s

/-- HPC: HPC_LINK_CFGp (RWL). -/
def State.regHpc (s : State) (o : Nat) (v : W32) : WRes :=
  if o = 4 ∨ o = 0x8004 then rwl s (some (s.updHport (o / 0x8000) (fun p => { p with linkCfg := v &&& 0xF0F }))) else some s

/-- QE: the private page of a function and the queue records (Tables 6.13 to 6.18). A QE_AQ_DEPTH outside its range, which is not labelled
reserved, is stored (DESIGN CHOICE, log 106). -/
def State.regQe (s : State) (fn o : Nat) (v : W32) : WRes :=
  let aq := fun (f : Aq → Aq) => some (s.updAq fn (fun a => if a.en then a else f a))
  if o = 0 then okIf (decide (fld v 0 16 < 10) || decide (fld v 16 16 = 0)) (s.updAq fn (fun a => { a with cqStallUs := fld v 0 16, ownWaitUs := fld v 16 16 }))
  else if o = 8 then aq (fun a => { a with sqDepth := fld v 0 13, cqDepth := fld v 16 13 })
  else if o = 0x10 ∨ o = 0x14 then aq (fun a => { a with sqBase := putHalf a.sqBase (decide (o = 0x14)) v })
  else if o = 0x18 ∨ o = 0x1C then aq (fun a => { a with cqBase := putHalf a.cqBase (decide (o = 0x1C)) v })
  else if 0x20000 ≤ o ∧ o < 0x40000 ∧ o % 0x20 = 4 then
    some (s.updSq ((o - 0x20000) / 0x20) (fun q => if q.fn ≠ fn then q else { q with
      dbErr := q.dbErr && !v.getLsbD 8, ownErr := q.ownErr && !v.getLsbD 9, rdErr := q.rdErr && !v.getLsbD 10 }))
  else if 0x40000 ≤ o ∧ o < 0x50000 ∧ o % 0x20 = 4 then
    some (s.updCq ((o - 0x40000) / 0x20) (fun q => if q.fn ≠ fn then q else { q with
      dbErr := q.dbErr && !v.getLsbD 8, c0Over := q.c0Over && !v.getLsbD 9 }))
  else if 0x40000 ≤ o ∧ o < 0x50000 ∧ o % 0x20 = 0 then
    some (s.updCq ((o - 0x40000) / 0x20) (fun q => if q.fn ≠ fn then q else { q with
      ivEn := v.getLsbD 0, icount := fld v 8 8, itimeUs := fld v 16 16 }))
  else some s

/-- ENG: ENG_CL_CTRL, ENG_CREW_SEL of the identity, ENG_BAR_MASKn. The global page is the same in every cluster window. -/
def State.regEng (s : State) (mid o : Nat) (v : W32) : WRes :=
  let c := o / 0x10000
  let w := o % 0x10000
  if w = 4 then
    okIf (decide (fld v 8 10 = 0) || decide (1000 < fld v 8 10))
      (s.updCluster c (fun k => { k with
        gateEn := v.getLsbD 0, gateIdleUs := fld v 8 10, idleSince := if v.getLsbD 0 && !k.gateEn then s.tick else k.idleSince }))
  else if w = 0xE010 then some { s with eng := { s.eng with crewSel := s.eng.crewSel.put mid (fld v 0 8) } }
  else if 0xF000 ≤ w ∧ w % 0x10 = 4 then some (s.updBar ((w - 0xF000) / 0x10) (fun b => { b with mask := BitVec.ofNat 16 (fld v 0 16) }))
  else some s

/-- PFU: PFU_CL_CTRL. -/
def State.regPfu (s : State) (o : Nat) (v : W32) : WRes :=
  if o % 0x10000 = 0 then okIf (decide (4 < fld v 0 3)) (s.updCluster (o / 0x10000) (fun k => { k with prefetch := fld v 0 3 })) else some s

/-- MV: MV_CHn_STATE.REQ_OVR, MV_CFG, and the program registers and RAM, which MID 0x10 alone writes. -/
def State.regMv (s : State) (mid o : Nat) (v : W32) : WRes :=
  let m := o / 0x2000
  let w := o % 0x2000
  if o = 0x80000 then okIf (decide (fld v 0 16 = 0) || decide (fld v 16 16 = 0)) { s with mv := { s.mv with cfg := v } }
  else if 64 ≤ m then some s
  else if 0x100 ≤ w ∧ w < 0x900 ∧ w % 0x80 = 0 then
    some (if v.getLsbD 20 then s.updMvCh m ((w - 0x100) / 0x80) (fun c => { c with reqOvr := false }) else s)
  else if mid ≠ 0x10 then some s
  else if 0xA00 ≤ w ∧ w < 0xA40 then
    some (s.updMover m (fun x => { x with a := x.a.mod ((w - 0xA00) / 8) 0 (fun y => putHalf y (decide (w % 8 = 4)) v) }))
  else if 0xA40 ≤ w ∧ w < 0xA50 then some (s.updMover m (fun x => { x with k := x.k.put ((w - 0xA40) / 4) v }))
  else if 0x1000 ≤ w then
    some (s.updMover m (fun x => { x with ram := x.ram.writeN (w - 0x1000) (leBytes 4 v.toNat), armed := false, prgFault := false })).setArmed
  else some s

/-- SCH: Tables 7.13 to 7.19. -/
def State.regSch (s : State) (mid o : Nat) (v : W32) : WRes :=
  let put := fun (f : Sch → Sch) => { s with sch := f s.sch }
  let zero := fun (lo : Nat) => decide (fld v lo 16 = 0)
  if o = 0 then okIf (decide (fld v 0 8 = 0)) (put (fun h => { h with cfg := v &&& 0x1FF }))
  else if o = 0x14 then some (put (fun h => { h with overContract := h.overContract && !v.getLsbD 8 }))
  else if o = 0x30 then okIf (zero 0 || zero 16) (put (fun h => { h with lim0 := v }))
  else if o = 0x34 then okIf (zero 0 || zero 16) (put (fun h => { h with lim1 := v }))
  else if o = 0x38 then okIf (zero 0) (put (fun h => { h with lim2 := v &&& 0xFFFF }))
  else if o = 0x20C then
    if v.getLsbD 0 then
      let x := s.sch.win.get mid TallyWin.zero
      let s := s.updReqr (fld x.sel 16 7) (fld x.sel 0 9) (fun r => { r with maxWaitNs := 0 })
      some { s with sch := { s.sch with win := s.sch.win.put mid { x with maxWait := 0 } } }
    else some s
  else if 0x300 ≤ o ∧ o < 0x324 then
    some (put (fun h => { h with starve := h.starve.filter (fun r => !(decide (r / 32 = (o - 0x300) / 4) && v.getLsbD (r % 32))) }))
  else if o = 0x400 then some (put (fun h => { h with readSel := v &&& 0x1FF011F }))
  else some s

/-- CPL: CPL_Q_CFGq, CPL_Q_STATUSq, CPL_Q_LIMq and the held half of CPL_PUSH. A CAP above its range, which is not labelled reserved, is stored
(DESIGN CHOICE, log 106). -/
def State.regCpl (s : State) (mid o : Nat) (v : W32) : WRes :=
  let q := o / 0x10
  if o < 0x10000 then
    if o % 0x10 = 0 then
      some (s.updCpq q (fun c => { c with
        en := v.getLsbD 0, pkt := if c.en then c.pkt else v.getLsbD 1, noticeEn := v.getLsbD 2, vector := fld v 8 8, func := fld v 16 3 }))
    else if o % 0x10 = 4 then some (if v.getLsbD 8 then s.updCpq q (fun c => { c with overrun := false }) else s)
    else if o % 0x10 = 8 then okIf (decide (fld v 0 19 = 0)) (s.updCpq q (fun c => { c with cap := fld v 0 19 }))
    else some s
  else if 0x20000 ≤ o ∧ o < 0x28000 ∧ o % 8 = 0 then
    some { s with cpl := { s.cpl with pushLo := s.cpl.pushLo.put (cpKey mid ((o - 0x20000) / 8)) v } }
  else some s

/-- FC: FC_CH_CFG (RWL). -/
def State.regFc (s : State) (o : Nat) (v : W32) : WRes :=
  if o % 0x10000 = 0 then rwl s (okIf (decide (fld v 0 2 = 3)) (s.updChan (o / 0x10000) (fun c => { c with cfg := v &&& 0xFFFFFF03 }))) else some s

/-- ECX: ECX_CFG. -/
def State.regEcx (s : State) (o : Nat) (v : W32) : WRes :=
  if o = 0 then okIf (decide (fld v 4 2 = 3)) { s with fc := { s.fc with ecxCfg := v &&& 0x7F } } else some s

/-- MM: Tables 8.12 to 8.16. A MM_ROW_CFG outside its range, which is not labelled reserved, is stored and used (DESIGN CHOICE, log 106). -/
def State.regMm (s : State) (o : Nat) (v : W32) : WRes :=
  let put := fun (f : Mm → Mm) => { s with mm := f s.mm }
  if o = 4 then
    rwl s (okIf (decide (fld v 0 16 < 100) || decide (10000 < fld v 0 16) || decide (fld v 16 8 = 0) || decide (16 < fld v 16 8))
      (put (fun m => { m with flCfg := v &&& 0xFFFFFF })))
  else if o = 0x10 then okIf (decide (fld v 12 8 = 0)) (put (fun m => { m with retCfg := v }))
  else if o = 0x14 then some (put (fun m => { m with rdCfg := v }))
  else if o = 0x18 then some (put (fun m => { m with scrubCfg := v &&& 0xFF }))
  else if o = 0x1C then some (put (fun m => { m with wearCfg := v &&& 0xFFFFFF }))
  else if o = 0x20 then some (put (fun m => { m with rowCfg := v &&& 0xFFFF }))
  else if o = 0x24 then some (put (fun m => { m with ckptCfg := v }))
  else if o = 0x28 then some (put (fun m => { m with capCfg := v &&& 0xFFFF }))
  else if o = 0x48 then some (put (fun m => { m with retTOffset := fld v 0 8 }))
  else some s

/-- LQ: LQ_STATUS and LQ_WAIT_MAX_NS (W1C). -/
def State.regLq (s : State) (o : Nat) (v : W32) : WRes :=
  if o = 0 then some { s with lq := { s.lq with limitDrop := s.lq.limitDrop && !v.getLsbD 8, energyRefused := s.lq.energyRefused && !v.getLsbD 9 } }
  else if o = 0x34 then some (if v.getLsbD 0 then { s with lq := { s.lq with waitMaxNs := 0 } } else s)
  else some s

/-- PSV: Tables 9.8 to 9.13 and the software bytes of the backup RAM (R296). -/
def State.regPsv (s : State) (o : Nat) (v : W32) : WRes :=
  let put := fun (f : Psv → Psv) => { s with psv := f s.psv }
  if o = 0 then some (put (fun p => { p with measFail := p.measFail && !v.getLsbD 8, degraded := p.degraded && !v.getLsbD 9 }))
  else if o = 0xC then rwl s (some (put (fun p => { p with boardMw := v &&& 0xFFFF })))
  else if o = 0x10 then
    rwl s (okIf (decide (fld v 16 10 ≠ 0) && (decide (fld v 16 10 < 500) || decide (1000 < fld v 16 10))) (put (fun p => { p with bankCfg := v &&& 0x3FFFFFF })))
  else if o = 0x14 then rwl s (some (put (fun p => { p with capNom := v &&& 0xFFFFFF })))
  else if o = 0x18 then rwl s (some (put (fun p => { p with bankTrip := v })))
  else if o = 0x24 then rwl s (some (put (fun p => { p with senseCfg := v &&& 0xFFFF })))
  else if o = 0x28 then rwl s (some (put (fun p => { p with pfailCfg := v &&& 0x3FF })))
  else if o = 0x2C then rwl s (some (put (fun p => { p with pulseCfg := v &&& 0xFFFF009F })))
  else if o = 0x140 then okIf (decide (fld v 0 6 < 32)) (put (fun p => { p with bkSel := v &&& 0x3F }))
  else if o = 0x144 then some (put (fun p => { p with bkram := p.bkram.writeN (fld p.bkSel 0 6 * 4) (leBytes 4 v.toNat) }))
  else some s

/-- Keep the low half of a 64-bit write (R459, R460). -/
def State.holdLo (s : State) (mid off : Nat) (v : W32) : State := { s with top := { s.top with loHold := s.top.loHold.put (halfKey mid off) v } }

/-- TMR: timers, captures and discipline (Tables 15.6 to 15.10). -/
def State.regTmr (s : State) (mid o : Nat) (v : W32) : WRes :=
  let put := fun (f : Tmr → Tmr) => { s with tmr := f s.tmr }
  if o = 0x10 then okIf (decide (fld v 16 16 = 0)) (put (fun t => { t with discCfg := v }))
  else if o = 0x28 then some (put (fun t => { t with capLost := t.capLost &&& ~~~ v }))
  else if 0x1000 ≤ o ∧ o < 0x1800 then
    let t := (o - 0x1000) / 0x20
    let w := o % 0x20
    if w = 0 then some (s.updTimer t (fun x => { x with ctrl := v &&& 0x3F07FF0F }))
    else if w = 4 then some (s.updTimer t (fun x => { x with mtch := x.mtch && !v.getLsbD 8, late := x.late && !v.getLsbD 9 }))
    else if w = 8 ∨ w = 0x10 then some (s.holdLo mid (0xC80000 + o) v)
    else some s
  else if 0x2000 ≤ o ∧ o < 0x2100 ∧ o % 0x10 = 0xC then some (s.updCapture ((o - 0x2000) / 0x10) (fun c => { c with ctrl := v &&& 0x7FF03 }))
  else some s

/-- MBX: MBX_CFG and MBX_STATUS.CFG_ERR. -/
def State.regMbx (s : State) (o : Nat) (v : W32) : WRes :=
  if o = 0 then some { s with mbx := { s.mbx with cfg := v &&& 0xFFFF } }
  else if o = 4 then some { s with mbx := { s.mbx with cfgErr := s.mbx.cfgErr && !v.getLsbD 1 } }
  else some s

/-- The engines of word `k` whose bit is set in `v`. -/
def wordClears (k : Nat) (v : W32) (l : List Nat) : List Nat := l.filter (fun e => !(decide (e / 32 = k) && v.getLsbD (e % 32)))

/-- FCS: FCS_QUIET and FCS_MGP_WD (RWL), the engine error and heartbeat words (W1C). -/
def State.regFcs (s : State) (o : Nat) (v : W32) : WRes :=
  let put := fun (f : Fcs → Fcs) => { s with fcs := f s.fcs }
  let out := fun (hi : Nat) => decide (fld v 0 16 < 10) || decide (hi < fld v 0 16)
  if o = 0x20 then rwl s (okIf (out 10000) (put (fun f => { f with quiet := v &&& 0xFFFF })))
  else if o = 0x28 then rwl s (okIf (out 1000) (put (fun f => { f with mgpWd := v &&& 0xFFFF })))
  else if 0x100 ≤ o ∧ o < 0x190 then some (put (fun f => { f with engErr := wordClears ((o - 0x100) / 4) v f.engErr }))
  else if 0x200 ≤ o ∧ o < 0x290 then some (put (fun f => { f with hbFail := wordClears ((o - 0x200) / 4) v f.hbFail }))
  else some s

/-- A gate list entry: gates in bits 7 to 0, interval in bits 31 to 8. -/
def putEntry (l : List (Nat × Nat)) (e : Nat) (v : W32) : List (Nat × Nat) :=
  (l ++ List.replicate (e + 1 - l.length) (0, 0)).set e (fld v 0 8, fld v 8 24)

/-- FLD: the registers of a Field Port (Table 11.12). A rate code of FLD_CFG that the table does not list is stored (DESIGN CHOICE, log 106). -/
def State.regFld (s : State) (o : Nat) (v : W32) : WRes :=
  let p := o / 0x10000
  let w := o % 0x10000
  if 4 ≤ p then some s
  else if w = 0 then
    let s := s.updFport p (fun x => { x with cfg := v &&& 0xFFF0F })
    some (if v.getLsbD 2 then s else s.fpLink p false)
  else if w = 8 ∨ w = 0xC then some (s.updFport p (fun x => { x with mac := putHalf x.mac (decide (w = 0xC)) v }))
  else if 0x100 ≤ w ∧ w < 0x500 then some (s.updFport p (fun x => { x with rules := x.rules.put ((w - 0x100) / 4) v }))
  else if w = 0x800 ∨ w = 0x804 then some (s.updFport p (fun x => { x with admin := { x.admin with base := putHalf x.admin.base (decide (w = 0x804)) v } }))
  else if w = 0x808 then some (s.updFport p (fun x => { x with admin := { x.admin with cycle := v.toNat } }))
  else if 0x1000 ≤ w ∧ w < 0x1400 then some (s.updFport p (fun x => { x with admin := { x.admin with entries := putEntry x.admin.entries ((w - 0x1000) / 4) v } }))
  else some s

/-- A request line's configuration; its binding moves the mover channel with it (R303, R340). -/
def State.bindDreq (s : State) (n : Nat) (v : W32) : State :=
  let d := s.dreq n
  let s := if d.bound then s.updMvCh d.mover d.channel (fun c => if c.bound && decide (c.line = n) then { c with bound := false, line := 0 } else c) else s
  let s := s.updDreq n (fun d => { d with cfg := v &&& 0x7F0F0F })
  let d := s.dreq n
  if d.bound then s.updMvCh d.mover d.channel (fun c => { c with bound := true, line := n }) else s

/-- LPC: the xSPI ports, request lines, GPIO, UART, I²C, captures and PPS (Table 11.12). A class of LPC_XT_STREAM that the table does not list is
stored and used (DESIGN CHOICE, log 106). -/
def State.regLpc (s : State) (mid o : Nat) (v : W32) : WRes :=
  let put := fun (f : Lpc → Lpc) => { s with lpc := f s.lpc }
  let mix := fun (old : W32) => (old &&& ~~~ s.gpioFree) ||| (v &&& s.gpioFree)
  let n := o / 0x100
  if o < 0x800 then
    if o % 0x100 = 0 then
      okIf (decide (fld v 8 6 < 8) || decide (32 < fld v 8 6)) ((s.updXt n (fun x => { x with cfg := v &&& 0xFFFF3F07 })).xtTryRelease n)
    else if o % 0x100 = 4 then
      some (s.updXt n (fun x => { x with
        late := x.late && !v.getLsbD 8, loadFail := x.loadFail && !v.getLsbD 9, windowFault := x.windowFault && !v.getLsbD 10
        perrSeen := x.perrSeen && !v.getLsbD 11 }))
    else if o % 0x100 = 0xC then some (s.updXt n (fun x => { x with wwin := v &&& 0x1FFFFF }))
    else if o % 0x100 = 0x10 then some (s.updXt n (fun x => { x with stream := (v &&& 0x3FFFF) ||| BitVec.ofNat 32 (mid % 64 * 2 ^ 24) }))
    else if o % 0x100 = 0x14 then some (s.updXt n (fun x => { x with id := v &&& 0xFFFFFF }))
    else some s
  else if 0x1000 ≤ o ∧ o < 0x1200 then
    let k := (o - 0x1000) / 0x20
    let w := o % 0x20
    if w = 0 then some (s.bindDreq k v)
    else if w = 4 ∨ w = 8 then some (s.updDreq k (fun d => { d with ring := putHalf d.ring (decide (w = 8)) v }))
    else if w = 0xC then some (s.updDreq k (fun d => { d with size := v }))
    else some s
  else if o = 0x2000 then some (put (fun l => { l with gpioDir := mix l.gpioDir }))
  else if o = 0x2004 then some (put (fun l => { l with gpioOut := mix l.gpioOut }))
  else if o = 0x200C then some (put (fun l => { l with gpioOd := mix l.gpioOd }))
  else if o = 0x2010 then some (put (fun l => { l with gpioIrqEn := v }))
  else if o = 0x2014 then some (put (fun l => { l with gpioStatus := l.gpioStatus &&& ~~~ v }))
  else if o = 0x2018 then some (put (fun l => { l with gpioCfg := v &&& 0x307FF }))
  else if o = 0x3000 ∨ o = 0x3100 then some (s.updUart ((o - 0x3000) / 0x100) (fun u => { u with cfg := v &&& 0x1FFFFFF }))
  else if o = 0x3400 ∨ o = 0x3500 then some (s.updI2c ((o - 0x3400) / 0x100) (fun u => { u with cfg := v &&& 3 }))
  else if o = 0x3800 then rwl s (some (put (fun l => { l with sbCfg := v &&& 0x7F0F })))
  else if 0x4000 ≤ o ∧ o < 0x4040 then some (put (fun l => { l with capSrc := l.capSrc.put ((o - 0x4000) / 4) (v &&& 0x33F) }))
  else if o = 0x4100 then some (put (fun l => { l with ppsCfg := v &&& 0x1FFFF }))
  else some s

/-- The register at BAR0 offset `off` takes `v` under its access code; offsets without a register, and registers with a row of their own,
are left alone (R457). -/
def State.regBar0 (s : State) (mid off : Nat) (v : W32) : WRes :=
  let o := off % 0x100000
  match off / 0x100000 with
  | 0 => s.regTop o v
  | 1 => s.regHpc o v
  | 2 => match fnOf mid with
    | some fn => s.regQe fn o v
    | none => some s
  | 3 => s.regEng mid o v
  | 4 => s.regPfu o v
  | 5 => s.regMv mid o v
  | 6 => s.regSch mid o v
  | 8 => s.regCpl mid o v
  | 9 => s.regFc o v
  | 10 => s.regEcx o v
  | 11 => if o < 0x80000 then s.regMm o v else s.regLq (o - 0x80000) v
  | 12 => if o < 0x80000 then s.regPsv o v else s.regTmr mid (o - 0x80000) v
  | 13 => if o < 0x80000 then some s else s.regMbx (o - 0x80000) v
  | 14 => s.regFcs o v
  | 15 => if o < 0x80000 then s.regFld o v else s.regLpc mid (o - 0x80000) v
  | _ => some s

/-! ## BAR4 and the configuration space -/

/-- The mailbox window of the identity (Table 15.2). -/
def State.regWindow (s : State) (mid off : Nat) (v : W32) : State :=
  let ch := off / 0x40
  match (s.mchan ch).windowEnd mid with
  | none => s
  | some i =>
    if ((s.mchan ch).side i).kind ≠ kindHost then s
    else match off % 0x40 with
      | 0 => { s with mbx := { s.mbx with txLo := s.mbx.txLo.put (mbxKey mid ch) v } }
      | 0x14 => s.updMchan ch (fun c => c.updSide i (fun m => { m with
          overrun := m.overrun && !v.getLsbD 9, aborted := m.aborted && !v.getLsbD 10, timedOut := m.timedOut && !v.getLsbD 11 }))
      | 0x18 => s.updMchan ch (fun c => c.updSide i (fun m => { m with irq := v &&& 0xFF07 }))
      | _ => s

/-- The MSI-X table of a function: address, data and mask of each vector (R321). -/
def State.regMsix (s : State) (fn off : Nat) (v : W32) : State :=
  let k := (off - 0x4000) / 0x10
  let upd := fun (f : W64 × W32 × Bool → W64 × W32 × Bool) => s.updHfn fn (fun x => { x with vecs := x.vecs.mod k (0, 0, true) f })
  match off % 0x10 with
  | 0 => upd (fun e => (putHalf e.1 false v, e.2))
  | 4 => upd (fun e => (putHalf e.1 true v, e.2))
  | 8 => upd (fun e => (e.1, v, e.2.2))
  | 0xC => s.maskVec fn k (v.getLsbD 0)
  | _ => s

/-- Pending vectors send their messages once nothing holds them. -/
def State.flushMsix (s : State) (fn : Nat) : State :=
  (s.hfn fn).pba.foldl (fun s k =>
    if (s.hfn fn).masked k then s else (s.updHfn fn (fun f => { f with pba := f.pba.erase k })).sendMsix fn k) s

/-- Configuration space (R320 to R322): the Command register, the MSI-X Message Control word and AER's Uncorrectable Error Status. The
offsets of the capabilities are not stated: MSI-X is named by its capability id 0x11, AER by 0x10000 + its id (DESIGN CHOICE, log 73). -/
def State.regConfig (s : State) (fn off : Nat) (v : W32) : State :=
  if off = 4 then (s.updHfn fn (fun f => { f with bme := v.getLsbD 2 })).flushMsix fn
  else if off = 0x11 then (s.updHfn fn (fun f => { f with msixEn := v.getLsbD 31, fmask := v.getLsbD 30 })).flushMsix fn
  else if off = 0x10001 then s.updHfn fn (fun f => { f with aer := f.aer.filter (fun b => !v.getLsbD b) })
  else s

/-- The register that a write of `mid` reaches at a BAR0 offset, as hardware events name it: the QE page is the function's own. -/
def bar0Reg (mid off : Nat) : Nat := if off / 0x100000 = 2 then qeReg ((fnOf mid).getD 0) (off % 0x100000) else off

/-- REGISTER_WRITE: a write by identity `mid` to BAR 0 or 4 (`bar` 7: configuration space), at a 4-byte aligned offset; a W1C bit that an event sets
in the same tick stands (R9, R18, R319, R457 to R461). -/
def execRegisterWrite (mid bar off : Nat) (v : W32) (s : State) : Answer :=
  if s.frozen || (off % 4 ≠ 0 && bar ≠ 7) then .next s
  else match bar with
    | 0 =>
      if s.mayWrite mid (blockOf off) && decide (off < 0x1000000) then
        match s.regBar0 mid off (s.clears (bar0Reg mid off) v) with
        | some s' => .next s'
        | none => .fault .reservedValue
      else .next s
    | 4 => match s.liveFn mid with
      | none => .next s
      | some fn =>
        if off < 0x4000 then .next (s.regWindow mid off (s.clears (windowReg mid off) v))
        else if off < 0x5000 then .next (s.regMsix fn off v)
        else .next s
    | 7 => match fnOf mid with
      | some fn => .next (s.regConfig fn off v)
      | none => .next s
    | _ => .next s

/-! ## The stream window (R65, Tables 2.12 to 2.14) -/

/-- The window's content for a stream, as it stands. -/
def Stream.window (id : Nat) (x : Stream) : StreamWin :=
  { sel := id
    state := BitVec.ofNat 32 (1 + bitN x.enc 1 + x.policy % 4 * 4 + bitN x.full 4 + bitN (!x.reserved.isEmpty) 5 + min x.segs.length 0xFFFF * 2 ^ 16)
    old := BitVec.ofNat 64 x.oldSeq, dur := BitVec.ofNat 64 x.durSeq, acc := BitVec.ofNat 64 x.accSeq, next := BitVec.ofNat 64 x.next
    bytes := BitVec.ofNat 64 x.bytes }

/-- The window that `mid` sees of stream `id`: all 0 where it does not exist or may not be read. -/
def State.streamWindow (s : State) (mid id : Nat) : StreamWin :=
  match s.stream id with
  | some x => if s.holds mid 3 id 0 then x.window id else { StreamWin.zero with sel := id }
  | none => { StreamWin.zero with sel := id }

/-- STREAM_SNAPSHOT: a write of MM_STREAM_SEL latches the window of the stream it names. -/
def execStreamSnapshot (mid : Nat) (v : W32) (s : State) : Answer :=
  occurs s (s.mayWrite mid mmBlock) (fun s => { s with mm := { s.mm with win := s.mm.win.put mid (s.streamWindow mid (fld v 0 16)) } })

/-! ## The Tally window (R229, Table 7.18) -/

/-- Arbiters of Table 7.8, and whether they keep credit. -/
def arbiterListed (a : Nat) : Bool := decide (a ≤ 16) || (decide (32 ≤ a) && decide (a ≤ 115))

/-- TALLY_LATCH: a write of SCH_TALLY_SEL latches the counters and credit of a requester at an arbiter; other selections are reserved. -/
def execTallyLatch (mid : Nat) (v : W32) (s : State) : Answer :=
  let r := fld v 0 9
  let a := fld v 16 7
  if !s.mayWrite mid (blockOf 0x600000) then .next s
  else if 256 < r ∨ !arbiterListed a then .fault .reservedValue
  else
    let q := s.reqr a r
    let c := match s.crew r with | some k => decide (k.cls ≤ 1) | none => false
    let w : TallyWin := {
      sel := v &&& 0x7F01FF, grants := BitVec.ofNat 32 q.grants, waits := BitVec.ofNat 32 q.lost, maxWait := BitVec.ofNat 32 q.maxWaitNs
      credit := if c then 0 else BitVec.ofNat 32 (q.credit % 2 ^ 15) }
    .next { s with sch := { s.sch with win := s.sch.win.put mid w } }

end Sys2Proof.Machine
end

