-- ==== Sys2Proof/Machine/Boot.lean ====
section
/-! DEFINITION. Coming up from power (chapters 9 and 16): signature checks (R402 to R405), Boot, Load with the flash bring-up, and
Rebuild with its loss report. -/
namespace Sys2Proof.Machine

/-! ## Signature blocks (Tables 14.3, 14.4) -/

def kindFirmware : Nat := 1
def kindMicrocode : Nat := 2
def kindPackage : Nat := 3
def kindVault : Nat := 4

/-- Key of root slot `slot` of algorithm `alg` (0 ECDSA, 1 LMS). -/
def rootKey (alg slot : Nat) : Nat := 4 * alg + slot

/-- Whether `key` hashes to the named slot, and the slot is of the right group, programmed and not revoked. -/
def State.rootOk (s : State) (owner : Bool) (alg slot : Nat) (key : List Byte) : Bool :=
  match s.otp.roots.find (rootKey alg slot) with
  | none => false
  | some r => decide (slot < 4) && decide (decide (2 ≤ slot) = owner) && r.programmed && !r.revoked && decide (r.hash = sha384 key)

/-- The result code of Table 14.4 for a block and its content. `sig` is what the arithmetic of the two signatures gives: 0x4, 0x6 or
another value where both hold (DESIGN CHOICE, log 59: an operand of the command). -/
def State.verifyCode (s : State) (kind : Nat) (content block : List Byte) (sig floor : Nat) : Nat :=
  let owner := decide (kind = kindVault)
  if leAt block 0 2 ≠ 0xD2EA ∨ leAt block 2 1 ≠ 1 ∨ leAt block 3 1 ≠ kind ∨ leAt block 4 4 ≠ content.length then 1
  else if sha384 content ≠ (block.drop 16).take 48 then 2
  else if !s.rootOk owner 0 (leAt block 8 1) ((block.drop 64).take 97) then 3
  else if sig = 4 then 4
  else if !s.rootOk owner 1 (leAt block 9 1) ((block.drop 264).take 56) then 5
  else if sig = 6 then 6
  else if leAt block 12 4 < floor then 7 else 0

/-- TRU_VERIFY_LAST: the kind, the result, and the vault pair or 0xFFFF. -/
def State.noteVerify (s : State) (kind code pair : Nat) : State :=
  { s with tru := { s.tru with verifyLast := BitVec.ofNat 32 (kind % 16 + code % 16 * 2 ^ 8 + pair % 65536 * 2 ^ 16) } }

/-! ## Boot (R443, R444) -/

/-- The result for the two parts of an image: firmware with its configuration block, then microcode. -/
def State.imageCode (s : State) (x : NorImage) : Nat × Nat :=
  (s.verifyCode kindFirmware (x.img.fw ++ x.img.config) x.img.fwBlock x.fwSig s.rollbackFloor,
   s.verifyCode kindMicrocode x.img.ucode x.img.ucBlock x.ucSig s.rollbackFloor)

/-- Try the image of one NOR: its copy into the firmware image area, and its two checks; whether both passed. -/
def State.tryImage (s : State) (x : Option NorImage) : Bool × State :=
  match x with
  | none => (false, s)
  | some x =>
    let c := s.imageCode x
    let s := { s with top := { s.top with image := x.img } }
    if c.1 ≠ 0 then (false, s.noteVerify kindFirmware c.1 0xFFFF) else (decide (c.2 = 0), s.noteVerify kindMicrocode c.2 0xFFFF)

/-- The selectors as Boot has read them, and LPC_XH_STATUS: what SFDP says of the NORs is not given (log 2). -/
def State.noteNors (s : State) (xh0 xh1 : Option NorImage) : State :=
  let put := fun (t : Tbl (Nat × Bool × Image)) (n : Nat) (x : Option NorImage) =>
    match x with | some x => t.put n (x.gen, x.area, x.img) | none => t.del n
  let x := s.takeFree
  { x.2 with
    top := { s.top with nor := put (put s.top.nor 0 xh0) 1 xh1 }
    lpc := { s.lpc with xhStatus := BitVec.ofNat 32 (bitN xh0.isSome 0 + bitN xh1.isSome 1 + Config.freeNat x.1 % 2 * 4 + Config.freeNat x.1 / 2 % 256 * 256) } }

/-- The booted image starts: BOOT_NOR, BOOT_AREA and TOP_BOOT_INFO name it, and its firmware runs. -/
def State.bootFrom (s : State) (xh1 : Bool) (x : NorImage) : State :=
  let top := { s.top with
    bootNor := xh1, bootArea := x.area, bootInfo := x.gen % 2 ^ 32, plls := 7, cause := if xh1 then s.top.cause ||| 8 else s.top.cause }
  let m := { s.mgp with running := true, bootRom := false, servedAt := s.tick, fwVersion := leAt x.img.config 20 4 }
  (({ s with top := top, mgp := m }).setsIf xh1 0xC 3).setMode .load

/-- BOOT_COMPLETE: Boot boots the first of XH0 and XH1 whose firmware and microcode verify, or stays in Boot (R444). -/
def execBootComplete (xh0 xh1 : Option NorImage) (s : State) : Answer :=
  occurs s (s.inMode [.boot] && !s.top.bootFail) (fun s =>
    let s := s.noteNors xh0 xh1
    let a := s.tryImage xh0
    match a.1, xh0 with
    | true, some x => a.2.bootFrom false x
    | _, _ =>
      let b := a.2.tryImage xh1
      match b.1, xh1 with
      | true, some x => b.2.bootFrom true x
      | _, _ => { b.2 with top := { b.2.top with bootFail := true } })

/-! ## RWL registers (R416, R446) -/

/-- The offsets of the RWL registers. -/
def rwlOffsets : List Nat :=
  [0x100004, 0x108004, 0xB00004, 0xC0000C, 0xC00010, 0xC00014, 0xC00018, 0xC00024, 0xC00028, 0xC0002C, 0xE00020, 0xE00028, 0xF83800]
    ++ (List.range 16).map (fun n => 0x900000 + 0x10000 * n)

/-- What an RWL register holds. -/
def State.rwlRead (s : State) (off : Nat) : W32 :=
  if off = 0x100004 then (s.hport 0).linkCfg
  else if off = 0x108004 then (s.hport 1).linkCfg
  else if off = 0xB00004 then s.mm.flCfg
  else if off = 0xC0000C then s.psv.boardMw
  else if off = 0xC00010 then s.psv.bankCfg
  else if off = 0xC00014 then s.psv.capNom
  else if off = 0xC00018 then s.psv.bankTrip
  else if off = 0xC00024 then s.psv.senseCfg
  else if off = 0xC00028 then s.psv.pfailCfg
  else if off = 0xC0002C then s.psv.pulseCfg
  else if off = 0xE00020 then s.fcs.quiet
  else if off = 0xE00028 then s.fcs.mgpWd
  else if off = 0xF83800 then s.lpc.sbCfg
  else (s.chan ((off - 0x900000) / 0x10000)).cfg

/-- The part writes an RWL register, locked or not; `none` for a reserved encoding. -/
def State.rwlWrite (s : State) (off : Nat) (v : W32) : WRes :=
  (({ s with otp := { s.otp with locked := false } } : State).regBar0 0x10 off v).map (fun (t : State) => { t with otp := s.otp })

/-- Entries of `n` bytes each from offset `off` of a block. -/
def entriesAt (b : List Byte) (off n : Nat) : Nat → List (List Byte)
  | 0 => []
  | k + 1 => (b.drop off).take n :: entriesAt b (off + n) n k

/-- The RWL entries of a configuration block: offset and value (Table 16.12). -/
def rwlEntries (b : List Byte) : List (Nat × W32) :=
  (entriesAt b (leAt b 16 4) 8 (leAt b 10 2)).map (fun x => (leAt x 0 4, BitVec.ofNat 32 (leAt x 4 4)))

/-- Write a list of RWL entries; entries of other registers are skipped (R446). -/
def State.writeRwl (s : State) : List (Nat × W32) → WRes
  | [] => some s
  | (off, v) :: t => if rwlOffsets.contains off then (s.rwlWrite off v).bind (fun s => s.writeRwl t) else s.writeRwl t

/-! ## The mailbox binding table (R421, Table 15.11) -/

/-- Bind one entry, or skip it with CFG_ERR. -/
def State.bindEntry (s : State) (x : List Byte) : State :=
  let w := BitVec.ofNat 32 (leAt x 0 4)
  let ch := fld w 0 8
  let m0 := fld w 8 6
  let k0 := fld w 14 2
  let m1 := fld w 16 6
  let k1 := fld w 22 2
  if (s.mchan ch).compat ∨ m0 = m1 ∨ !endFits m0 k0 ∨ !endFits m1 k1 then ({ s with mbx := { s.mbx with cfgErr := true } }).sets 0xD80004 1
  else s.updMchan ch (fun c => { c with
    compat := true, en := true, e0 := { MEnd.reset with mid := m0, kind := k0, cl := fld w 24 4 }
    e1 := { MEnd.reset with mid := m1, kind := k1, cl := fld w 28 4 } })

/-- The binding table of the booted image is loaded and locked. -/
def State.bindTable (s : State) (b : List Byte) : State :=
  let s := (entriesAt b (leAt b 12 4) 8 (leAt b 8 2)).foldl State.bindEntry s
  { s with mbx := { s.mbx with bindLocked := true } }

/-! ## Flash bring-up (R235) -/

/-- FC_CH_CFG of a channel as provisioned: until Rebuild has written the locked registers the record holds it (R446). -/
def State.chCfg (s : State) (n : Nat) : W32 :=
  if s.otp.locked then s.tru.lockedRec.get (0x900000 + 0x10000 * n) (s.chan n).cfg else (s.chan n).cfg

/-- Target of a LUN on its channel. -/
def lunTarget (l : Nat) : Nat := l % 32 / 4

/-- Whether LUN `l` is the one that Provision recorded: a member of a stripe set matches its vendor entry in the six bytes of its Read ID and in what
its parameter page says, `id` from byte 6 on: planes, LUNs per target, page and spare bytes, pages per block and blocks, as bytes 6 to 21 of an
entry have them (log 108). -/
def State.lunMatches (s : State) (l : Nat) (id : List Byte) : Bool :=
  !s.mm.sets.any (fun p => p.2.members.contains l) || decide (id = (s.vendor l).take 22)

/-- Steps 1 and 2: SDR timing mode 0, a reset of every enabled target, the ID and the parameter page of each LUN. -/
def State.probeChan (s : State) (n : Nat) (ts ls : List Nat) : State :=
  let s := s.drive (.nandIface n 0 0)
  let s := ts.foldl (fun s t => s.drive (.nandReset (32 * n + 4 * t))) s
  ls.foldl (fun s l => (s.drive (.nandId l)).drive (.nandParam l)) s

/-- Steps 3 and 4: the provisioned interface and rate with a training, and another at half the rate where it fails. -/
def State.trainChan (s : State) (n iface rate fails : Nat) : State :=
  let s := (s.drive (.nandIface n iface rate)).drive (.nandTrain n rate)
  if fails = 0 then s else (s.drive (.nandIface n iface (rate / 2))).drive (.nandTrain n (rate / 2))

/-- Bring up channel `n`: `luns` are the LUNs that answered with what they are, and `failed` names a channel for each training that failed. -/
def State.bringUp (luns : List (Nat × List Byte)) (failed : List Nat) (s : State) (n : Nat) : State :=
  let cfg := s.chCfg n
  let enabled := fun (l : Nat) => decide (l / 32 = n) && cfg.getLsbD (8 + lunTarget l)
  if fld cfg 8 8 = 0 then s
  else
    let answered := luns.filter (fun x => decide (x.1 < 512) && enabled x.1)
    let good := (answered.filter (fun x => s.lunMatches x.1 x.2)).map (·.1)
    let known := (s.mm.sets.flatMap (fun p => p.2.members)).filter enabled
    let s := s.probeChan n ((List.range 8).filter (fun t => cfg.getLsbD (8 + t))) ((answered.map (·.1) ++ known).eraseDups)
    let s := good.foldl (fun s l => { s with fc := { s.fc with luns := s.fc.luns.mod l Lun.absent (fun u => { u with present := true }) } }) s
    let s := (known.filter (fun l => !good.contains l)).foldl (fun s l => s.report 0x18 0 kindLun l 0) s
    let fails := countP (fun k => decide (k = n)) failed
    let s := s.trainChan n (fld cfg 0 2) (fld cfg 16 16) fails
    if 2 ≤ fails then s.report 0x1B 0 kindChan n 0
    else
      let rate := if fails = 1 then fld cfg 16 16 / 2 else fld cfg 16 16
      let s := s.updChan n (fun c => { c with
        ready := true, wpHigh := true, iface := fld cfg 0 2, rate := rate, derated := decide (fails = 1)
        targets := sumBy (fun t => bitN (good.any (fun l => decide (lunTarget l = t))) t) (List.range 8) })
      if fails = 1 then s.postEventAll mmBlock 0x0034 n (BitVec.ofNat 64 rate) else s

/-- The checkpoint areas can be read: a row with parity on stripe set 0, which gives its content while at most one member is missing or
fenced (R261, R379). -/
def State.areasRead (s : State) : Bool := decide (countP (fun l => !(s.lun l).present || s.lunFenced l) s.areaLuns ≤ 1)

/-! ## Load (R445, R448) -/

/-- The booted image is copied to the other NOR where that one selects another (R445). -/
def State.copyImage (s : State) : State :=
  let other := if s.top.bootNor then 0 else 1
  let cur := s.top.nor.find other
  let same := match cur with | some (_, _, img) => decide (img = s.top.image) | none => false
  if same then s
  else
    let area := match cur with | some (_, a, _) => !a | none => false
    let gen := match cur with | some (g, _, _) => g + 1 | none => 1
    let s := { s with top := { s.top with nor := s.top.nor.put other (gen, area, s.top.image) } }
    s.drive (.norImage other area gen s.top.image)

/-- The microcode stands in every fetch cache, and the array is reset. -/
def State.loadMicrocode (s : State) : State :=
  let s := s.noteVerify kindMicrocode 0 0xFFFF
  let put := fun (s : State) (c : Nat) => s.updCluster c (fun k => { k with
    ucode := true, ucodeBuild := s.top.image.build, ucodeMinor := s.top.image.minor, build := s.top.image.build, minor := s.top.image.minor })
  (List.range 16).foldl put s

/-- The image's microcode and binding table are loaded, and the Yard is cleared. -/
def State.loadImage (s : State) : State := ({ s.loadMicrocode with yard := Yard.reset }).bindTable s.top.image.config

/-- The rest of the Load: the flash bring-up, the sources collected so far, the copy of the image, and the Quench programs. -/
def State.finishLoad (s : State) (luns : List (Nat × List Byte)) (failed : List Nat) : State :=
  ((((List.range 16).foldl (State.bringUp luns failed) s).collectAll.copyImage).loadMovers true).setArmed

/-- The mode that follows Load. -/
def State.afterLoad (s : State) : Mode := if s.mm.current.isSome && s.areasRead then .rebuild else .provision

/-- LOAD_COMPLETE: the steps of R448 are done: the part enters Provision without media metadata, Rebuild with it. -/
def execLoadComplete (luns : List (Nat × List Byte)) (failed : List Nat) (s : State) : Answer :=
  if !(s.inMode [.load] && (List.range 16).all (fun c => (s.cluster c).ready)) then .next s
  else
    let u := s.loadImage
    match (if u.otp.locked then some u else u.writeRwl (rwlEntries s.top.image.config)) with
    | none => .fault .reservedValue
    | some v => let w := v.finishLoad luns failed; .next (w.setMode w.afterLoad)

/-! ## The loss report (R63, R64, R289, Tables 2.6, 2.7) -/

/-- The outcome of a Rebuild. -/
inductive Cause where
  | clean
  | unclean
  | nothing
  deriving DecidableEq, Repr

def Cause.code : Cause → Nat
  | .clean => 1 | .unclean => 2 | .nothing => 3

/-- The guard gap (R48, R287). -/
def guardGap : Nat := 2 ^ 20

/-- What Rebuild finds (R287, R484). -/
def State.rebuildCause (s : State) : Cause :=
  let sealed := match s.mm.sealed, s.mm.current with
    | some r, some ck => decide (r.ckpt = ck.gen) && decide (ck.quench < r.gen)
    | _, _ => false
  if sealed then .clean else if s.mm.landingEmpty then .nothing else .unclean

/-- A record that an unclean loss leaves: its page was fully programmed. `lost` names the records, by stream and number, whose pages
the media does not give back. -/
def survives (lost : List (Nat × Nat)) (st : Nat) (r : Rec) : Bool := r.durable || (r.seg.isSome && !lost.contains (st, r.seq))

/-- Type 0x04 entries of a stream, and its recovered content (R289). -/
def lostRanges (lost : List (Nat × Nat)) (mark : Option Nat) (id : Nat) (x : Stream) : List LossEntry :=
  let kept := x.recs.filter (survives lost id)
  let gone := (x.recs.filter (fun r => !survives lost id r)).map (fun r => r.seq)
  let top := kept.foldl (fun m r => max m (r.seq + 1)) x.old
  let ranges := fun (bound : Nat) => (runsOf (ascending (gone.filter (fun n => decide (n < bound))))).map (fun r => lostStream id r.1 r.2)
  match mark with
  | some m => ranges m
  | none => ranges top ++ [lostStream id top 0xFFFFFFFF]

/-- What an unclean loss leaves of a region: its media-durable units, where they lie (R62). -/
def Region.recovered (x : Region) : Tbl RUnit :=
  (x.durUnits.sel (fun _ v => !v.data.isEmpty)).all (fun u d => match x.units.find u with
    | some v => if v.order = d.order then v else d
    | none => d)

/-- Unclean loss: what was not fully programmed is gone, and the guard gap is applied (R48, R62, R287). -/
def State.dropLost (s : State) (lost : List (Nat × Nat)) : State :=
  let stream := fun (id : Nat) (x : Stream) => { x with
    recs := (x.recs.filter (survives lost id)).map (fun (r : Rec) => { r with durable := true }), reserved := [], next := x.next + guardGap }
  let s := { s with mm := { s.mm with
    streams := s.mm.streams.all stream, regions := s.mm.regions.all (fun _ r => { r with units := r.recovered, durUnits := r.recovered }) } }
  { s with lq := { s.lq with nextGroup := s.lq.nextGroup + guardGap }, psv := { s.psv with mc := s.psv.mc.put 3 (satAdd 32 (s.psv.mc.get 3 0) 1) } }

/-- The header of the report (Table 2.6). -/
def State.lossHeader (s : State) (c : Cause) (entries groups : Nat) : List Byte :=
  let t0 := match c with
    | .clean => (match s.mm.sealed with | some r => r.t0 | none => 0)
    | .unclean => (match s.mm.current with | some k => k.time | none => 0)
    | .nothing => s.psv.timeT0
  let off := if s.psv.lost then 2 ^ 64 - 1 else s.psv.offMs.getD (2 ^ 64 - 1)
  let bytes := match c with | .clean => (match s.mm.sealed with | some r => r.bytes | none => 0) | _ => 0
  leBytes 2 0xD2E7 ++ leBytes 1 1 ++ leBytes 1 c.code ++ leBytes 4 entries ++ leBytes 8 t0.toNat ++ leBytes 8 s.now ++ leBytes 8 off
    ++ leBytes 8 bytes ++ leBytes 4 groups ++ leBytes 4 (if c = .unclean then guardGap else 0) ++ leBytes 16 0

/-- The whole report. `m` is the manifest that Rebuild reads; `before` the state before lost records were dropped. A stream that holds records whose
programs have not posted has its entry of type 0x03, with a manifest or without (R64). -/
def State.lossReport (s before : State) (c : Cause) (m : Option Manifest) (lost : List (Nat × Nat)) : List Byte × List LossEntry :=
  let m := if c = .nothing then none else m
  let named := match m with | some m => m.streams | none => []
  let disc := match m with | some m => m.entries | none => []
  let tails := fun (id : Nat) (x : Stream) =>
    if c ≠ .nothing ∧ (named.contains id ∨ x.recs.any (fun r => !r.posted)) then [tailEntry id x] else []
  let gone := fun (id : Nat) => match c, before.stream id with
    | .unclean, some x => lostRanges lost (m.map (fun m => m.marks.get id 0)) id x
    | _, _ => []
  let es := disc ++ s.mm.streams.flatMap (fun p => tails p.1 p.2 ++ gone p.1)
  (s.lossHeader c es.length (match m with | some m => m.groups | none => 0), es)

/-! ## Entering Service (R242, R291, R385) -/

/-- The blank check of one erased fast-lane block: its first and last page are read; whether they are blank is free, and a block that is not is erased
(R242, log 2). -/
def State.blankCheck (s : State) (x : Nat × Nat) : State :=
  let s := (s.drive (.nandRead x.1 x.2 0)).drive (.nandRead x.1 x.2 (s.rowsPslc x.1 - 1))
  let (i, s) := s.takeFree
  if Config.freeNat i % 2 = 0 then s
  else ((s.updLun x.1 (fun u => { u with erased := u.erased.erase x.2 })).annealErase x.1 x.2 segKeys).2

/-- Every fast-lane block that the metadata records as erased. -/
def State.erasedBlocks (s : State) : List (Nat × Nat) := s.flLive.flatMap (fun l => (s.lun l).erased.map (fun b => (l, b)))

/-- Service, or Degraded with a unit fenced; the blank check of the entry runs within it, and the pins follow. -/
def State.enterService (s : State) : State :=
  let s := s.setMode (if s.anyFenced then .degraded else .service)
  let s := s.erasedBlocks.foldl State.blankCheck s
  ({ s with mm := { s.mm with flChecked := true } }).flEval.evalGuarantee

/-- Post an update event to every function that holds UPD (R365, Table 12.11). -/
def State.updateEvent (s : State) (code num info : Nat) : State :=
  (List.range 8).foldl (fun s fn => if s.holds (midOf fn) 1 0 10 then s.postEvent fn code num (BitVec.ofNat 64 info) else s) s

/-- The update is over: UPDATE_ENDED with its cause. -/
def State.endUpdate (s : State) (cause : Nat) : State :=
  ({ s with mgp := { s.mgp with upd := Update.none } } : State).updateEvent 0x0061 0xFFFF cause

/-- Steps 3 and 4 of a commit: a checkpoint in the new media format, and the rollback floor (R363). -/
def State.closeCommit (s : State) : State :=
  let u := s.mgp.upd
  let s := ({ s with mgp := { s.mgp with mediaFormat := u.format } } : State).writeCheckpoint false s.consumed
  if u.raise then s.raiseFloor (max s.rollbackFloor u.index) else s

/-- An update that the reset ended: one past its commit point is completed before Service (R363, R364). -/
def State.endUpdateAtReset (s : State) : State :=
  let u := s.mgp.upd
  if u.state ≠ 0 ∨ u.ended = 0 then s
  else if u.ended = 1 then s.closeCommit.endUpdate 1
  else s.endUpdate u.ended

/-- Insert segment `n` by age, the oldest first. -/
def State.insertAge (s : State) (n : Nat) : List Nat → List Nat
  | [] => [n]
  | m :: t =>
    let age := fun (k : Nat) => match s.mm.segs.find k with | some g => s.retAge g | none => 0
    if age m < age n then n :: m :: t else m :: s.insertAge n t

/-- The sweep reads the last programmed row of every member block of a segment (R290). -/
def State.sweepSeg (s : State) (x : Nat × Segment) : State :=
  x.2.blocks.foldl (fun s b => (s.drive (.nandRead b.1 b.2 (x.2.row - 1))).countReads b.1 b.2 1 x.1 false) s

/-- A number of a segment, or of a set of fast-lane blocks that wait for a fold. -/
def State.swept (s : State) (n : Nat) : Bool := s.mm.segs.has n || s.fc.luns.any (fun u => u.2.used.any (fun b => decide (b.2 = n)))

/-- Ages after an unknown off-time, and the verify sweep: the segments that it finds weak are relocated ahead of every other task of their rank, and the
rest in order of age (R251, R290). -/
def State.verifySweep (s : State) (weak : List Nat) : State :=
  let age := fld s.mm.retCfg 20 12 * dayNs
  let s := { s with mm := { s.mm with segs := s.mm.segs.all (fun _ g => { g with age := g.age + age }) } }
  let s := s.mm.segs.foldl State.sweepSeg s
  let task := fun (n : Nat) => Task.fresh 2 n 0 0
  let first := ((weak.filter s.swept).eraseDups).map task
  let rest := (((s.mm.segs.map (·.1)).filter (fun n => !weak.contains n)).foldl (fun l n => s.insertAge n l) []).map task
  let known := s.mm.tasks.filter (fun t => !first.contains t)
  { s with mm := { s.mm with tasks := first ++ known ++ rest.filter (fun t => !known.contains t) } }

/-- Quench content waits for its fold (Table 8.5, rank 3). -/
def State.queueFolds (s : State) : State :=
  let blocks := s.fc.luns.flatMap (fun u => (u.2.used.filter (fun b => decide (b.2 = s.mm.quenchSet) && decide (segKeys ≤ b.2))).map (fun b => (u.1, b.1)))
  blocks.foldl (fun s b => s.queueTask (Task.fresh 3 s.mm.quenchSet b.1 b.2)) s

/-- Open fast-lane blocks are closed and wait for a fold. -/
def State.closeFlRows (s : State) : State :=
  let s := s.mm.flRows.foldl (fun s p => p.2.blocks.foldl (fun s b => s.updLun b.1 (fun u => { u with used := u.used ++ [(b.2, p.2.seg)] })) s) s
  { s with mm := { s.mm with flRows := [] } }

/-- What an unclean loss and an unknown off-time cost (R48, R62, R251, R287, R290). -/
def State.takeLoss (s : State) (lost : List (Nat × Nat)) (weak : List Nat) : State :=
  let s := if s.rebuildCause = .unclean then s.dropLost lost else s
  if s.psv.lost then s.verifySweep weak else s

/-- The report is kept, the manifest is used up, and every record counts as posted; `before` is the state that Rebuild found (R63, R64, R289). -/
def State.noteLoss (s before : State) (lost : List (Nat × Nat)) (manifest : Bool) : State :=
  let c := before.rebuildCause
  let m := if c = .clean ∨ manifest then s.mm.manifest else none
  let posted := fun (_ : Nat) (x : Stream) => { x with recs := x.recs.map (fun (r : Rec) => { r with posted := true }) }
  { s with
    mm := { s.mm with loss := some (s.lossReport before c m lost), streams := s.mm.streams.all posted, manifest := none }
    lq := { s.lq with lastSealed := decide (c = .clean) }, fcs := { s.fcs with react := s.mm.reactions } }

/-- Fast-lane blocks wait for their folds, the checkpoint is written, and the locked registers take their record (R261, R288, R446). -/
def State.closeRebuild (s : State) (gen : Nat) : State :=
  let s := (s.closeFlRows.queueFolds).writeCheckpoint true gen
  if s.otp.locked then (s.writeRwl s.tru.lockedRec).getD s else s

/-- The Quench generation that the checkpoint of a Rebuild has consumed (R288). -/
def State.usedGen (s : State) : Nat :=
  if s.rebuildCause = .clean then (match s.mm.sealed with | some r => r.gen | none => 0) else s.consumed

/-- REBUILD_COMPLETE: the metadata is restored, the loss report and a checkpoint are written, and the part enters Service or Degraded
(R287 to R291). `manifest` says that the manifest of a failed Quench can be read, `weak` names the segments the verify sweep finds. -/
def execRebuildComplete (lost : List (Nat × Nat)) (manifest : Bool) (weak : List Nat) (s : State) : Answer :=
  occurs s (s.inMode [.rebuild]) (fun s =>
    (((s.takeLoss lost weak).noteLoss s lost manifest).closeRebuild s.usedGen).endUpdateAtReset.enterService)

end Sys2Proof.Machine
end

