-- ==== Sys2Proof/Machine/Resets.lean ====
section
/-! DEFINITION. Function and port resets (R323, R352, R452, R454, R456): FLR and PORT_RESET, and the debug halt of the Management
Processor (R436). -/
namespace Sys2Proof.Machine

/-! ## The function reset (R454) -/

/-- Programs of a function, those in POSTWAIT included, end without a completion: their queues are gone (R130). -/
def State.endPrograms (s : State) (fn : Nat) : State :=
  (s.engsWith (fun p => decide (p.fn = fn))).foldl (fun s e => (s.endAtLast e Ending.abortedReset).freeEngine e) s

/-- The I/O queues of a function are deleted, with every completion they hold; its admin pair returns to its reset values (R188, R454). -/
def State.deleteQueues (s : State) (fn : Nat) : State :=
  { s with qe := { s.qe with
    sqs := s.qe.sqs.sel (fun _ q => decide (q.fn ≠ fn)), cqs := s.qe.cqs.sel (fun _ q => decide (q.fn ≠ fn)), aqs := s.qe.aqs.del fn } }

/-- Its commands not past their commit point are abandoned, and the replies of the others are dropped (R352). -/
def State.abandonCommands (s : State) (fn : Nat) : State :=
  let mine := s.mgp.staged.filter (fun p => decide (p.fn = fn))
  let s := mine.foldl (fun s p => if p.committed then s else s.undoCmd p) s
  let stays := fun (p : Packet) => decide (p.fn ≠ fn) || (p.committed && p.works)
  { s with
    mgp := { s.mgp with staged := (s.mgp.staged.filter stays).map (fun p => if p.fn = fn then { p with mute := true } else p) }
    sch := { s.sch with swapReplies := s.sch.swapReplies.filter (fun r => decide (r.1 ≠ fn)) } }

/-- Its windows return to their reset values (R454). -/
def State.resetWindows (s : State) (mid : Nat) : State :=
  { s with
    mm := { s.mm with win := s.mm.win.del mid }, sch := { s.sch with win := s.sch.win.del mid }
    eng := { s.eng with crewSel := s.eng.crewSel.del mid } }

/-- The reset of function `fn`. Crews, streams, regions, stored programs, Cell Pool queues, timers and access rules are kept. -/
def State.resetFunction (s : State) (fn : Nat) : State :=
  let mid := midOf fn
  let s := (s.abandonCommands fn).deleteQueues fn
  let s := s.endPrograms fn
  let s := s.endProps (fun p => decide (p.mid = mid)) 6 0x3F
  let s := s.mbxReset (fun x => decide (x.kind = kindHost) && decide (x.mid = mid))
  let s := (s.dropLines (fun l => decide (l.fn = fn))).resetWindows mid
  (s.updHfn fn (fun _ => Fn.reset)).evalGuarantee

/-- A function reset that arrives: it acts at the function's REINTEGRATE while the function is fenced (R382), and has nothing to act on
in Quench and Hold (R456). -/
def State.functionReset (s : State) (fn : Nat) : State :=
  if !s.powered || s.inMode [.quench, .hold] then s
  else if s.fcs.fencedFns.contains fn then s.updHfn fn (fun f => { f with resetting := true })
  else s.resetFunction fn

/-- FLR: Initiate FLR on one function. -/
def execFlr (fn : Nat) (s : State) : Answer := occurs s (decide (fn < 8)) (fun s => s.functionReset fn)

/-- PORT_RESET: PERSTn low, hot reset or link disable: the port and its four functions are reset (R323, R452). -/
def execPortReset (port : Nat) (s : State) : Answer :=
  occurs s (decide (port < 2) && s.powered) (fun s =>
    let s := s.updHport port (fun p => { HPort.reset with linkCfg := p.linkCfg, perst := true })
    (List.range 4).foldl (fun s k => s.functionReset (4 * port + k)) s)

/-! ## Debug halt (R151, R417, R436) -/

/-- DEBUG_HALT: a debugger at the full level halts the Management Processor; timers without DBG_RUN freeze, and a debug-halt order goes
to every cluster. -/
def execDebugHalt (s : State) : Answer :=
  occurs s (decide (s.tru.debugLevel = 2) && s.powered && !s.mgp.halted) (fun s =>
    let s := { s with mgp := { s.mgp with halted := true }, tmr := { s.tmr with haltAt := some s.tick } }
    s.sendOrder .debugHalt 0xFFFF)

/-- DEBUG_HALT_END: the halt ends: every frozen timer's compare value moves by the length of the halt, and the clusters go on. -/
def execDebugHaltEnd (s : State) : Answer :=
  match s.tmr.haltAt with
  | none => .next s
  | some t =>
    let s := { s with mgp := { s.mgp with halted := false }, tmr := { s.tmr with haltAt := none } }
    let s := s.tmrUnfreeze (s.sinceNs t)
    let go := fun (_ : Nat) (c : Cluster) => { c with stop := false, orders := c.orders.filter (fun o => !decide (o = Order.debugHalt)) }
    .next { s with eng := { s.eng with
      clusters := s.eng.clusters.all go, bcast := s.eng.bcast.filter (fun b => !decide (b.order = Order.debugHalt)) } }

end Sys2Proof.Machine
end

