-- ==== Sys2Proof/Machine/Views.lean ====
section
/-! DEFINITION. What a read of a register returns (R6 to R9, R457 to R460, Table 17.5), and what it latches. The table has no row for a plain
read: it is an operation of the model that no command performs (log 21); the reads of CPL_POP and MBX_W_RX have rows of their own. -/
namespace Sys2Proof.Machine

def w32 (n : Nat) : W32 := BitVec.ofNat 32 n

/-- A 64-bit value in its LO or HI half. -/
def half (x : W64) (hi : Bool) : W32 := if hi then x.extractLsb' 32 32 else x.extractLsb' 0 32

/-- A 16-bit mask or a bit map of the numbers that meet `p`. -/
def bitMap (n : Nat) (p : Nat → Bool) : Nat := sumBy (fun k => bitN (p k) k) (List.range n)

/-- What the packet command `opc` with `p` of its bytes is doing: it has started. -/
def State.runs (s : State) (opc : Nat) (p : List Byte → Bool) : Bool :=
  s.mgp.staged.any (fun k => k.started && decide (leAt k.eff 0 2 = opc) && p k.eff)

/-! ## TOP (Tables 16.7 to 16.11) -/

/-- The Scheduler and the flash have come out of reset: before that the readiness registers read their reset values. -/
def State.alive (s : State) : Bool := !s.inMode [.off, .backup, .boot]

def State.topStatus (s : State) : W32 :=
  w32 (bitN s.guaranteeReady 0 + bitN s.mm.characterised 1 + bitN s.otp.locked 2 + bitN s.top.bootFail 3 + bitN s.top.bootNor 4
    + bitN s.top.bootArea 5 + bitN s.mm.flReady 8 + bitN s.c0Covered 9 + bitN s.modeOk 10 + bitN (s.alive && s.slotsOk) 11)

/-- TOP_NAND_GATE (R450). -/
def State.nandGates (s : State) : Nat :=
  if s.alive then bitMap 16 (fun n => (s.chan n).fenced || decide (fld (s.chan n).cfg 8 8 = 0)) else 0

def State.viewTop (s : State) (o : Nat) : W32 :=
  match o with
  | 0x00 => 0x115200B0
  | 0x04 => w32 (s.top.mode.code + s.top.prev * 16 + s.top.changes * 2 ^ 16)
  | 0x08 => s.topStatus
  | 0x0C => w32 s.top.cause
  | 0x10 => half s.top.modeTime false
  | 0x14 => half s.top.modeTime true
  | 0x18 => w32 (bitN s.top.rootLock 0 + s.top.plls % 8 * 2 + s.top.clkFaults * 2 ^ 8)
  | 0x1C => w32 s.mgp.fwVersion
  | 0x20 => w32 (bitN s.mgp.running 0 + bitN s.mgp.lowPower 1 + bitN s.mgp.restartAt.isSome 2 + bitN (s.mgp.bootRom && s.inMode [.boot]) 3
      + s.mgp.restarts * 2 ^ 8)
  | 0x24 => w32 s.top.bootInfo
  | 0x28 => w32 s.nandGates
  | _ => 0

/-! ## HPC (Table 11.12) -/

def State.viewHpc (s : State) (o : Nat) : W32 :=
  let p := o / 0x8000
  let w := o % 0x8000
  let h := s.hport p
  if 2 ≤ p then 0
  else if w = 0 then w32 (h.gen + h.width * 16 + bitN h.dlUp 10 + bitN (h.dlUp && Config.linkL1 p s.tick) 11)
  else if w = 4 then h.linkCfg
  else if w = 8 then w32 (Config.cplTimeouts p s.tick)
  else if w = 0xC then w32 (Config.npRequests p s.tick % 1024)
  else if 0x100 ≤ w ∧ w < 0x140 ∧ w % 0x10 = 0 then
    let fn := 4 * p + (w - 0x100) / 0x10
    let f := s.hfn fn
    w32 (bitN f.resetting 0 + bitN (s.fcs.fencedFns.contains fn) 1 + bitN f.bme 2 + bitN f.msixEn 3)
  else 0

/-! ## QE (Tables 6.13 to 6.18) -/

/-- Live programs of a submission queue, POSTWAIT included. -/
def State.sqPrograms (s : State) (n : Nat) : List Nat := s.engsWith (fun p => decide (p.sqid = n))

/-- A completion of the queue waits for its ring. -/
def State.sqUnposted (s : State) (n : Nat) (q : Sq) : Bool :=
  match s.cq q.cqid with
  | some c => (c.ready ++ c.held).any (fun w => decide (w.cqe.sqid = BitVec.ofNat 16 n))
  | none => false

/-- QE_SQ_STATUSn.IDLE (R191). -/
def State.sqIdle (s : State) (n : Nat) (q : Sq) : Bool :=
  !q.en && q.ownWait.isNone && q.staged.isEmpty && q.halted.isEmpty && (s.sqPrograms n).isEmpty && !s.sqUnposted n q

/-- QE_AQ_CTRL.IDLE: EN 0 and no command or reply outstanding (R191). -/
def State.aqIdle (s : State) (fn : Nat) : Bool :=
  let a := s.aq fn
  !a.en && a.replies.isEmpty && a.ownWait.isNone && s.mgp.staged.all (fun p => decide (p.fn ≠ fn))

def State.viewAq (s : State) (fn o : Nat) : W32 :=
  let a := s.aq fn
  match o with
  | 0x00 => w32 (a.cqStallUs + a.ownWaitUs * 2 ^ 16)
  | 0x04 => w32 (bitN a.en 0 + bitN a.rdy 1 + bitN (s.aqIdle fn) 2 + bitN a.dbErr 8 + bitN a.ownErr 9 + bitN a.rdErr 10)
  | 0x08 => w32 (a.sqDepth + a.cqDepth * 2 ^ 16)
  | 0x0C => w32 (a.sqHead + a.cqTail * 2 ^ 16)
  | 0x10 => half a.sqBase false
  | 0x14 => half a.sqBase true
  | 0x18 => half a.cqBase false
  | 0x1C => half a.cqBase true
  | _ => 0

def State.viewSq (s : State) (n : Nat) (q : Sq) (w : Nat) : W32 :=
  match w with
  | 0x00 => w32 (bitN q.en 0 + bitN q.spec 1 + bitN (s.halting n q) 2)
  | 0x04 => w32 (1 + bitN (s.sqIdle n q) 1 + bitN q.crew.isSome 2 + bitN q.ownWait.isSome 3 + bitN (s.qeHolds n) 4 + bitN q.dbErr 8
      + bitN q.ownErr 9 + bitN q.rdErr 10 + min 7 (q.staged.length + q.halted.length) * 2 ^ 16)
  | 0x08 => w32 (q.head + q.tail * 2 ^ 16)
  | 0x0C => w32 (q.cqid + bitN q.c0 11 + bitN q.v1 12 + q.noticesMax * 2 ^ 16 + midOf q.fn * 2 ^ 24)
  | 0x10 => w32 q.depth
  | 0x14 => half q.base false
  | 0x18 => half q.base true
  | _ => 0

def State.viewCq (s : State) (m : Nat) (q : Cq) (w : Nat) : W32 :=
  match w with
  | 0x00 => w32 (bitN q.ivEn 0 + q.icount * 2 ^ 8 + q.itimeUs * 2 ^ 16)
  | 0x04 => w32 (1 + bitN (decide ((q.tail + 1) % q.depth = q.head)) 1 + bitN q.stalled 2
      + bitN (s.qe.sqs.any (fun x => decide (x.2.cqid = m) && x.2.c0)) 3 + bitN q.dbErr 8 + bitN q.c0Over 9
      + min 255 (q.ready.length + q.held.length) * 2 ^ 16)
  | 0x08 => w32 (q.head + q.tail * 2 ^ 16)
  | 0x0C => w32 (q.vector + midOf q.fn * 2 ^ 8)
  | 0x10 => w32 q.depth
  | 0x14 => half q.base false
  | 0x18 => half q.base true
  | 0x1C => w32 q.stalls
  | _ => 0

/-- The QE block as `mid` reads it: its own page and its own queues. -/
def State.viewQe (s : State) (mid o : Nat) : W32 :=
  if o = 0x1000 then w32 (s.qe.sqs.length + s.qe.cqs.length * 2 ^ 16)
  else match fnOf mid with
    -- An identity that is no function has a page of its own, which nothing writes (R459).
    | none => if o < 0x1000 then s.viewAq mid o else 0
    | some fn =>
      if o < 0x1000 then s.viewAq fn o
      else if 0x20000 ≤ o ∧ o < 0x40000 then
        (match s.sq ((o - 0x20000) / 0x20) with
        | some q => if q.fn = fn then s.viewSq ((o - 0x20000) / 0x20) q (o % 0x20) else 0
        | none => 0)
      else if 0x40000 ≤ o ∧ o < 0x50000 then
        (match s.cq ((o - 0x40000) / 0x20) with
        | some q => if q.fn = fn then s.viewCq ((o - 0x40000) / 0x20) q (o % 0x20) else 0
        | none => 0)
      else 0

/-! ## ENG and PFU (Tables 5.7 to 5.11) -/

/-- Unfenced engines of a cluster that hold no seat. -/
def State.spares (s : State) (c : Nat) : Nat := countP (fun e => !(s.engine e).seated && !(s.engine e).fenced) (clusterEngines c)

def State.viewCluster (s : State) (c w : Nat) : W32 :=
  let k := s.cluster c
  let fencedIn := fun (lo n : Nat) => bitMap n (fun i => (s.engine (c * engPerCluster + lo + i)).fenced)
  match w with
  | 0x00 => w32 (bitN k.ready 0 + bitN k.gated 1 + bitN k.waking.isSome 2 + bitN k.fenced 3 + k.seats * 2 ^ 8
      + (if k.ready then s.spares c else 0) * 2 ^ 16 + bitN (k.ready && (s.testedSpare c).isNone) 20)
  | 0x04 => w32 (bitN k.gateEn 0 + k.gateIdleUs * 2 ^ 8)
  | 0x08 => w32 (k.minor + k.build * 2 ^ 16)
  | 0x0C => w32 (k.bistSlot + k.passedOver * 2 ^ 8 + k.sweeps * 2 ^ 16)
  | 0x10 => w32 (fencedIn 0 32)
  | 0x14 => w32 (fencedIn 32 32)
  | 0x18 => w32 (fencedIn 64 8)
  | 0x1C => w32 k.gateCount
  | _ => 0

/-- The fields of a state record at record offset `w`. -/
def Snap.word (x : Snap) (w : Nat) : W32 :=
  match w with
  | 0x00 => x.state
  | 0x04 => x.tag
  | 0x08 => half x.pc false
  | 0x0C => half x.pc true
  | 0x10 => x.steps
  | 0x14 => x.flags
  | _ => 0

/-- The crew window of an identity. -/
def State.viewCrew (s : State) (mid w : Nat) : W32 :=
  let n := s.eng.crewSel.get mid 0
  match w, s.crew n with
  | 0xE010, _ => w32 n
  | 0xE014, some k => w32 (1 + k.cls * 2 + bitN k.shared 3 + k.minMinor * 16 + k.seats * 2 ^ 8 + k.stepUs * 2 ^ 16)
  | 0xE018, some k => w32 (k.mask.toNat + k.pinned.toNat * 2 ^ 16)
  | 0xE01C, some _ => w32 ((s.engsWith (fun p => decide (p.crew = n))).length + (s.qe.sqs.keys (fun _ q => decide (q.crew = some n))).length * 2 ^ 16)
  | _, _ => 0

def State.viewEng (s : State) (mid o : Nat) : W32 :=
  let c := o / 0x10000
  let w := o % 0x10000
  if w < 0x1000 then s.viewCluster c w
  else if w < 0x2200 then
    let g := s.engine (c * engPerCluster + (w - 0x1000) / 0x40)
    if w % 0x40 < 0x20 then g.record.word (w % 0x40) else g.snap.word (w % 0x40 - 0x20)
  else if w = 0xE000 then
    w32 (bitN (decide (s.tick < s.eng.snapBusy)) 0 + bitN (s.eng.clusters.any (fun k => k.2.resetAt.isSome)) 1
      + bitMap 16 (fun c => (s.cluster c).ready) * 2 ^ 16)
  else if w = 0xE008 then half s.eng.snapTime false
  else if w = 0xE00C then half s.eng.snapTime true
  else if 0xE010 ≤ w ∧ w ≤ 0xE01C then s.viewCrew mid w
  else if 0xF000 ≤ w then
    let b := s.bar ((w - 0xF000) / 0x10)
    match w % 0x10 with
    | 0 => w32 (b.count + b.owner * 2 ^ 16 + bitN b.enable 31)
    | 4 => w32 b.mask.toNat
    | 8 => w32 (b.gen + b.arrived * 2 ^ 16)
    | _ => 0
  else 0

def State.viewPfu (s : State) (o : Nat) : W32 :=
  let k := s.cluster (o / 0x10000)
  match o % 0x10000 with
  | 0x00 => w32 k.prefetch
  | 0x04 => w32 k.hits
  | 0x08 => w32 k.misses
  | 0x0C => w32 k.lines.length
  | 0x10 => w32 (countP (fun l => l.pinned) k.lines)
  | 0x14 => w32 k.v1Words
  | 0x18 => w32 (bitN k.ucode 0 + k.ucodeBuild * 2 ^ 16)
  | _ => 0

/-! ## MV (Tables 10.2, 10.9, 10.10, 10.13) -/

/-- The 32 bytes of a descriptor (Table 10.2). -/
def Desc.image (d : Desc) : List Byte :=
  leBytes 8 d.src.toNat ++ leBytes 8 d.dst.toNat ++ leBytes 3 d.length ++ leBytes 1 (d.srcSpace + d.dstSpace * 16)
    ++ leBytes 1 (bitN d.wb 0 + bitN d.paced 1 + bitN d.codec 2 + bitN d.fixSrc 3 + bitN d.fixDst 4) ++ leBytes 1 d.cls ++ leBytes 1 d.mid
    ++ [0] ++ leBytes 2 d.requester ++ leBytes 2 d.burst ++ leBytes 4 d.token.toNat

def ChState.code : ChState → Nat
  | .idle => 0 | .ready => 1 | .running => 2 | .waitReq => 3 | .preempted => 4 | .barrier => 5

def MvCh.word (x : MvCh) (w : Nat) : W32 :=
  let desc := fun (d : Option Desc) (k : Nat) => match d with | some d => w32 (leAt d.image k 4) | none => 0
  if w = 0 then
    w32 (x.st.code + bitN x.shadow.isSome 3 + x.lastStatus * 16 + x.line * 2 ^ 8 + bitN x.bound 12 + min 15 x.pending * 2 ^ 16 + bitN x.reqOvr 20)
  else if w = 4 then w32 x.drops
  else if 0x20 ≤ w ∧ w < 0x40 then desc x.active (w - 0x20)
  else if 0x40 ≤ w ∧ w < 0x60 then desc x.shadow (w - 0x40)
  else 0

def State.viewMv (s : State) (mid o : Nat) : W32 :=
  let m := o / 0x2000
  let w := o % 0x2000
  let x := s.mover m
  if o = 0x80000 then s.mv.cfg
  else if o = 0x80004 then w32 (bitMap 32 (fun k => (s.mover k).fenced))
  else if o = 0x80008 then w32 (bitMap 32 (fun k => (s.mover (32 + k)).fenced))
  else if 64 ≤ m then 0
  else if w = 0 then
    w32 (bitN x.prgMode 0 + bitN x.prgRun 1 + bitN x.prgDone 2 + bitN x.fenced 3 + x.activeCh.getD 0 * 16 + bitN x.activeCh.isSome 8
      + bitN x.preemptCh.isSome 9 + x.prgEnd * 2 ^ 16 + bitN x.prgFault 24 + x.waitOut * 2 ^ 25)
  else if w = 4 then w32 x.pc
  else if w = 8 then w32 x.preempts
  else if w = 0x10 then half x.bytes false
  else if w = 0x14 then half x.bytes true
  else if 0x100 ≤ w ∧ w < 0x900 then (s.mvCh m ((w - 0x100) / 0x80)).word ((w - 0x100) % 0x80)
  else if 0xA00 ≤ w ∧ w < 0xA40 then half (x.a.get ((w - 0xA00) / 8) 0) (decide (w % 8 = 4))
  else if 0xA40 ≤ w ∧ w < 0xA50 then x.k.get ((w - 0xA40) / 4) 0
  else if 0x1000 ≤ w ∧ mid = 0x10 then w32 (leNat (x.ram.readN (w - 0x1000) 4))
  else 0

/-! ## SCH (Tables 7.13 to 7.19) -/

/-- Eight entries of a slot table (SCH_TBL_READ_DATA). -/
def State.tableGroup (s : State) : W32 :=
  let t := s.slotTable (fld s.sch.readSel 0 5)
  let bank := if s.sch.readSel.getLsbD 8 then t.bankB else t.bankA
  let first := fld s.sch.readSel 16 9
  w32 (sumBy (fun k => bank.get (first + k) (defaultOwner (first + k)) * 2 ^ (4 * k)) (List.range 8))

def State.conservative (s : State) : Bool := !s.mm.characterised || s.sch.loaded.isNone

def State.gapOk (s : State) (t : Nat) : Bool := s.alive && (decide (t = 17) || c0SlotsOk (s.slotTable t).owner)

/-- Remaining media operations of running class-1 programs (SCH_C1_DEMAND). -/
def State.c1Demand (s : State) : Nat :=
  sumBy (fun e => match s.prog e with | some p => p.opsLeft | none => 0) (s.engsWith (fun p => decide (p.cls = 1)))

def State.viewTally (s : State) (mid o : Nat) : W32 :=
  let x := s.sch.win.get mid TallyWin.zero
  match o with
  | 0x200 => x.sel
  | 0x204 => x.grants
  | 0x208 => x.waits
  | 0x20C => x.maxWait
  | 0x210 => x.credit
  | _ => 0

def State.viewSch (s : State) (mid o : Nat) : W32 :=
  let h := s.sch
  let t := (o % 0x80) / 4
  if 0x100 ≤ o ∧ o < 0x148 then
    let x := s.slotTable t
    w32 (bitN x.activeB 0 + bitN x.swapAt.isSome 1 + bitN x.patch.isSome 2 + bitN (s.gapOk t) 3 + x.frames * 2 ^ 16)
  else if 0x180 ≤ o ∧ o < 0x1C4 then w32 (s.slotTable t).overruns
  else if 0x200 ≤ o ∧ o < 0x214 then s.viewTally mid o
  else if 0x300 ≤ o ∧ o < 0x324 then w32 (bitMap 32 (fun k => h.starve.contains ((o - 0x300) * 8 + k)))
  else match o with
    | 0x00 => h.cfg
    | 0x04 => w32 (bitN s.lq.overLimit 0 + bitN s.conservative 1 + bitN (h.tables.any (fun x => x.2.swapAt.isSome)) 2 + bitN h.quenchHeld 3)
    | 0x10 => w32 (h.rate + h.burst * 2 ^ 8 + h.queues * 2 ^ 16)
    | 0x14 => w32 (bitN s.boundVoid 0 + bitN (s.alive && s.slotsOk) 1 + bitN h.overContract 8 + min 255 (s.unitsIn shortSpan) * 2 ^ 16)
    | 0x18 => w32 h.c0Over
    | 0x20 => half h.frameTime false
    | 0x24 => half h.frameTime true
    | 0x30 => h.lim0
    | 0x34 => h.lim1
    | 0x38 => h.lim2
    | 0x3C => w32 h.holdEvents
    | 0x40 => w32 h.restarts
    | 0x44 => w32 h.refused
    | 0x48 => w32 (s.c1Demand % 2 ^ 24)
    | 0x400 => h.readSel
    | 0x404 => s.tableGroup
    | _ => 0

/-! ## CPL (Tables 10.11 to 10.13) -/

def State.viewCpl (s : State) (mid o : Nat) : W32 :=
  let q := (o % 0x10000) / 0x10
  let x := s.cpq q
  let n := (o % 0x4000) / 4
  if o < 0x10000 then
    match o % 0x10 with
    | 0 => w32 (bitN x.en 0 + bitN x.pkt 1 + bitN x.noticeEn 2 + x.vector * 2 ^ 8 + x.func * 2 ^ 16)
    | 4 => w32 (bitN x.words.isEmpty 0 + bitN (x.en && s.cpFull q) 1 + bitN (x.pktOpen || x.discarding) 2 + bitN x.overrun 8
        + min x.words.length 0xFFFF * 2 ^ 16)
    | 8 => w32 x.cap
    | 0xC => w32 x.reserve
    | _ => 0
  else if o < 0x14000 then w32 (s.cpq n).drops
  else if o < 0x18000 then w32 (s.cpq n).notices
  else if o < 0x1C000 then w32 (s.cpq n).used
  else if 0x30000 ≤ o ∧ o < 0x38000 ∧ o % 8 = 4 then s.cpl.popHi.get (cpKey mid ((o - 0x30000) / 8)) 0
  else if o = 0x40000 then w32 (bitN (decide (s.cpl.free = 0)) 0 + bitN s.cpl.rsvErr 1 + s.cpl.free * 4)
  else if o = 0x40004 then w32 s.cpl.rsvTotal
  else 0

/-! ## FC, ECX, MM (Tables 8.10 to 8.16) -/

def LunOp.code : LunOp → Nat
  | .idle => 0 | .read _ => 1 | .program _ => 2 | .erase _ _ => 3 | .progSusp _ => 4 | .eraseSusp _ _ => 5

/-- FC_LUN_STATEx. -/
def Lun.word (u : Lun) : W32 :=
  w32 (bitN u.present 0 + bitN u.fenced 1 + bitN u.fastLane 2 + u.op.code * 8 + min 255 u.erased.length * 2 ^ 8 + min 255 u.repl.length * 2 ^ 16)

def State.viewFc (s : State) (o : Nat) : W32 :=
  let n := o / 0x10000
  let x := s.chan n
  let w := o % 0x10000
  if 0x100 ≤ w ∧ w < 0x180 then (s.lun (32 * n + (w - 0x100) / 4)).word
  else match w with
    | 0x00 => x.cfg
    | 0x04 => w32 (x.iface + bitN x.ready 2 + bitN x.derated 3 + bitN x.fenced 4 + x.targets * 2 ^ 8 + x.rate * 2 ^ 16)
    | 0x200 => w32 x.suspends
    | 0x204 => w32 x.progFails
    | 0x208 => w32 x.eraseFails
    | 0x20C => w32 x.c0Misses
    | _ => 0

def State.viewEcx (s : State) (o : Nat) : W32 :=
  match o with
  | 0x00 => s.fc.ecxCfg
  | 0x10 => half s.fc.corrected false
  | 0x14 => half s.fc.corrected true
  | 0x18 => w32 s.fc.retries
  | 0x1C => w32 s.fc.soft
  | 0x20 => w32 s.fc.xor
  | 0x24 => w32 s.fc.uncorr
  | _ => 0

/-- MM_FL_STATUS; with no fast-lane LUN it reads 0. -/
def State.flStatus (s : State) : W32 :=
  if s.flLive.isEmpty then 0
  else w32 (bitN s.mm.flReady 0 + bitN s.quenchOk 1 + bitN s.budgetOk 2 + s.minErased * 2 ^ 8 + s.flLive.length * 2 ^ 16)

/-- MM_FL_SIZE (R241). -/
def State.flSize (s : State) : W32 :=
  if s.flLive.isEmpty then 0
  else w32 (min 255 s.flQuench + min 255 s.flC0 * 2 ^ 8 + min 255 s.flNeed * 2 ^ 16 + min 255 s.flTarget * 2 ^ 24)

/-- MM_FL_BUDGET (R245): the worst budget in µs. -/
def State.flBudget (s : State) : W32 := w32 (min 0xFFFF (((s.flLive.map s.flBudgetNs).foldl max 0 + 999) / 1000))

/-- MM_LIFE. -/
def State.lifeWord (s : State) : W32 := w32 (min 0xFFFF s.lifeTenths + min 0xFFFF s.mm.retired.length * 2 ^ 16)

/-- MM_ANNEAL_STATUS. -/
def State.annealWord (s : State) : W32 :=
  w32 ((match s.mm.running with | some t => t.rank | none => 0) + bitN s.mm.annealPaused 8 + min 0xFFFF s.mm.tasks.length * 2 ^ 16)

def State.viewStream (s : State) (mid o : Nat) : W32 :=
  let x := s.mm.win.get mid StreamWin.zero
  let hi := decide (o % 8 = 4)
  if o = 0x8000 then w32 x.sel
  else if o = 0x8004 then x.state
  else if o < 0x8010 then half x.old hi
  else if o < 0x8018 then half x.dur hi
  else if o < 0x8020 then half x.acc hi
  else if o < 0x8028 then half x.next hi
  else if o < 0x8030 then half x.bytes hi
  else 0

def State.viewMm (s : State) (mid o : Nat) : W32 :=
  let m := s.mm
  if 0x8000 ≤ o then s.viewStream mid o
  else match o with
    | 0x00 => s.flStatus
    | 0x04 => m.flCfg
    | 0x08 => s.flSize
    | 0x0C => s.flBudget
    | 0x10 => m.retCfg
    | 0x14 => m.rdCfg
    | 0x18 => m.scrubCfg
    | 0x1C => m.wearCfg
    | 0x20 => m.rowCfg
    | 0x24 => m.ckptCfg
    | 0x28 => m.capCfg
    | 0x30 => half (BitVec.ofNat 64 s.capUsable) false
    | 0x34 => half (BitVec.ofNat 64 s.capUsable) true
    | 0x38 => half (BitVec.ofNat 64 m.ckptGen) false
    | 0x3C => half (BitVec.ofNat 64 m.ckptGen) true
    | 0x40 => s.lifeWord
    | 0x44 => s.annealWord
    | 0x48 => w32 m.retTOffset
    | _ => 0

/-! ## LQ (Tables 2.9 to 2.14, 9.11, 9.13) -/

/-- LQ_STATUS. -/
def State.lqStatus (s : State) : W32 :=
  let q := s.lq
  w32 (bitN q.limitValid 0 + bitN s.c0Covered 1 + bitN q.overLimit 2 + bitN (!(q.c0Queue.isEmpty && q.shQueue.isEmpty)) 3
    + bitN s.drainActive 4 + bitN q.limitDrop 8 + bitN q.energyRefused 9)

/-- T_q in µs for the bytes held now: 3 ms, and the bytes at 50 bytes per µs and fast-lane LUN (R41); 0 without a fast-lane LUN. -/
def State.quenchEstUs (s : State) : Nat :=
  let n := s.flLive.length
  if n = 0 then 0 else min 0xFFFF (3000 + ceilDiv s.lq.heldAll (50 * n))

def State.viewLq (s : State) (o : Nat) : W32 :=
  let q := s.lq
  match o with
  | 0x00 => s.lqStatus
  | 0x04 => w32 (q.limitMib + q.capMib * 2 ^ 8 + q.tAllowedUs * 2 ^ 16)
  | 0x08 => w32 q.reserve64k
  | 0x0C => w32 (q.heldC0 / 64)
  | 0x10 => w32 (q.heldShared / 64)
  | 0x18 => half q.accBytes false
  | 0x1C => half q.accBytes true
  | 0x20 => half q.durBytes false
  | 0x24 => half q.durBytes true
  | 0x28 => half (BitVec.ofNat 64 q.nextGroup) false
  | 0x2C => half (BitVec.ofNat 64 q.nextGroup) true
  | 0x30 => w32 q.discards
  | 0x34 => w32 q.waitMaxNs
  | 0x100 => w32 (bitN q.armed 0 + bitN q.rearm 1 + bitN q.lastSealed 2 + (if s.inMode [.quench, .hold] then q.quenchSet.length else s.flLive.length) * 2 ^ 8)
  | 0x104 => w32 s.quenchEstUs
  | 0x108 => half (BitVec.ofNat 64 q.quenchGen) false
  | 0x10C => half (BitVec.ofNat 64 q.quenchGen) true
  | 0x110 => w32 q.lastUs
  | 0x114 => w32 q.lastBytes
  | _ => 0

/-! ## PSV (Tables 9.8 to 9.13) -/

/-- TRIP_EFF_MV, which stands for nothing while the bank is not provisioned (R268, R274). -/
def State.tripWord (s : State) : Nat := if s.psv.provisioned then s.psv.tripEff else 0

def State.viewPsv (s : State) (o : Nat) : W32 :=
  let p := s.psv
  match o with
  | 0x00 => w32 (bitN p.provisioned 0 + bitN (decide (p.cPub ≠ 0)) 1 + bitN (match p.pulse with | some x => x.fitted.isNone | none => false) 2
      + bitN p.stale 3 + bitN (!p.pfailHigh) 4 + bitN (decide (p.vbankMv < p.readyMv)) 5 + bitN p.measFail 8 + bitN p.degraded 9)
  | 0x04 => w32 ((if p.provisioned then p.vbankMv % 2 ^ 16 else 0) + s.tripWord * 2 ^ 16)
  | 0x08 => p.cap
  | 0x0C => p.boardMw
  | 0x10 => p.bankCfg
  | 0x14 => p.capNom
  | 0x18 => p.bankTrip
  | 0x1C => p.capMeas
  | 0x20 => w32 (match p.lastOk with | some t => min 0xFFFF (s.sinceNs t / 3600000000000) | none => 0)
  | 0x24 => p.senseCfg
  | 0x28 => p.pfailCfg
  | 0x2C => p.pulseCfg
  | 0x30 => w32 p.quenchCause
  | 0x100 => w32 (bitN p.lost 0 + bitN (decide (Config.sensor 9 s.tick < 2000)) 1 + bitN p.xtalOk 2)
  | 0x104 => half (BitVec.ofNat 64 p.rtc) false
  | 0x108 => half (BitVec.ofNat 64 p.rtc) true
  | 0x10C => half (BitVec.ofNat 64 p.rtcT0) false
  | 0x110 => half (BitVec.ofNat 64 p.rtcT0) true
  | 0x140 => p.bkSel
  | 0x144 => if p.lost then 0 else w32 (leNat (p.bkram.readN (fld p.bkSel 0 6 * 4) 4))
  | _ => if 0x120 ≤ o ∧ o < 0x130 then w32 (p.mc.get ((o - 0x120) / 4) 0) else 0

/-! ## TMR and MBX (Tables 15.6 to 15.10) -/

def State.viewTimer (s : State) (t w : Nat) : W32 :=
  let x := s.timer t
  match w with
  | 0x00 => x.ctrl
  | 0x04 => w32 (bitN x.armed 0 + bitN (s.tmrFrozen t) 1 + bitN x.mtch 8 + bitN x.late 9 + x.missed * 2 ^ 16)
  | 0x08 => half x.cmp false
  | 0x0C => half x.cmp true
  | 0x10 => half x.int false
  | 0x14 => half x.int true
  | _ => 0

/-- The part is itself the grandmaster: a port is a master and none is a slave (R329, R432). -/
def State.grandmaster (s : State) : Bool :=
  (List.range 4).any (fun p => decide ((s.fport p).gptp = 2)) && !(List.range 4).any (fun p => decide ((s.fport p).gptp = 1))

/-- TMR_DISC_STATUS.STATE: free-run under 802.1AS while the part is the grandmaster (R432). -/
def State.discShown (s : State) : Nat := if s.tmr.discSrc = 1 ∧ s.grandmaster then 0 else s.tmr.disc

def State.viewTmr (s : State) (o : Nat) : W32 :=
  let t := s.tmr
  if 0x1000 ≤ o ∧ o < 0x1800 then s.viewTimer ((o - 0x1000) / 0x20) (o % 0x20)
  else if 0x2000 ≤ o ∧ o < 0x2100 then
    let c := s.capture ((o - 0x2000) / 0x10)
    match o % 0x10 with
    | 0 => half c.value false
    | 4 => half c.value true
    | 8 => w32 (c.seq + c.seqRead * 2 ^ 16)
    | _ => c.ctrl
  else match o with
    | 0x00 => half t.time false
    | 0x04 => half t.time true
    | 0x10 => t.discCfg
    | 0x14 => w32 (t.discSrc + t.discPort * 4 + s.discShown * 16)
    | 0x18 => half t.offset false
    | 0x1C => half t.offset true
    | 0x20 => BitVec.ofInt 32 t.ratePpb
    | 0x24 => w32 t.steps
    | 0x28 => t.capLost
    | _ => 0

def State.viewMbx (s : State) (o : Nat) : W32 :=
  if 0x1000 ≤ o ∧ o < 0x2000 then
    let c := s.mchan ((o - 0x1000) / 0x10)
    match o % 0x10 with
    | 0 => w32 (c.e0.mid + c.e0.kind * 2 ^ 6 + c.e1.mid * 2 ^ 8 + c.e1.kind * 2 ^ 14 + c.e0.cl * 2 ^ 16 + c.e1.cl * 2 ^ 20 + bitN c.compat 30 + bitN c.en 31)
    | 4 => w32 (c.q01.length + c.q10.length * 16 + bitN c.e0.aborted 8 + bitN c.e1.aborted 9 + c.cleared * 2 ^ 16)
    | 8 => w32 c.drops
    | _ => 0
  else match o with
    | 0 => s.mbx.cfg
    | 4 => w32 (bitN s.mbx.bindLocked 0 + bitN s.mbx.cfgErr 1 + countP (fun c => c.2.compat) s.mbx.chans * 2 ^ 16)
    | _ => 0

/-! ## TRU (Tables 14.10 to 14.12) -/

/-- TRU_STATUS.DEBUG. -/
def Tru.debugCode (t : Tru) : Nat := if t.debugLevel = 2 then 3 else if t.debugLevel = 1 then 2 else if t.challenge.isSome then 1 else 0

/-- A root slot as a bit of TRU_ROOT. -/
def State.rootBit (s : State) (k : Nat) (revoked : Bool) : Bool :=
  match s.otp.roots.find k with | some r => if revoked then r.revoked else r.programmed | none => false

def State.viewTru (s : State) (o : Nat) : W32 :=
  let t := s.tru
  if 0x100 ≤ o ∧ o < 0x180 then w32 (s.otp.vaultFloors.get ((o - 0x100) / 4) 0)
  else if 0x200 ≤ o ∧ o < 0x220 then
    (match t.challenge with | some c => w32 (leAt c.2.1 (o - 0x200) 4) | none => 0)
  else match o with
    | 0x00 => w32 (bitN s.otp.locked 0 + bitN (!t.group.isEmpty) 1 + bitN s.otp.secret 2 + bitN s.alive 3 + t.debugCode * 16 + bitN t.keysCleared 6
        + bitN (s.runs 0x0404 (fun b => decide (leAt b 8 1 = 5))) 7 + t.props.length * 2 ^ 8)
    | 0x04 => w32 (sumBy (fun k => match t.group[k]? with | some m => (m + 128) * 2 ^ (8 * k) | none => 0) (List.range 4))
    | 0x08 => w32 (bitMap 8 (fun k => s.rootBit k false) + bitMap 8 (fun k => s.rootBit k true) * 2 ^ 8)
    | 0x0C => w32 (s.otp.fuses + s.rollbackFloor * 2 ^ 8 + bitN (decide (s.otp.fuses < s.rollbackFloor)) 16)
    | 0x10 => w32 s.otp.secretGen
    | 0x14 => t.verifyLast
    | 0x18 => w32 t.rules.length
    | 0x1C => w32 t.propNext
    | 0x20 => w32 t.slots.length
    | _ => 0

/-! ## FCS (Tables 13.14 to 13.18) -/

/-- FCS_GUARANTEE. -/
def Fcs.guaranteeWord (f : Fcs) : W32 := w32 (f.guaranteeByte + bitN f.safeErr 8 + bitN f.iwdgExpired 9)

def State.viewFcs (s : State) (o : Nat) : W32 :=
  let f := s.fcs
  if 0x100 ≤ o ∧ o < 0x190 then w32 (bitMap 32 (fun b => f.engErr.contains ((o - 0x100) * 8 + b)))
  else if 0x200 ≤ o ∧ o < 0x290 then w32 (bitMap 32 (fun b => f.hbFail.contains ((o - 0x200) * 8 + b)))
  else if 0x400 ≤ o ∧ o < 0x800 then w32 (s.reactReg ((o - 0x400) / 4))
  else if 0x800 ≤ o ∧ o < 0xC00 then w32 (f.counts.get ((o - 0x800) / 4) 0)
  else match o with
    | 0x00 => w32 (bitN f.fault 0 + bitN f.window 1 + bitN f.safeState 2 + bitN f.mgpRestart.isSome 3 + f.windows * 2 ^ 8)
    | 0x08 => (match f.first with | some x => w32 (x.1 + x.2 * 2 ^ 16 + 2 ^ 24) | none => 0)
    | 0x0C => w32 (f.firstUnit.1 + f.firstUnit.2 * 2 ^ 16)
    | 0x10 => half f.firstTime false
    | 0x14 => half f.firstTime true
    | 0x18 => w32 (bitN f.ovf 0)
    | 0x20 => f.quiet
    | 0x24 => f.guaranteeWord
    | 0x28 => f.mgpWd
    | 0x2C => w32 f.c0Late
    | 0x30 => w32 (f.logSeq % logSize + f.overwritten * 2 ^ 16)
    | _ => 0

/-! ## FLD and LPC (Tables 11.11, 11.12) -/

def State.viewFld (s : State) (o : Nat) : W32 :=
  let x := s.fport (o / 0x10000)
  let w := o % 0x10000
  if 4 ≤ o / 0x10000 then 0
  else if 0x100 ≤ w ∧ w < 0x500 then x.rules.get ((w - 0x100) / 4) 0
  else if 0x1000 ≤ w ∧ w < 0x1400 then
    (match x.admin.entries[(w - 0x1000) / 4]? with | some e => w32 (e.1 + e.2 * 2 ^ 8) | none => 0)
  else match w with
    | 0x000 => x.cfg
    | 0x004 => w32 (bitN x.linkUp 0 + bitN (x.linkUp && Config.fecLock (o / 0x10000) s.tick) 1 + x.gptp * 4)
    | 0x008 => half x.mac false
    | 0x00C => half x.mac true
    | 0x800 => half x.admin.base false
    | 0x804 => half x.admin.base true
    | 0x808 => w32 x.admin.cycle
    | 0x80C => w32 (bitN x.committed.isSome 0 + min 255 x.oper.entries.length * 2 ^ 8)
    | 0x810 => half x.txTs false
    | 0x814 => half x.txTs true
    | 0x900 => w32 x.rxFrames
    | 0x904 => w32 x.fcsDrops
    | 0x908 => w32 x.noruleDrops
    | 0x90C => w32 x.cplDrops
    | 0x910 => w32 x.txFrames
    | _ => 0

def State.viewXt (s : State) (n w : Nat) : W32 :=
  let x := s.xt n
  match w with
  | 0x00 => x.cfg
  | 0x04 => s.xtStatus n
  | 0x08 => (match x.win with | some y => w32 (y.2.2 / 4096 + y.1 * 2 ^ 16) | none => 0)
  | 0x0C => x.wwin
  | 0x10 => x.stream
  | 0x14 => x.id
  | 0x18 => w32 x.records
  | 0x1C => w32 x.werr
  | _ => 0

def State.viewDreq (s : State) (n w : Nat) : W32 :=
  let d := s.dreq n
  match w with
  | 0x00 => d.cfg
  | 0x04 => half d.ring false
  | 0x08 => half d.ring true
  | 0x0C => d.size
  | 0x10 => d.off
  | _ => 0

def State.viewLpc (s : State) (o : Nat) : W32 :=
  let l := s.lpc
  if o < 0x800 then s.viewXt (o / 0x100) (o % 0x100)
  else if 0x1000 ≤ o ∧ o < 0x1200 then s.viewDreq ((o - 0x1000) / 0x20) (o % 0x20)
  else if 0x4000 ≤ o ∧ o < 0x4040 then l.capSrc.get ((o - 0x4000) / 4) 0
  else match o with
    | 0x800 => l.xhStatus
    | 0x2000 => l.gpioDir
    | 0x2004 => l.gpioOut
    | 0x2008 => l.gpioIn
    | 0x200C => l.gpioOd
    | 0x2010 => l.gpioIrqEn
    | 0x2014 => l.gpioStatus
    | 0x2018 => l.gpioCfg
    | 0x3000 => (s.uart 0).cfg
    | 0x3100 => (s.uart 1).cfg
    | 0x3400 => (s.i2c 0).cfg
    | 0x3500 => (s.i2c 1).cfg
    | 0x3800 => l.sbCfg
    | 0x4100 => l.ppsCfg
    | _ => 0

/-! ## BAR0 and BAR4 -/

/-- The register at a BAR0 offset, the access granted; an offset without a register reads 0 (R457). -/
def State.regView (s : State) (mid off : Nat) : W32 :=
  let o := off % 0x100000
  match off / 0x100000 with
  | 0 => s.viewTop o
  | 1 => s.viewHpc o
  | 2 => s.viewQe mid o
  | 3 => s.viewEng mid o
  | 4 => s.viewPfu o
  | 5 => s.viewMv mid o
  | 6 => s.viewSch mid o
  | 8 => s.viewCpl mid o
  | 9 => s.viewFc o
  | 10 => s.viewEcx o
  | 11 => if o < 0x80000 then s.viewMm mid o else s.viewLq (o - 0x80000)
  | 12 => if o < 0x80000 then s.viewPsv o else s.viewTmr (o - 0x80000)
  | 13 => if o < 0x80000 then s.viewTru o else s.viewMbx (o - 0x80000)
  | 14 => s.viewFcs o
  | 15 => if o < 0x80000 then s.viewFld o else s.viewLpc (o - 0x80000)
  | _ => 0

/-- What identity `mid` reads at a 4-byte aligned BAR0 offset; without the right it reads 0 (R458). -/
def State.readBar0 (s : State) (mid off : Nat) : W32 :=
  if s.mayRead mid (blockOf off) (decide (off / 0x1000 = 0x200)) && decide (off < 0x1000000) then s.regView mid off else 0

/-- Offsets of the LO registers of the 64-bit pairs that stand once in BAR0 (Table 17.5). -/
def pairLos : List Nat :=
  [0x10, 0x200010, 0x200018, 0x580004, 0x600020, 0xA00010, 0xB00030, 0xB00038, 0xB08008, 0xB08010, 0xB08018, 0xB08020, 0xB08028,
   0xB80018, 0xB80020, 0xB80028, 0xB80108, 0xC00104, 0xC0010C, 0xC80000, 0xC80018, 0xE00010]

/-- Whether a 64-bit register has its LO half at `off` (R6, Table 17.5). CPL_PUSH and CPL_POP have rows of their own. -/
def pairLo (off : Nat) : Bool :=
  let at32 := fun (ks : List Nat) (n : Nat) => ks.contains (off % n)
  if 0x220000 ≤ off ∧ off < 0x250000 then at32 [0x14] 0x20
  else if 0x300000 ≤ off ∧ off < 0x400000 then
    let w := off % 0x10000
    decide (w = 0xE008) || decide (0x1000 ≤ w ∧ w < 0x2200) && at32 [0x08, 0x28] 0x40
  else if 0x500000 ≤ off ∧ off < 0x580000 then
    let w := off % 0x2000
    decide (w = 0x10) || decide (0xA00 ≤ w ∧ w < 0xA40 ∧ w % 8 = 0)
  else if 0xC81000 ≤ off ∧ off < 0xC81800 then at32 [0x08, 0x10] 0x20
  else if 0xC82000 ≤ off ∧ off < 0xC82100 then at32 [0] 0x10
  else if 0xF00000 ≤ off ∧ off < 0xF40000 then at32 [0x008, 0x800, 0x810] 0x10000
  else if 0xF81000 ≤ off ∧ off < 0xF81200 then at32 [0x04] 0x20
  else pairLos.contains off

/-- A read of BAR0 by identity `mid`: a read of a LO half latches its HI half for the identity, a read of a HI half returns what it
latched last, and a read of TMR_CAPk_LO keeps SEQ (R6, R438, R460). A read without the right latches nothing (R458). What a HI half reads as to an
identity that has not read its LO half is not stated: 0, or what the identity latched there last (DESIGN CHOICE, log 107). -/
def State.hostRead (s : State) (mid off : Nat) : W32 × State :=
  if !s.mayRead mid (blockOf off) (decide (off / 0x1000 = 0x200)) then (0, s)
  else if pairLo off then
    let s' := { s with top := { s.top with hiLatch := s.top.hiLatch.put (halfKey mid off) (s.readBar0 mid (off + 4)) } }
    (s.readBar0 mid off,
      if 0xC82000 ≤ off ∧ off < 0xC82100 then s'.updCapture ((off - 0xC82000) / 0x10) (fun c => { c with seqRead := c.seq }) else s')
  else if 4 ≤ off ∧ pairLo (off - 4) then (s.top.hiLatch.get (halfKey mid (off - 4)) 0, s)
  else (s.readBar0 mid off, s)

/-- The mailbox window (Tables 15.2, 15.3); RX_LO is the row MBX_RX_READ. -/
def State.viewWindow (s : State) (mid off : Nat) : W32 :=
  let ch := off / 0x40
  let c := s.mchan ch
  match c.windowEnd mid with
  | none => 0
  | some i =>
    let m := c.side i
    match off % 0x40 with
    | 0x0C => s.mbx.rxHi.get (mbxKey mid ch) 0
    | 0x10 => s.mbx.rxSrc.get (mbxKey mid ch) 0
    | 0x14 => w32 ((c.outq i).length + (c.inq i).length * 16 + bitN (decide (mbxDepth ≤ (c.outq i).length)) 8 + bitN m.overrun 9 + bitN m.aborted 10
        + bitN m.timedOut 11 + bitN c.compat 16 + bitN c.en 17 + bitN i 18)
    | 0x18 => m.irq
    | _ => 0

/-- What a read of BAR2 gives: every doorbell reads as 0 (R161). -/
def State.readBar2 (_ : State) (_mid _off : Nat) : W32 := 0

/-- What a read of a function's configuration space gives (R319): identity values, Bus Master Enable, and the words that `State.regConfig` writes
under the model's own numbers; the offsets of the first ones are the PCI ones (PRESUMED, log 73). -/
def State.readConfig (s : State) (fn off : Nat) : W32 :=
  let f := s.hfn fn
  if off = 0 then 0x11521F6D
  else if off = 4 then w32 (bitN f.bme 2)
  else if off = 8 then 0x088000B0
  else if off = 0x11 then w32 (bitN f.msixEn 31 + bitN f.fmask 30)
  else if off = 0x2C then Config.subsystem
  else if off = 0x10001 then w32 (bitMap 32 (fun b => f.aer.contains b))
  else 0

/-- What a live host function reads in BAR4: the mailbox window, the MSI-X table and the pending bits (Table 11.2). -/
def State.readBar4 (s : State) (mid off : Nat) : W32 :=
  match s.liveFn mid with
  | none => 0
  | some fn =>
    let f := s.hfn fn
    if off < 0x4000 then s.viewWindow mid off
    else if off < 0x5000 then
      let v := f.vecs.get ((off - 0x4000) / 0x10) (0, 0, true)
      (match off % 0x10 with
      | 0 => half v.1 false
      | 4 => half v.1 true
      | 8 => v.2.1
      | _ => w32 (bitN v.2.2 0))
    else if off < 0x5020 then w32 (bitMap 32 (fun b => f.pba.contains ((off - 0x5000) * 8 + b)))
    else 0

end Sys2Proof.Machine
end

