-- ==== Sys2Proof/Machine/Command.lean ====
section
/-! DEFINITION. Command packets (chapter 12): the order in which the Management Processor takes them up, the checks every opcode shares,
replies, and the stages of background (L) commands (R348 to R354). Each row of the table that is a command packet is a `Cmd`. -/
namespace Sys2Proof.Machine

/-- A packet as its command reads it: the issuing function, its MID, the 64 bytes and the input data; and the packet that is answered,
which is another one where RATIFY runs the command: its function, place and TAG. -/
structure Req where
  fn : Nat
  mid : Nat
  pkt : List Byte
  data : List Byte
  dest : Nat
  no : Nat
  tag : Nat
  deriving DecidableEq, Repr

/-- Little-endian parameters at byte `i`. -/
def Req.b (r : Req) (i : Nat) : Nat := leAt r.pkt i 1
def Req.h (r : Req) (i : Nat) : Nat := leAt r.pkt i 2
def Req.w (r : Req) (i : Nat) : Nat := leAt r.pkt i 4
def Req.d (r : Req) (i : Nat) : Nat := leAt r.pkt i 8
def Req.opc (r : Req) : Nat := r.h 0
def Req.dry (r : Req) : Bool := (r.b 2).testBit 0
def Req.version (r : Req) : Nat := r.b 3
def Req.ptr (r : Req) : Nat := r.d 48
def Req.len (r : Req) : Nat := r.w 56

/-- How a command ends: with a reply, without one, or not yet (its work goes on). -/
inductive End where
  | reply
  | silent
  | wait
  deriving DecidableEq, Repr

/-- The outcome of a command's effect: the state, the status, result bytes 8 to 23 and output data. -/
structure Res where
  st : State
  status : BitVec 16
  body : List Byte
  out : List Byte
  fin : End
  deriving DecidableEq, Repr

/-- Success, with and without result bytes; a failure. -/
def Res.ok (s : State) : Res := { st := s, status := Status.success, body := [], out := [], fin := .reply }
def Res.result (s : State) (body : List Byte) : Res := { Res.ok s with body := body }
def Res.fail (s : State) (st : BitVec 16) : Res := { Res.ok s with status := st }

/-- The right column of the catalogue (R353). -/
inductive CmdRight where
  | any
  | bit (b : Nat)
  | key
  deriving DecidableEq, Repr

/-- CFG, MEDIA, UPD and DIAG (Table 14.2). OWN is held by every function. -/
def rightOwn : CmdRight := .any
def rightCfg : CmdRight := .bit 8
def rightMedia : CmdRight := .bit 9
def rightUpd : CmdRight := .bit 10
def rightDiag : CmdRight := .bit 11

/-- Whether a packet carries data, and which way it goes (R349). -/
inductive DataDir where
  | none
  | input
  | output
  deriving DecidableEq, Repr

/-- One row of the catalogue. -/
structure Cmd where
  opc : Nat
  /-- The packets of the opcode that the row takes. -/
  takes : Req → Bool := fun _ => true
  /-- Parameter bits in use, as (byte, mask); every other bit of bytes 8 to 47 is reserved. -/
  used : List (Nat × Nat) := []
  right : CmdRight := .any
  modes : List Mode
  data : DataDir := .none
  /-- Data bytes that the opcode requires. -/
  need : Req → Nat := fun _ => 0
  /-- Every field lies in its stated range. -/
  range : Req → Bool := fun _ => true
  /-- A field of the parameters or data holds a reserved value, whose effect is undefined (R11). -/
  undef : Req → Bool := fun _ => false
  /-- The command is protected in this case (R354). -/
  prot : State → Req → Bool := fun _ _ => false
  /-- Its own checks, in the catalogue's order. -/
  check : State → Req → Option (BitVec 16) := fun _ _ => none
  /-- An L command, and its limit in ms (R351). -/
  long : Bool := false
  limitMs : Req → Nat := fun _ => 10
  /-- A check that only its work can finish: a DRY_RUN does that work too. -/
  verifies : Bool := false
  /-- What the start of an L command does. -/
  begins : Req → State → State := fun _ s => s
  /-- The effect: `pass` and `result` are what the work of an L command found. -/
  apply : Req → Bool → List Byte → State → Res

/-- Bytes `lo` to `hi`, every bit in use. -/
def span (lo hi : Nat) : List (Nat × Nat) := (List.range (hi + 1 - lo)).map (fun k => (lo + k, 0xFF))

/-- Bits of byte `i` that the parameters of `u` use. -/
def maskOf (u : List (Nat × Nat)) (i : Nat) : Nat := u.foldl (fun m x => if x.1 = i then m ||| x.2 else m) 0

/-- A parameter bit that no parameter uses is set. -/
def Req.stray (r : Req) (u : List (Nat × Nat)) : Bool :=
  (List.range 40).any (fun k => (BitVec.ofNat 8 (r.b (8 + k)) &&& ~~~ BitVec.ofNat 8 (maskOf u (8 + k))) != 0)

/-- A malformed packet, whose effect is undefined (R11, R348): reserved bits, the event TAG, a misaligned or superfluous DATA_PTR. -/
def Cmd.malformed (c : Cmd) (r : Req) : Bool :=
  decide (2 ≤ r.b 2) || decide (leAt r.pkt 60 3 ≠ 0) || decide (2 ≤ r.b 63) || decide (r.w 4 = 0xFFFFFFFF)
    || (if c.data = .none then decide (r.ptr ≠ 0) else decide (r.ptr % 4 ≠ 0)) || r.stray c.used || c.undef r

/-! ## Packets in hand -/

/-- Input data of a packet: all DATA_LEN bytes, unless the read failed. -/
def dataOf (d : Rd) (len : Nat) : Option (List Byte) :=
  match d with
  | .error => none
  | .data bs => if len ≤ bs.length then some (bs.take len) else none

def Packet.req (p : Packet) (data : List Byte) : Req :=
  { fn := p.fn, mid := p.mid, pkt := p.bytes, data := data, dest := p.fn, no := p.no, tag := leAt p.bytes 4 4 }
def Packet.opc (p : Packet) : Nat := leAt p.bytes 0 2
def Packet.len (p : Packet) : Nat := leAt p.bytes 56 4

/-- Whether the row takes the packet. -/
def Cmd.is (c : Cmd) (p : Packet) : Bool := decide (p.opc = c.opc) && c.takes (p.req [])

/-- The Management Processor executes commands (R18, R351, R353, R391). -/
def State.mgpActs (s : State) : Bool := s.mgp.running && !s.mgp.halted && s.adminMode

/-- REINTEGRATE, which is no background command, is at work. -/
def State.engaged (s : State) : Bool := s.mgp.staged.any (fun p => p.started && !p.committed && decide (p.opc = 0x0502))

/-- The oldest packet of `fn` not yet taken up, where it can be: its data can be moved, and no handling window holds a REINTEGRATE
(R373). -/
def State.nextPacket (s : State) (fn : Nat) : Option Packet :=
  match s.mgp.staged.find? (fun p => decide (p.fn = fn) && !p.started && !p.committed) with
  | some p => if (decide (p.len = 0) || s.canIssue fn) && !(decide (p.opc = 0x0502) && s.fcs.window) then some p else none
  | none => none

/-- The packet whose turn it is: the admin queues in rotation, ring order within a queue (R350). -/
def State.turn (s : State) : Option Packet :=
  if s.mgpActs && !s.engaged then (List.range 8).findSome? (fun k => s.nextPacket ((s.mgp.rot + k) % 8)) else none

def State.updPacket (s : State) (no : Nat) (f : Packet → Packet) : State :=
  { s with mgp := { s.mgp with staged := s.mgp.staged.map (fun p => if p.no = no then f p else p) } }
def State.dropPacket (s : State) (no : Nat) : State :=
  { s with mgp := { s.mgp with staged := s.mgp.staged.filter (fun p => decide (p.no ≠ no)) } }

/-! ## Replies (R183, R349) -/

/-- The admin completion of a reply. -/
def State.replyCqe (s : State) (tag : Nat) (status : BitVec 16) (body : List Byte) : Cqe :=
  { tag := BitVec.ofNat 32 tag, sqid := 0xFFFF, status := status, body := BitVec.ofNat 128 (leNat (body.take 16)), time := s.time56 }

/-- The packet is answered: output data goes to DATA_PTR first, at most DATA_LEN bytes of it. -/
def State.replyTo (s : State) (p : Packet) (status : BitVec 16) (body out : List Byte) : State :=
  if p.mute then s.dropPacket p.no else
  let bytes := out.take p.len
  let s := if bytes.isEmpty then s else s.drive (.hostWrite p.fn (BitVec.ofNat 64 (leAt p.bytes 48 8)) bytes)
  let c := s.replyCqe (leAt p.bytes 4 4) status body
  (s.dropPacket p.no).updAq p.fn (fun a => { a with replies := a.replies ++ [(p.no, c)] })

/-- What follows the effect of a command. -/
def State.finish (p : Packet) (x : Res) : State :=
  match x.fin with
  | .reply => x.st.replyTo p x.status x.body x.out
  | .silent => x.st.dropPacket p.no
  | .wait => x.st

/-! ## Checks (R348, R349, R353) -/

/-- The right of the catalogue, held by the issuing MID (R353, R400, R409). -/
def State.holdsRight (s : State) (mid : Nat) (x : CmdRight) : Bool :=
  match x with
  | .any => true
  | .bit b => s.holds mid 1 0 b
  | .key => if s.otp.locked then s.tru.group.contains mid else isHostMid mid

/-- What an L command excludes while it runs: a second one of its opcode, or of its item for KEY_ENROLL (R351). -/
def sameLong (a b : Packet) : Bool :=
  decide (leAt a.eff 0 2 = leAt b.eff 0 2) && (decide (leAt a.eff 0 2 ≠ 0x0404) || decide (leAt a.eff 8 1 = leAt b.eff 8 1))

/-- Checks of ranges and lengths: BAD_PARAM. -/
def Cmd.inRange (c : Cmd) (r : Req) (readable : Bool) : Bool :=
  decide (r.version = 1) && c.range r && (decide (c.data ≠ .input) || (decide (c.need r ≤ r.len) && readable))

/-- The first check that fails. -/
def State.verdict (s : State) (c : Cmd) (r : Req) (readable : Bool) : Option (BitVec 16) :=
  if !c.inRange r readable then some Status.badParam
  else if !s.holdsRight r.mid c.right then some Status.notPermitted
  else if !s.inMode c.modes then some Status.modeWrong
  else c.check s r

/-- Another packet runs in the background with the same opcode. -/
def State.longBusy (s : State) (c : Cmd) (p : Packet) : Bool :=
  c.long && s.mgp.staged.any (fun q => q.started && decide (q.no ≠ p.no) && sameLong q p)

/-! ## Taking a command up -/

/-- The packet has started in the background. -/
def State.startLong (s : State) (c : Cmd) (p : Packet) (r : Req) : State :=
  let s := s.updPacket p.no (fun p => { p with started := true, begun := s.tick })
  if r.dry then s else c.begins r s

/-- Take packet `p` up as command `c`; `d` is its input data. -/
def State.takeUp (s : State) (c : Cmd) (p : Packet) (d : Rd) : Answer :=
  let s := { s with mgp := { s.mgp with rot := (p.fn + 1) % 8 } }
  let input := decide (c.data = .input) && !c.long
  let data := if input then dataOf d p.len else some []
  let r := p.req (data.getD [])
  if r.version ≠ 1 then .next (s.replyTo p Status.badParam [] [])
  else if c.malformed r then .fault .reservedPacket
  else match s.verdict c r data.isSome with
    | some st => .next (s.replyTo p st [] [])
    | none =>
      if s.longBusy c p then .next (s.replyTo p Status.busy [] [])
      else if r.dry && !c.verifies then .next (s.replyTo p Status.success [] [])
      else if !r.dry && s.otp.locked && c.prot s r then .next (s.replyTo p Status.consentPending [] [])
      else if c.long then .next (s.startLong c p r)
      else .next (State.finish p (c.apply r true [] s))

/-- The row of a command that is not in the background: it acts when it is the turn of a packet it takes (log 1). -/
def State.command (s : State) (c : Cmd) (fn : Nat) (d : Rd) : Answer :=
  match s.turn with
  | some p => if p.fn = fn ∧ c.is p then s.takeUp c p d else .next s
  | none => .next s

/-- The started packet of `fn` that the row takes. -/
def State.inHand (s : State) (c : Cmd) (fn : Nat) : Option Packet :=
  if s.mgpActs then s.mgp.staged.find? (fun p => decide (p.fn = fn) && p.works && c.is p) else none

/-- The commit point of a started packet, with what its work found. -/
def State.commitLong (s : State) (c : Cmd) (p : Packet) (d : Rd) (pass : Bool) (result : List Byte) : State :=
  match (if c.data = .input then dataOf d p.len else some []) with
  | none => (s.undoCmd p).replyTo p Status.badParam [] []
  | some data =>
    let x := c.apply (p.req data) pass result s
    if (p.req data).dry then s.replyTo p x.status [] [] else State.finish p x

/-- The row of an L command, at its start or at its commit point (R350, R351). -/
def State.longCommand (s : State) (c : Cmd) (fn : Nat) (d : Rd) (st : LStage) : Answer :=
  match st with
  | .start => s.command c fn d
  | .commit pass result =>
    match s.inHand c fn with
    | some p => .next (s.commitLong c p d pass result)
    | none => .next s

/-- The ordered reset of a cluster and its test have run (Table 16.6). -/
def State.resetRan (s : State) (c : Nat) : Bool := (s.cluster c).ready && !(s.cluster c).resetReq && (s.cluster c).resetAt.isNone

/-- Modes of the catalogue's letters. -/
def modesAll : List Mode := [.provision, .service, .degraded, .update, .rebuild, .diagnostic]
def modesPSDUG : List Mode := [.provision, .service, .degraded, .update, .diagnostic]
def modesPSDU : List Mode := [.provision, .service, .degraded, .update]
def modesSDU : List Mode := [.service, .degraded, .update]
def modesPSD : List Mode := [.provision, .service, .degraded]
def modesSD : List Mode := [.service, .degraded]
def modesPG : List Mode := [.provision, .diagnostic]

/-- A status where a check fails. -/
def failIf (bad : Bool) (st : BitVec 16) : Option (BitVec 16) := if bad then some st else none

/-- The first of several checks that fails. -/
def firstFail (l : List (Option (BitVec 16))) : Option (BitVec 16) := l.findSome? id

end Sys2Proof.Machine
end

