-- ==== Sys2Proof/Machine/QueueCmds.lean ====
section
/-! DEFINITION. Commands on queues and crews (Table 12.4, opcodes 0x0101 to 0x0107): R142 to R145, R157, R179, R186 to R188. -/
namespace Sys2Proof.Machine

/-- Opcodes of the catalogue (Tables 12.4, 12.5, 12.9). -/
def catalogue : List Nat :=
  [0x0101, 0x0102, 0x0103, 0x0104, 0x0105, 0x0106, 0x0107, 0x0201, 0x0202, 0x0203, 0x0204, 0x0205, 0x0206, 0x0207, 0x0208, 0x0209, 0x020A,
   0x0301, 0x0302, 0x0303, 0x0304, 0x0401, 0x0402, 0x0403, 0x0404, 0x0405, 0x0501, 0x0502, 0x0503, 0x0601, 0x0602, 0x0801, 0x0802, 0x0901,
   0x0A01, 0x0A02, 0x0B01, 0x0B02, 0x0B03, 0x0701, 0x0702, 0x0703, 0x0704, 0x0705]

/-- Depth and base of a ring (R157). -/
def ringOk (r : Req) : Bool := decide (2 ≤ r.w 12) && decide (r.w 12 ≤ 65536) && decide (r.d 16 % 4096 = 0)

/-- Completions that a class-0 submission queue can have outstanding (R179). -/
def c0Room (depth notices : Nat) : Nat := (depth - 1) * (1 + notices)

/-- CREATE_SQ: the checks of Table 6.8 that need the machine's state. -/
def State.checkCreateSq (s : State) (r : Req) : Option (BitVec 16) :=
  let c0 := (r.b 24).testBit 0
  let others := s.qe.sqs.sel (fun _ q => decide (q.cqid = r.h 10))
  match s.cq (r.h 10) with
  | none => some Status.badParam
  | some q => failIf (s.qe.sqs.has (r.h 8) || decide (q.fn ≠ r.fn) || (c0 && (r.b 24).testBit 1)
      || others.any (fun x => x.2.c0 != c0)
      || (c0 && decide (q.depth - 1 < sumBy (fun x => c0Room x.2.depth x.2.noticesMax) others + c0Room (r.w 12) (r.b 25)))) Status.badParam

/-- A new submission queue (R187). -/
def newSq (r : Req) : Sq :=
  { fn := r.fn, base := BitVec.ofNat 64 (r.d 16), depth := r.w 12, head := 0, tail := 0, phase := true, cqid := r.h 10
    c0 := (r.b 24).testBit 0, v1 := (r.b 24).testBit 1, noticesMax := r.b 25, crew := none, en := true, spec := true, haltAll := [], halted := []
    ownWait := none, stopped := false, dbErr := false, ownErr := false, rdErr := false, copy := none, staged := [], bells := [] }

def cmdCreateSq : Cmd :=
  { opc := 0x0101, used := span 8 23 ++ [(24, 3), (25, 0xFF)], right := rightOwn, modes := modesPSDUG
    range := fun r => decide (r.h 8 < 4096) && decide (r.h 10 < 2048) && ringOk r && decide (r.b 25 ≤ 15)
    check := State.checkCreateSq
    apply := fun r _ _ s => Res.ok { s with qe := { s.qe with sqs := s.qe.sqs.put (r.h 8) (newSq r) } } }

/-- CREATE_SQ (R157, R179, R186, R187). The row also takes the packets whose opcode the catalogue does not list: BAD_OPCODE (R348). -/
def execCreateSq (fn : Nat) (s : State) : Answer :=
  match s.turn with
  | some p =>
    if p.fn = fn ∧ !catalogue.contains p.opc then
      .next (({ s with mgp := { s.mgp with rot := (p.fn + 1) % 8 } } : State).replyTo p Status.badOpcode [] [])
    else s.command cmdCreateSq fn .error
  | none => .next s

/-- DELETE_SQ (R188): the number is one of the function's own, and the queue is shut and idle. -/
def State.checkDeleteSq (s : State) (r : Req) : Option (BitVec 16) :=
  match s.sq (r.h 8) with
  | none => some Status.badParam
  | some q => if q.fn ≠ r.fn then some Status.badParam else failIf (!s.sqIdle (r.h 8) q) Status.busy

def cmdDeleteSq : Cmd :=
  { opc := 0x0102, used := span 8 9, right := rightOwn, modes := modesPSDUG, check := State.checkDeleteSq
    apply := fun r _ _ s => Res.ok { s with qe := { s.qe with sqs := s.qe.sqs.del (r.h 8) } } }

/-- DELETE_SQ (R188). -/
def execDeleteSq (fn : Nat) (s : State) : Answer := s.command cmdDeleteSq fn .error

/-- A new completion queue (R187). -/
def newCq (r : Req) : Cq :=
  { fn := r.fn, base := BitVec.ofNat 64 (r.d 16), depth := r.w 12, head := 0, tail := 0, phase := true, vector := r.b 24
    ivEn := (r.b 25).testBit 0, icount := r.b 26, itimeUs := r.h 28, since := 0, firstAt := none, ready := [], held := []
    stall := none, stalled := false, dbErr := false, c0Over := false, c0Full := false, stalls := 0 }

def cmdCreateCq : Cmd :=
  { opc := 0x0103, used := span 8 9 ++ span 12 24 ++ [(25, 1), (26, 0xFF)] ++ span 28 29, right := rightOwn, modes := modesPSDUG
    range := fun r => decide (r.h 8 < 2048) && ringOk r
    check := fun s r => failIf (s.qe.cqs.has (r.h 8)) Status.badParam
    apply := fun r _ _ s => Res.ok { s with qe := { s.qe with cqs := s.qe.cqs.put (r.h 8) (newCq r) } } }

/-- CREATE_CQ (R157, R186, R187). -/
def execCreateCq (fn : Nat) (s : State) : Answer := s.command cmdCreateCq fn .error

/-- DELETE_CQ (R188). -/
def State.checkDeleteCq (s : State) (r : Req) : Option (BitVec 16) :=
  match s.cq (r.h 8) with
  | none => some Status.badParam
  | some q => if q.fn ≠ r.fn then some Status.badParam else failIf (s.qe.sqs.any (fun x => decide (x.2.cqid = r.h 8))) Status.busy

def cmdDeleteCq : Cmd :=
  { opc := 0x0104, used := span 8 9, right := rightOwn, modes := modesPSDUG, check := State.checkDeleteCq
    apply := fun r _ _ s => Res.ok { s with qe := { s.qe with cqs := s.qe.cqs.del (r.h 8) } } }

/-- DELETE_CQ (R188). -/
def execDeleteCq (fn : Nat) (s : State) : Answer := s.command cmdDeleteCq fn .error

/-! ## Crews -/

/-- The crew of a CREATE_CREW packet (Table 5.2). -/
def newCrew (s : State) (r : Req) : Crew :=
  let k : Crew := {
    owner := r.fn, cls := r.b 9, mask := BitVec.ofNat 16 (r.h 10), seats := r.b 12, shared := (r.b 13).testBit 0, stepUs := if r.h 16 = 0 then 100 else r.h 16
    minMinor := r.b 14, pinned := 0, lostIn := [] }
  { k with pinned := s.pinnedOf k }

/-- The ranges of Table 5.2. -/
def crewRange (r : Req) : Bool :=
  decide (r.b 9 ≤ 3) && decide (r.b 12 ≤ 64) && decide (r.b 14 ≤ 15) && (decide (r.h 16 = 0) || (decide (10 ≤ r.h 16) && decide (r.h 16 ≤ 10000)))

/-- The checks of Table 5.3 in their order. -/
def State.checkCreateCrew (s : State) (r : Req) : Option (BitVec 16) :=
  let cs := maskClusters (BitVec.ofNat 16 (r.h 10))
  let shared := (r.b 13).testBit 0
  let c0 := decide (r.b 9 = 0)
  let minors := countP (fun c => decide (r.b 14 ≤ (s.cluster c).minor)) cs
  firstFail [
    failIf (s.eng.crews.has (r.b 8)) Status.badParam,
    failIf (c0 && decide (cs.length < 2)) Status.badParam,
    failIf (decide (r.b 9 ≤ 1) && (decide (r.b 12 = 0) || shared)) Status.badParam,
    failIf (decide (2 ≤ r.b 9) && decide (r.b 12 = 0) && !shared) Status.badParam,
    failIf (c0 && decide (r.b 12 < s.sch.burst)) Status.badParam,
    failIf (decide (minors < if c0 then 2 else 1)) Status.versionMismatch,
    failIf (cs.any (fun c => decide ((s.cluster c).seats < s.reservedIn c + r.b 12))) Status.resourceExhausted]

/-- A crew's weights start from the default of its class. -/
def State.clearWeights (s : State) (k : Nat) : State :=
  { s with sch := { s.sch with weights := s.sch.weights.del k, refilled := s.sch.refilled.del k } }

def cmdCreateCrew : Cmd :=
  { opc := 0x0105, used := span 8 12 ++ [(13, 1), (14, 0xFF)] ++ span 16 17, right := rightCfg, modes := modesPSDU
    range := crewRange, prot := fun _ r => decide (r.b 9 = 0), check := State.checkCreateCrew
    apply := fun r _ _ s =>
      let s := s.clearWeights (r.b 8)
      Res.ok (({ s with eng := { s.eng with crews := s.eng.crews.put (r.b 8) (newCrew s r) } } : State).evalGuarantee) }

/-- CREATE_CREW (R142 to R145). -/
def execCreateCrew (fn : Nat) (s : State) : Answer := s.command cmdCreateCrew fn .error

/-- DELETE_CREW (R143). -/
def State.checkDeleteCrew (s : State) (r : Req) : Option (BitVec 16) :=
  match s.crew (r.b 8) with
  | none => some Status.badParam
  | some _ => failIf (s.qe.sqs.any (fun x => decide (x.2.crew = some (r.b 8))) || !(s.engsWith (fun p => decide (p.crew = r.b 8))).isEmpty) Status.busy

def cmdDeleteCrew : Cmd :=
  { opc := 0x0106, used := [(8, 0xFF)], right := rightCfg, modes := modesPSDU
    prot := fun s r => match s.crew (r.b 8) with | some k => decide (k.cls = 0) | none => false
    check := State.checkDeleteCrew
    apply := fun r _ _ s =>
      let s := s.clearWeights (r.b 8)
      let high := match s.crew (r.b 8) with | some k => if k.cls ≤ 1 then maskClusters k.mask else [] | none => []
      let s := { s with eng := { s.eng with crews := s.eng.crews.del (r.b 8) } }
      let s := (List.range 16).foldl (fun s c => s.regainSeats c 64) s
      Res.ok ((high.foldl (fun s c => s.updCluster c (fun k => { k with idleSince := s.tick })) s).evalGuarantee) }

/-- DELETE_CREW (R143). -/
def execDeleteCrew (fn : Nat) (s : State) : Answer := s.command cmdDeleteCrew fn .error

/-- Submission queues bound to class-0 crews (R144). -/
def State.c0Bound (s : State) : Nat :=
  countP (fun x => match x.2.crew.bind s.crew with | some k => decide (k.cls = 0) | none => false) s.qe.sqs

/-- BIND_SQ (R144, R187). -/
def State.checkBindSq (s : State) (r : Req) : Option (BitVec 16) :=
  match s.sq (r.h 8), s.crew (r.b 10) with
  | some q, some k =>
    firstFail [
      failIf (decide (q.fn ≠ r.fn) || (q.c0 != decide (k.cls = 0)) || (q.v1 && decide (k.cls ≤ 1))) Status.badParam,
      failIf (decide (k.cls = 0) && decide (s.sch.queues ≤ s.c0Bound)) Status.resourceExhausted]
  | _, _ => some Status.badParam

def cmdBindSq : Cmd :=
  { opc := 0x0107, used := span 8 10, right := rightOwn, modes := modesPSDU, check := State.checkBindSq
    apply := fun r _ _ s => Res.ok ((s.updSq (r.h 8) (fun q => { q with crew := some (r.b 10) })).evalGuarantee) }

/-- BIND_SQ (R144, R187). -/
def execBindSq (fn : Nat) (s : State) : Answer := s.command cmdBindSq fn .error

end Sys2Proof.Machine
end

