-- ==== Sys2Proof/Machine/SchedCmds.lean ====
section
/-! DEFINITION. Commands on slot tables, weights and the class-0 contract (Table 12.4, opcodes 0x0301 to 0x0304): R201 to R224. -/
namespace Sys2Proof.Machine

/-! ## Slot tables (R205, R216 to R221) -/

/-- Owner of entry `i` of the inactive bank. -/
def SlotTable.idleOwner (t : SlotTable) (i : Nat) : Nat := (if t.activeB then t.bankA else t.bankB).get i (defaultOwner i)

/-- The table with a pending patch applied. -/
def SlotTable.settled (t : SlotTable) : SlotTable :=
  match t.patch with | some (i, o, _) => { t.setActive i o with patch := none } | none => t

/-- A table on which the class-0 slot requirement is enforced (R205). -/
def State.needsC0 (s : State) (t : Nat) : Bool := decide (t = 16) || s.flChannels.contains t

/-- Write entries of the inactive bank. -/
def SlotTable.write (t : SlotTable) (first : Nat) (owners : List Nat) : SlotTable :=
  let put := fun (b : Tbl Nat) => (owners.zipIdx first).foldl (fun b x => Tbl.put b x.2 x.1) b
  if t.activeB then { t with bankA := put t.bankA } else { t with bankB := put t.bankB }

/-- The fields of Table 7.3, 4 bytes each in its order (DEDUCED, log 56). -/
def costOf (d : List Byte) : Cost :=
  { stepNs := leAt d 0 4, rateMbps := leAt d 4 4, mediaUs := leAt d 8 4, latencyUs := leAt d 12 4, opsPerFrame := leAt d 16 4, marginUs := leAt d 20 4 }

def isPatch (r : Req) : Bool := (r.b 9).testBit 0

/-- A patch that moves a class-0 or Quench-reserve slot (R221). -/
def State.patchMoves (s : State) (r : Req) : Bool :=
  let old := (s.slotTable (r.b 8)).settled.owner (r.h 10)
  let held := fun (o : Nat) => decide (o = 1) || decide (o = 5)
  decide (old ≠ r.b 14) && (held old || held (r.b 14))

/-- A patch that breaks the class-0 slot requirement (R205). -/
def State.patchBreaks (s : State) (r : Req) : Bool :=
  s.needsC0 (r.b 8) && !c0SlotsOk ((s.slotTable (r.b 8)).settled.setActive (r.h 10) (r.b 14)).owner

/-- The effect of SLOT_TABLE_WRITE. -/
def State.writeTable (s : State) (r : Req) : State :=
  if isPatch r then s.updTable (r.b 8) (fun t => { t.settled with patch := some (r.h 10, r.b 14, s.tick) })
  else if r.b 8 = 17 then
    let c := some (costOf r.data)
    if (s.slotTable 17).activeB then { s with sch := { s.sch with costA := c } } else { s with sch := { s.sch with costB := c } }
  else s.updTable (r.b 8) (fun t => t.write (r.h 10) ((r.data.take (r.h 12)).map (·.toNat)))

def cmdSlotTableWrite : Cmd :=
  { opc := 0x0301, used := [(8, 0xFF), (9, 1)] ++ span 10 14, right := rightCfg, modes := modesPSDU, data := .input
    need := fun r => if isPatch r then 0 else if r.b 8 = 17 then 24 else r.h 12
    range := fun r => decide (r.b 8 ≤ 17) && (if isPatch r then decide (r.b 8 ≠ 17) && decide (r.h 10 < 512)
      else decide (r.b 8 = 17) || (decide (1 ≤ r.h 12) && decide (r.h 10 + r.h 12 ≤ 512)))
    undef := fun r => if isPatch r then decide (6 ≤ r.b 14) else decide (r.b 8 ≠ 17) && (r.data.take (r.h 12)).any (fun b => decide (6 ≤ b.toNat))
    prot := fun s r => isPatch r && s.patchMoves r
    check := fun s r => failIf (isPatch r && s.patchBreaks r) Status.badParam
    apply := fun r _ _ s => Res.ok (s.writeTable r) }

/-- SLOT_TABLE_WRITE (R205, R209, R218, R219, R221). -/
def execSlotTableWrite (fn : Nat) (d : Rd) (s : State) : Answer := s.command cmdSlotTableWrite fn d

/-- Tables of a swap mask. -/
def swapSet (r : Req) : List Nat := (List.range 18).filter (fun t => (r.w 8).testBit t)

/-- A swap that moves, adds or removes a class-0 or Quench-reserve slot (R221). -/
def State.swapMoves (s : State) (r : Req) : Bool :=
  ((swapSet r).filter (fun t => decide (t ≤ 16))).any (fun t =>
    let x := (s.slotTable t).settled
    (List.range 512).any (fun i => decide (x.owner i ≠ x.idleOwner i) && [1, 5].any (fun o => decide (x.owner i = o) || decide (x.idleOwner i = o))))

/-- The effect of SLOT_TABLE_SWAP: the reply waits for the frame start (R218). A table whose swap is already pending swaps once
(DESIGN CHOICE, log 65). -/
def State.orderSwap (s : State) (r : Req) : State :=
  let s := (swapSet r).foldl (fun s t => s.updTable t (fun x => { x with swapAt := some (x.swapAt.getD s.tick) })) s
  let s := s.updPacket r.no (fun p => { p with committed := true })
  { s with sch := { s.sch with swapReplies := s.sch.swapReplies ++ [(r.dest, r.no, s.replyCqe r.tag Status.success [])] } }

def cmdSlotTableSwap : Cmd :=
  { opc := 0x0302, used := [(8, 0xFF), (9, 0xFF), (10, 3)], right := rightCfg, modes := modesPSDU
    prot := State.swapMoves
    check := fun s r => failIf ((swapSet r).any (fun t => s.needsC0 t && !c0SlotsOk (s.slotTable t).idleOwner)) Status.badParam
    apply := fun r _ _ s => { Res.ok (s.orderSwap r) with fin := .wait } }

/-- SLOT_TABLE_SWAP (R205, R218, R221). -/
def execSlotTableSwap (fn : Nat) (s : State) : Answer := s.command cmdSlotTableSwap fn .error

/-! ## Weights (R215) -/

/-- Requester and weight of entry `k` of a SET_WEIGHTS packet. -/
def weightOf (r : Req) (k : Nat) : Nat × Nat := (r.h (16 + 4 * k), r.b (18 + 4 * k))

/-- A weight in its class's range, for a requester that exists. -/
def State.weightOk (s : State) (x : Nat × Nat) : Bool :=
  if x.1 = annealReq then decide (1 ≤ x.2)
  else match s.crew x.1 with
    | some k => (decide (k.cls = 2) && decide (1 ≤ x.2)) || (decide (k.cls = 3) && decide (1 ≤ x.2) && decide (x.2 ≤ 16))
    | none => false

def weightsOf (r : Req) : List (Nat × Nat) := (List.range (r.b 8)).map (weightOf r)

def cmdSetWeights : Cmd :=
  { opc := 0x0303, used := (8, 0xFF) :: (List.range 8).flatMap (fun k => span (16 + 4 * k) (18 + 4 * k)), right := rightCfg, modes := modesPSDU
    range := fun r => decide (1 ≤ r.b 8) && decide (r.b 8 ≤ 8)
    check := fun s r => failIf (!(weightsOf r).all s.weightOk) Status.badParam
    apply := fun r _ _ s => Res.ok { s with sch := { s.sch with weightTick := some s.tick, weightsWere := if s.sch.weightTick = some s.tick then s.sch.weightsWere else s.sch.weights, weights := (weightsOf r).foldl (fun t x => t.put x.1 x.2) s.sch.weights } } }

/-- SET_WEIGHTS (R215). -/
def execSetWeights (fn : Nat) (s : State) : Answer := s.command cmdSetWeights fn .error

/-! ## The class-0 contract (R32, R201, R203, R204) -/

/-- The class-0 reserve of a rate in 64 KiB units (R32). -/
def reserveUnits (rate : Nat) : Nat := ceilDiv (rate * 5 / 2 * 4160) 65536

/-- BURST of a rate (R201). -/
def burstOf (rate : Nat) : Nat := max 1 ((rate * 8 + 99) / 100)

def cmdClass0Contract : Cmd :=
  { opc := 0x0304, used := span 8 9, right := rightCfg, modes := modesPSDU
    range := fun r => decide (1 ≤ r.b 8) && decide (r.b 8 ≤ 100) && decide (1 ≤ r.b 9) && decide (r.b 9 ≤ 16)
    prot := fun _ _ => true
    check := fun s r => firstFail [
      failIf (decide (r.b 9 < s.c0Bound)) Status.busy,
      failIf (s.eng.crews.any (fun k => decide (k.2.cls = 0) && decide (k.2.seats < burstOf (r.b 8)))) Status.badParam]
    apply := fun r _ _ s =>
      let s := { s with sch := { s.sch with rate := r.b 8, queues := r.b 9 }, lq := { s.lq with reserve64k := reserveUnits (r.b 8) } }
      Res.ok (s.relimit.flEval).evalGuarantee }

/-- CLASS0_CONTRACT (R32, R42, R203). -/
def execClass0Contract (fn : Nat) (s : State) : Answer := s.command cmdClass0Contract fn .error

end Sys2Proof.Machine
end

