-- ==== Sys2Proof/Machine/DeviceCmds.lean ====
section
/-! DEFINITION. Port, time and device commands (Table 12.5): PORT_CONFIG, TIME_SET, TIME_DISCIPLINE, IDENTIFY, GET_TELEMETRY and
MEDIA_REPORT. -/
namespace Sys2Proof.Machine

/-! ## PORT_CONFIG (R303, R332, R335, R340, Table 11.12) -/

def fldBase : Nat := 0xF00000
def lpcBase : Nat := 0xF80000

/-- BAR0 offsets of a port's configuration registers, ascending: the RW registers of Table 11.12 that belong to the port (DESIGN CHOICE, log 56:
which registers are the port's configuration registers is not listed). -/
def portRegs (id : Nat) : Option (List Nat) :=
  if id < 4 then
    let b := fldBase + 0x10000 * id
    some ([b, b + 8, b + 0xC] ++ (List.range 256).map (fun k => b + 0x100 + 4 * k) ++ [b + 0x800, b + 0x804, b + 0x808]
      ++ (List.range 256).map (fun k => b + 0x1000 + 4 * k))
  else if 0x10 ≤ id ∧ id ≤ 0x1F then some ([0, 4, 8, 0xC].map (fun k => lpcBase + 0x1000 + 0x20 * (id - 0x10) + k))
  else if 0x20 ≤ id ∧ id ≤ 0x27 then some ([0, 0xC, 0x10, 0x14].map (fun k => lpcBase + 0x100 * (id - 0x20) + k))
  else if 0x30 ≤ id ∧ id ≤ 0x31 then some [lpcBase + 0x3000 + 0x100 * (id - 0x30)]
  else if 0x38 ≤ id ∧ id ≤ 0x39 then some [lpcBase + 0x3400 + 0x100 * (id - 0x38)]
  else if id = 0x40 then some ([0, 4, 0xC, 0x10, 0x18].map (fun k => lpcBase + 0x2000 + k))
  else none

/-- Bytes of data that a PORT_CONFIG of the port carries. -/
def portNeed (id : Nat) : Nat := 4 * ((portRegs id).getD []).length + (if (xtOf id).isSome then 4 else 0)

/-- The registers with the values of the data. -/
def portWrites (r : Req) : List (Nat × W32) :=
  let offs := (portRegs (r.b 8)).getD []
  offs.zip ((entriesAt r.data 0 4 offs.length).map (fun x => BitVec.ofNat 32 (leAt x 0 4)))

/-- Write a list of registers; `none` where one takes a reserved value. -/
def State.writeRegs (s : State) (mid : Nat) : List (Nat × W32) → WRes
  | [] => some s
  | (off, v) :: t => (s.regBar0 mid off v).bind (fun s => s.writeRegs mid t)

/-- DUMMY is at least ceil(80 ns × f_max) (R332). -/
def dummyOk (r : Req) : Bool :=
  match xtOf (r.b 8) with
  | none => true
  | some _ => decide ((8 * leAt r.data 16 4 + 99) / 100 ≤ fld (BitVec.ofNat 32 (leAt r.data 0 4)) 8 6)

/-- A register takes a value outside its stated range, or the dummy cycles are too few. -/
def State.portBad (s : State) (r : Req) : Bool := !dummyOk r || (s.writeRegs r.mid (portWrites r)).isNone

def cmdPortConfig : Cmd :=
  { opc := 0x0901, used := [(8, 0xFF)], right := rightCfg, modes := modesPSDUG, data := .input, need := fun r => portNeed (r.b 8)
    range := fun r => (portRegs (r.b 8)).isSome
    check := fun s r => firstFail [
      failIf (s.portBad r) Status.badParam,
      failIf (match xtOf (r.b 8) with | some n => (s.xt n).cycling | none => false) Status.busy]
    apply := fun r _ _ s => Res.ok ((s.writeRegs r.mid (portWrites r)).getD s) }

/-- PORT_CONFIG: the configuration registers of a port. -/
def execPortConfig (fn : Nat) (d : Rd) (s : State) : Answer := s.command cmdPortConfig fn d

/-! ## Time (R431, R432) -/

/-- The adjustment that a TIME_SET asks for. -/
def adjOf (r : Req) : TimeAdj :=
  if (r.b 8).testBit 0 then .relative (BitVec.ofNat 64 (r.d 16)) else .absolute (BitVec.ofNat 64 (r.d 16))

/-- TIME_SET takes effect at the next tick boundary; its result is the device time then. -/
def State.timeSet (s : State) (a : TimeAdj) : Res :=
  let s := { s with tmr := { s.tmr with sets := s.tmr.sets ++ [a] } }
  Res.result s (leBytes 8 s.clockTick.tmr.time.toNat)

def cmdTimeSet : Cmd :=
  { opc := 0x0A01, used := (8, 1) :: span 16 23, right := rightCfg, modes := modesPSDUG, apply := fun r _ _ s => s.timeSet (adjOf r) }

/-- TIME_SET: device time is stepped to a value, or by one. -/
def execTimeSet (fn : Nat) (s : State) : Answer := s.command cmdTimeSet fn .error

def cmdTimeDiscipline : Cmd :=
  { opc := 0x0A02, used := span 8 9, right := rightCfg, modes := modesPSDUG
    range := fun r => decide (r.b 8 ≤ 2) && decide (r.b 9 ≤ 3)
    check := fun s r => failIf (decide (r.b 8 = 1) && !(s.fport (r.b 9)).cfg.getLsbD 2) Status.badParam
    apply := fun r _ _ s =>
      let s := { s with tmr := { s.tmr with discSrc := r.b 8, discPort := r.b 9, inLock := 0, sampleTick := s.tick } }
      Res.ok (s.setDisc (if r.b 8 = 0 then discFree else discAcquiring)) }

/-- TIME_DISCIPLINE: the discipline source of device time. -/
def execTimeDiscipline (fn : Nat) (s : State) : Answer := s.command cmdTimeDiscipline fn .error

/-! ## IDENTIFY (R1, Table 12.6) -/

/-- Clusters that are not fenced. -/
def State.liveClusters (s : State) : List Nat := (List.range 16).filter (fun c => !(s.cluster c).fenced)

/-- Lowest and highest microcode ISA minor among unfenced clusters. -/
def State.minorLow (s : State) : Nat := match s.liveClusters.map (fun c => (s.cluster c).minor) with | [] => 0 | m :: t => t.foldl min m
def State.minorHigh (s : State) : Nat := (s.liveClusters.map (fun c => (s.cluster c).minor)).foldl max 0

/-- Clusters whose microcode differs from the boot NOR image's. -/
def State.differing (s : State) : Nat :=
  bitMap 16 (fun c => decide ((s.cluster c).build ≠ s.top.image.build) || decide ((s.cluster c).minor ≠ s.top.image.minor))

/-- Result bytes 8 to 23 of IDENTIFY. -/
def State.identity (s : State) : List Byte :=
  [0xB0, BitVec.ofNat 8 s.top.mode.code] ++ leBytes 2 0x1152 ++ leBytes 4 s.mgp.fwVersion ++ leBytes 1 s.minorLow ++ leBytes 1 s.minorHigh
    ++ leBytes 2 s.differing ++ leBytes 1 s.mgp.upd.state ++ leBytes 1 s.mgp.mediaFormat ++ leBytes 2 0

def cmdIdentify : Cmd := { opc := 0x0B02, modes := modesAll, apply := fun _ _ _ s => Res.result s s.identity }

/-- IDENTIFY: stepping, mode, versions and update state. -/
def execIdentify (fn : Nat) (s : State) : Answer := s.command cmdIdentify fn .error

/-! ## GET_TELEMETRY (R356, Table 12.13) -/

/-- What a sensor shows now: 0 the hottest and 1 the coolest die sensor, 2 to 8 the rails of bytes 20 to 33, 9 VBAT, 10 the power. -/
def State.sense (s : State) (k : Nat) : Nat := Config.sensor k s.tick

/-- Bytes 0 to 123 of the telemetry block. -/
def State.telemetryBody (s : State) : List Byte :=
  let mc := fun (k : Nat) => s.psv.mc.get k 0
  leBytes 2 0xD2ED ++ [1, 0] ++ leBytes 4 128 ++ leBytes 8 s.tmr.time.toNat
    ++ (List.range 10).flatMap (fun k => leBytes 2 (s.sense k)) ++ leBytes 4 (s.sense 10)
    ++ leBytes 2 s.psv.vbankMv ++ leBytes 2 s.tripWord ++ leBytes 4 s.psv.cPub ++ leBytes 1 s.top.mode.code ++ leBytes 1 s.lqStatus.toNat
    ++ leBytes 1 s.lq.limitMib ++ [0] ++ leBytes 4 s.fcs.guaranteeWord.toNat ++ leBytes 4 (mc 1) ++ leBytes 4 (mc 2) ++ leBytes 4 (mc 3)
    ++ leBytes 4 s.lifeWord.toNat ++ leBytes 8 s.lq.accBytes.toNat ++ leBytes 8 s.lq.durBytes.toNat
    ++ leBytes 2 (countP (fun e => (s.engine e).seated) (List.range engCount)) ++ leBytes 2 (countP (fun e => (s.engine e).fenced) (List.range engCount))
    ++ leBytes 4 s.sch.c0Over ++ leBytes 4 s.fcs.c0Late ++ leBytes 4 s.fc.uncorr ++ leBytes 20 0

def State.telemetry (s : State) : List Byte := s.telemetryBody ++ leBytes 4 (crc32c s.telemetryBody).toNat

def cmdGetTelemetry : Cmd :=
  { opc := 0x0B03, modes := modesAll, data := .output, apply := fun _ _ _ s => { Res.result s (leBytes 4 128) with out := s.telemetry } }

/-- GET_TELEMETRY: the telemetry block. -/
def execGetTelemetry (fn : Nat) (s : State) : Answer := s.command cmdGetTelemetry fn .error

/-! ## MEDIA_REPORT -/

/-- Mean TLC erase count of a LUN. -/
def State.meanErases (s : State) (l : Nat) : Nat :=
  sumBy (fun p => if p.1 / 2 ^ 24 = l then p.2 else 0) s.mm.erases / s.blocksOf l

/-- Free segments of stripe set `k`, saturating. -/
def State.freeOf (s : State) (k : Nat) : Nat := match s.mm.sets.find k with | some x => min 255 (s.freeSegs x) | none => 0

/-- The 64-byte summary. The Anneal bit is held in a word of its own, and the bytes that the fields leave are 0 (DEDUCED, log 56). -/
def State.mediaSummary (s : State) : List Byte :=
  [s.lifeWord, s.flStatus, s.flSize, s.flBudget, s.annealWord].flatMap (fun w => leBytes 4 w.toNat) ++ leBytes 4 (bitN (s.sch.starve.contains annealReq) 0)
    ++ (List.range 32).flatMap (fun k => leBytes 1 (s.freeOf k)) ++ leBytes 8 0

/-- The summary, then 8 bytes for each LUN number. -/
def State.mediaReport (s : State) : List Byte :=
  s.mediaSummary ++ (List.range 512).flatMap (fun l => leBytes 4 (s.lun l).word.toNat ++ leBytes 4 (s.meanErases l))

def cmdMediaReport : Cmd :=
  { opc := 0x0802, modes := [.service, .degraded, .update, .rebuild, .diagnostic], data := .output
    apply := fun _ _ _ s => { Res.result s (leBytes 4 s.mediaReport.length) with out := s.mediaReport } }

/-- MEDIA_REPORT: the media summary and an entry for each LUN. -/
def execMediaReport (fn : Nat) (s : State) : Answer := s.command cmdMediaReport fn .error

end Sys2Proof.Machine
end

