-- ==== Sys2Proof/Machine/FaultCmds.lean ====
section
/-! DEFINITION. Fault, power and reintegration commands (Table 12.5): FAULT_LOG_READ, SET_REACTION, REINTEGRATE, ENERGY_STATUS and
BANK_TEST. -/
namespace Sys2Proof.Machine

/-! ## FAULT_LOG_READ (R63, R396, Table 13.11) -/

/-- Log type 0x02: the 16-byte header, then the records in the order of the engines. -/
def snapshotBytes (x : W64 × BitVec 16 × Tbl Snap) : List Byte :=
  leBytes 8 x.1.toNat ++ leBytes 8 x.2.1.toNat ++ x.2.2.flatMap (fun p => p.2.bytes)

/-- The content of a log type. -/
def State.logOf (s : State) (type : Nat) : Option (List Byte) :=
  match type with
  | 1 => some s.fcs.log.flatten
  | 2 => some (match s.fcs.snapshot with | some x => snapshotBytes x | none => [])
  | 5 => some s.fcs.lostData.flatten
  | 7 => some (match s.mm.loss with | some x => x.1 ++ x.2.flatten | none => [])
  | _ => none

def cmdFaultLogRead : Cmd :=
  { opc := 0x0501, used := (8, 0xFF) :: span 16 23, modes := modesAll, data := .output
    check := fun s r => failIf (s.logOf (r.b 8)).isNone Status.badParam
    apply := fun r _ _ s =>
      let bytes := ((s.logOf (r.b 8)).getD []).drop (r.d 16)
      { Res.result s (leBytes 4 bytes.length) with out := bytes } }

/-- FAULT_LOG_READ: the fault log, the snapshot, lost data or the loss report from a start offset. -/
def execFaultLogRead (fn : Nat) (s : State) : Answer := s.command cmdFaultLogRead fn .error

/-! ## SET_REACTION (R374) -/

def cmdSetReaction : Cmd :=
  { opc := 0x0503, used := span 8 10, right := rightCfg, modes := modesPSDU, prot := fun _ _ => true
    check := fun _ r => failIf (match srcClass (r.h 8) with | some c => !c.allowed.contains (r.b 10) | none => true) Status.badParam
    apply := fun r _ _ s =>
      let s := { s with fcs := { s.fcs with react := s.fcs.react.put (r.h 8) (r.b 10) }, mm := { s.mm with reactions := s.mm.reactions.put (r.h 8) (r.b 10) } }
      Res.ok (s.journal 4 annealReq 0) }

/-- SET_REACTION: the reaction of a source class, in force from the commit point on and kept in the metadata. -/
def execSetReaction (fn : Nat) (s : State) : Answer := s.command cmdSetReaction fn .error

/-! ## REINTEGRATE (R390, Table 13.8) -/

/-- The unit is fenced, and not only with a unit that contains it. -/
def State.refencable (s : State) (kind id : Nat) : Bool :=
  if kind = kindEng then decide (id < engCount) && (s.engine id).fenced && !(s.cluster (id / engPerCluster)).fenced
  else if kind = kindCluster then decide (id < 16) && (s.cluster id).fenced
  else if kind = kindMover then decide (id < 64) && (s.mover id).fenced
  else if kind = kindLun then decide (id < 512) && (s.lun id).fenced
  else if kind = kindChan then decide (id < 16) && (s.chan id).fenced
  else if kind = kindFunction then (match fnOf id with | some fn => s.fcs.fencedFns.contains fn | none => false)
  else s.fcs.fencedPorts.contains id

/-- The unit is in a reset or a test; of a LUN, a segment with a block on it has not been relocated yet. -/
def State.unitBusy (s : State) (kind id : Nat) : Bool :=
  let under := fun (c : Nat) => (s.cluster c).resetAt.isSome || (s.cluster c).resetReq || (s.cluster c).out
  if kind = kindEng then (s.engine id).testing || under (id / engPerCluster)
  else if kind = kindCluster then under id
  else if kind = kindLun then s.mm.segs.any (fun g => (g.2.blocks.find id).isSome) || s.runs 0x0801 (fun b => decide (leAt b 8 2 = 4) && decide (leAt b 16 2 = id))
  else false

/-- The cluster reset and test of a fenced cluster: its engines take part in the test, and the cluster stays fenced meanwhile. -/
def State.orderRetest (s : State) (c : Nat) : State :=
  let s := (clusterEngines c).foldl (fun s e => s.updEngine e (fun g => { g with fenced := false })) s
  s.orderReset c

/-- Steps 1 and 2 of R235 on one LUN: its reset, its ID and its parameter page. -/
def State.probeLun (s : State) (l : Nat) : State := ((s.drive (.nandReset l)).drive (.nandId l)).drive (.nandParam l)

/-- The LUN's erased blocks are to be erased again: they wait for a fold of a set without content. -/
def State.recycleLun (s : State) (l : Nat) : State :=
  let n := segKeys + s.mm.nextFl
  let s := { s with mm := { s.mm with nextFl := s.mm.nextFl + 1 } }
  s.updLun l (fun u => { u with fenced := false, present := true, op := .idle, used := u.used ++ u.erased.map (fun b => (b, n)), erased := [] })

/-- The bring-up of a channel: bit x of the first four result bytes says that LUN x answered with its recorded ID, byte 4 how many
trainings failed (R235). -/
def State.rechannel (s : State) (n : Nat) (result : List Byte) : State :=
  let luns := ((List.range 32).filter (fun x => (leAt result 0 4).testBit x)).map (fun x => (32 * n + x, (s.vendor (32 * n + x)).take 22))
  State.bringUp luns (if leAt result 4 1 = 1 then [n] else []) (s.updChan n (fun c => { c with fenced := false })) n

/-- What a passed test does to the unit. -/
def State.reinstate (s : State) (kind id : Nat) (result : List Byte) : State :=
  if kind = kindEng then
    (s.updEngine id (fun g => { g with fenced := false, seated := false, tested := true, passed := false, prog := none, store := [] })).restoreSeat (id / engPerCluster)
  else if kind = kindCluster then s.updCluster id (fun k => { k with fenced := false })
  else if kind = kindMover then s.updMover id (fun m => { m with fenced := false, armed := false, prgMode := false })
  else if kind = kindLun then s.recycleLun id
  else if kind = kindChan then s.rechannel id result
  else if kind = kindFunction then
    (match fnOf id with
    | some fn => ({ s with fcs := { s.fcs with fencedFns := s.fcs.fencedFns.filter (fun f => decide (f ≠ fn)) } } : State).resetFunction fn
    | none => s)
  else { s with fcs := { s.fcs with fencedPorts := s.fcs.fencedPorts.filter (fun p => decide (p ≠ id)) } }

/-- Service returns when no unit is fenced (R385); pinned sets, limits, the fast lane and guarantee-lost are evaluated. -/
def State.afterReturn (s : State) : State :=
  let s := s.repin.reroll.setArmed.relimit.flEval
  (if s.inMode [.degraded] && !s.anyFenced then s.setMode .service else s).evalGuarantee

/-- The end of a REINTEGRATE: result 0x00 or 0x01. A function under reintegration has no queue for a reply of its own. -/
def State.reintegrated (s : State) (r : Req) (pass : Bool) (result : List Byte) : Res :=
  let kind := r.b 8
  let id := r.w 12
  if kind = kindCluster ∧ !s.resetRan id then { Res.ok s with fin := .wait }
  else if pass then
    let x := Res.result (s.reinstate kind id result).afterReturn [0]
    if kind = kindFunction ∧ id = midOf r.dest then { x with fin := .silent } else x
  else Res.result (if kind = kindCluster then s.fenceCluster id else s) [1]

def cmdReintegrate : Cmd :=
  { opc := 0x0502, used := (8, 0xFF) :: span 12 15, right := rightCfg, modes := [.service, .degraded, .update, .diagnostic], long := true
    range := fun r => decide (1 ≤ r.b 8) && decide (r.b 8 ≤ 7)
    check := fun s r => firstFail [
      failIf s.fcs.safeState Status.notPermitted,
      failIf (!s.refencable (r.b 8) (r.w 12)) Status.badParam,
      failIf (s.unitBusy (r.b 8) (r.w 12)) Status.busy]
    begins := fun r s => if r.b 8 = kindCluster then s.orderRetest (r.w 12) else if r.b 8 = kindEng then s.wakeCluster (r.w 12 / engPerCluster)
      else if r.b 8 = kindLun then s.probeLun (r.w 12) else s
    apply := fun r pass result s => s.reintegrated r pass result }

/-- REINTEGRATE: the test of a fenced unit starts; with its outcome the unit returns to service or stays fenced. -/
def execReintegrate (fn : Nat) (st : LStage) (s : State) : Answer := s.longCommand cmdReintegrate fn .error st

/-! ## ENERGY_STATUS and BANK_TEST (R41, R271) -/

/-- Result bytes 8 to 23 of ENERGY_STATUS. -/
def State.energyBody (s : State) : List Byte :=
  leBytes 1 s.lqStatus.toNat ++ leBytes 1 s.lq.limitMib ++ leBytes 2 s.psv.vbankMv ++ leBytes 4 s.psv.cPub ++ leBytes 2 s.tripWord
    ++ leBytes 2 s.lq.tAllowedUs ++ leBytes 4 (s.lq.heldAll / 64)

def cmdEnergyStatus : Cmd :=
  { opc := 0x0601, modes := modesAll, apply := fun _ _ _ s => Res.result s s.energyBody }

/-- ENERGY_STATUS: the Landing limit with what it is computed from. -/
def execEnergyStatus (fn : Nat) (s : State) : Answer := s.command cmdEnergyStatus fn .error

/-- A commanded pulse starts where one can run and the bytes held leave it room; else it is deferred (R271). -/
def State.tryPulse (s : State) : State :=
  if s.pulseReady && s.pulseCovered s.psv.vbankMv then s.beginPulse s.psv.vbankMv true else s

/-- One second has passed since the packet's pulse was deferred. -/
def State.retryDue (s : State) (no : Nat) : Bool := s.mgp.staged.any (fun p => decide (p.no = no) && s.passedMs p.begun 1000)

/-- The result of the commanded pulse, or a further attempt. -/
def State.bankTested (s : State) (r : Req) : Res :=
  match s.psv.testResult with
  | some x => Res.result { s with psv := { s.psv with testResult := none } } (leBytes 4 x.1 ++ leBytes 1 x.2)
  | none =>
    let idle := match s.psv.pulse with | some x => !x.test | none => true
    let again := if idle && s.retryDue r.no then (s.updPacket r.no (fun p => { p with begun := s.tick })).tryPulse else s
    { Res.ok again with fin := .wait }

def cmdBankTest : Cmd :=
  { opc := 0x0602, right := rightCfg, modes := modesSD, long := true, limitMs := fun _ => 30000
    begins := fun _ s => ({ s with psv := { s.psv with testResult := none } } : State).tryPulse
    apply := fun r _ _ s => s.bankTested r }

/-- BANK_TEST: a commanded capacitance pulse and its result. -/
def execBankTest (fn : Nat) (st : LStage) (s : State) : Answer := s.longCommand cmdBankTest fn .error st

end Sys2Proof.Machine
end

