-- ==== Sys2Proof/Machine/ModeCmds.lean ====
section
/-! DEFINITION. MODE_REQUEST (R441, R453, R484, Table 16.2), one row for each target. -/
namespace Sys2Proof.Machine

/-- The packet is executed as its issuer sent it, and not under PROPOSE or RATIFY, whose packet another function is answered for. -/
def Req.direct (r : Req) : Bool := decide (r.fn = r.dest)

/-- The row of a target. -/
def modeRow (m : Mode) (from_ : List Mode) : Cmd :=
  { opc := 0x0B01, takes := fun r => decide (r.b 8 = m.code), used := [(8, 0xFF)], right := rightCfg, modes := from_, apply := fun _ _ _ s => Res.ok s }

/-- The reply after a transition: byte 8 carries the mode entered. -/
def State.entered (s : State) : Res := Res.result s [BitVec.ofNat 8 s.mode.code]

/-- No submission queue is bound to a class-0 crew, no program runs, and the Landing holds no charge. -/
def State.quietChecks (s : State) : Option (BitVec 16) :=
  let c0 := fun (q : Sq) => match q.crew.bind s.crew with | some k => decide (k.cls = 0) | none => false
  firstFail [
    failIf (s.qe.sqs.any (fun q => c0 q.2)) Status.busy,
    failIf (!(s.engsWith (fun p => decide (p.phase ≠ .postwait))).isEmpty) Status.busy,
    failIf (decide (s.lq.heldAll ≠ 0)) Status.busy]

/-- From Service or Degraded a checkpoint that carries the Landing-empty mark is written before the transition (R484). -/
def State.leaveFor (s : State) (m : Mode) : State :=
  ((if s.inMode [.service, .degraded] then s.writeCheckpoint true s.consumed else s).setMode m).evalGuarantee

/-- Targets of Table 16.2. -/
def modeTargets : List Nat := [2, 4, 5, 0xB]

/-- Boot; the row also answers the targets that Table 16.2 does not list. -/
def cmdModeBoot : Cmd :=
  { modeRow .boot [.provision, .service, .degraded, .update, .diagnostic] with
    takes := fun r => decide (r.b 8 = 2) || !modeTargets.contains (r.b 8)
    check := fun _ r => failIf (decide (r.b 8 ≠ 2)) Status.modeWrong
    apply := fun _ _ _ s => { Res.ok (s.powerLoss false false true) with fin := .silent } }

/-- MODE_REQUEST with target Boot: the power-loss sequence without a power loss, then a device reset; no reply is posted. -/
def execModeRequestBoot (fn : Nat) (s : State) : Answer := s.command cmdModeBoot fn .error

/-- Provision: Table 16.2 lists dual consent as the first check. -/
def cmdModeProvision : Cmd :=
  { modeRow .provision modesSD with
    prot := fun _ _ => true
    check := fun s r => firstFail [failIf (s.otp.locked && r.direct) Status.consentPending, s.quietChecks]
    apply := fun _ _ _ s => (s.leaveFor .provision).entered }

/-- MODE_REQUEST with target Provision. -/
def execModeRequestProvision (fn : Nat) (s : State) : Answer := s.command cmdModeProvision fn .error

def cmdModeService : Cmd :=
  { modeRow .service [.provision] with
    check := fun s _ => firstFail [failIf (!s.mm.characterised) Status.busy, failIf s.mm.ckptA.isNone Status.busy]
    apply := fun _ _ _ s => s.endUpdateAtReset.enterService.entered }

/-- MODE_REQUEST with target Service, or Degraded where a unit is fenced (R385). -/
def execModeRequestService (fn : Nat) (s : State) : Answer := s.command cmdModeService fn .error

def cmdModeDiagnostic : Cmd :=
  { modeRow .diagnostic modesPSD with
    check := fun s _ => s.quietChecks
    apply := fun _ _ _ s => (s.leaveFor .diagnostic).entered }

/-- MODE_REQUEST with target Diagnostic. -/
def execModeRequestDiagnostic (fn : Nat) (s : State) : Answer := s.command cmdModeDiagnostic fn .error

end Sys2Proof.Machine
end

