-- ==== Sys2Proof/Machine/Sideband.lean ====
section
/-! DEFINITION. Command packets on the sideband ports (R344, R355, R441, R453): the restricted subset, and the boot ROM's answers. -/
namespace Sys2Proof.Machine

/-- The subset of R355. -/
def sidebandCmds : List Cmd := [cmdIdentify, cmdGetTelemetry, cmdEnergyStatus, cmdFaultLogRead, cmdModeDiagnostic]

/-- A packet as its command reads it: DATA_PTR is ignored, and the MID is the port's (R344, Table 3.7). -/
def sidebandReq (port : Nat) (pkt : List Byte) : Req :=
  { fn := 0, mid := if (uartOf port).isSome then 0x15 else 0x14, pkt := pkt.take 48 ++ leBytes 8 0 ++ pkt.drop 56, data := [], dest := 0, no := 0,
    tag := leAt pkt 4 4 }

def sidebandRow (r : Req) : Option Cmd := sidebandCmds.find? (fun c => decide (r.opc = c.opc) && c.takes r)

/-- The reply, as the 32 bytes of an admin completion with PHASE 0 (DEDUCED, log 54), with at most DATA_LEN bytes of output data; the answer BUSY leaves the
data of the command in hand. -/
def State.sidebandReply (s : State) (port : Nat) (r : Req) (status : BitVec 16) (body out : List Byte) : State :=
  s.sidebandSend port ((s.replyCqe r.tag status body).bytes false) (if status = Status.busy then none else some (out.take r.len))

/-- The mode check of a sideband command: none but MODE_REQUEST's own (R355). -/
def State.sidebandVerdict (s : State) (c : Cmd) (r : Req) : Option (BitVec 16) :=
  if c.opc = 0x0B01 ∧ !s.inMode c.modes then some Status.modeWrong else c.check s r

/-- The Management Processor executes a sideband packet. -/
def State.sidebandRun (s : State) (port : Nat) (pkt : List Byte) : Answer :=
  let r := sidebandReq port pkt
  match sidebandRow r with
  | none => .next (s.sidebandReply port r Status.notPermitted [] [])
  | some c =>
    if r.version ≠ 1 then .next (s.sidebandReply port r Status.badParam [] [])
    else if c.malformed r then .fault .reservedPacket
    else match s.sidebandVerdict c r with
      | some st => .next (s.sidebandReply port r st [] [])
      | none =>
        if r.dry then .next (s.sidebandReply port r Status.success [] [])
        else
          let x := c.apply r true [] s
          .next (x.st.sidebandReply port r x.status x.body x.out)

/-- The boot ROM of a part that stays in Boot: IDENTIFY alone (R453). -/
def State.romRun (s : State) (port : Nat) (pkt : List Byte) : Answer :=
  let r := sidebandReq port pkt
  if r.opc = cmdIdentify.opc then s.sidebandRun port pkt else .next (s.sidebandReply port r Status.modeWrong [] [])

/-- The Management Processor can take a sideband packet up now. -/
def State.sidebandFree (s : State) : Bool := s.mgp.running && !s.mgp.halted && !s.engaged

/-- A packet that waits for its port's turn. -/
def heldPacket (s : State) (pkt : List Byte) : Packet :=
  { fn := 0, mid := 0, bytes := pkt, tick := s.tick, no := 0, started := false, committed := false, begun := 0, resetting := false, inner := none, mute := false }

/-- SIDEBAND_PACKET: a packet of 64 bytes arrives on a sideband port, framed as the port has it (R344); other I²C transactions read replies and
data. While the Management Processor restarts, is halted or has a REINTEGRATE in hand, the port holds the packet, and a second one is answered
BUSY. -/
def execSidebandPacket (port : Nat) (wire : List Byte) (s : State) : Answer :=
  if !s.isSideband port || !s.powered then .next s
  else match sidebandPkt port wire with
  | none => .next (s.sidebandRead port wire)
  | some pkt =>
  if s.inMode [.boot] then (if s.top.bootFail then s.romRun port pkt else .next s)
  else if (s.mgp.sideband.find port).isSome then .next (s.sidebandReply port (sidebandReq port pkt) Status.busy [] [])
  else if s.sidebandFree then s.sidebandRun port pkt
  else if s.mgp.running || s.mgp.restartAt.isSome then
    match s.sidebandRun port pkt with
    | .next _ => .next { s with mgp := { s.mgp with sideband := s.mgp.sideband.put port (heldPacket s pkt) } }
    | x => x
  else .next s

/-- Held packets are executed once the Management Processor is free (one whose effect is undefined was never held). -/
def State.sidebandTick (s : State) : State :=
  if s.sidebandFree then
    s.mgp.sideband.foldl (fun s x =>
      match ({ s with mgp := { s.mgp with sideband := s.mgp.sideband.del x.1 } } : State).sidebandRun x.1 x.2.bytes with
      | .next t => t
      | _ => s) s
  else s

/-- What a step on an empty queue does: one CLK_TIME tick passes (log 7), and held sideband packets are taken up. -/
def State.tickStep (s : State) : State := s.idle.sidebandTick

end Sys2Proof.Machine
end

