-- ==== Sys2Proof/Machine/StoreCmds.lean ====
section
/-! DEFINITION. Commands on streams, regions, vaults, windows and programs (Table 12.4, opcodes 0x0201 to 0x020A). -/
namespace Sys2Proof.Machine

/-! ## Capacity (R57, R256) -/

/-- Bytes that the objects in existence may hold: KEEP_BYTES and PINNED counts and region sizes, without stream `but`. -/
def State.capHeld (s : State) (but : Option Nat) : Nat :=
  sumBy (fun x => if x.2.policy = 1 ∨ but = some x.1 then 0 else x.2.limit) s.mm.streams + sumBy (fun x => x.2.size) s.mm.regions

/-- The generation of the device key that wraps a new object's keys (R60, R408). -/
def State.wrapGen (s : State) (enc : Bool) : Option Nat := if enc then some s.otp.secretGen else none

/-- The random source generates the pair of keys of an encrypted object (R408). -/
def State.drawKeys (s : State) (enc : Bool) : Nat × State := if enc then s.takeFree else (0, s)

/-! ## Streams (R46 to R56, R60) -/

def cmdCreateStream : Cmd :=
  { opc := 0x0201, used := span 8 10 ++ [(11, 1)] ++ span 16 23, right := rightMedia, modes := modesPSDU
    range := fun r => decide (r.b 10 ≤ 2)
    check := fun s r => firstFail [
      failIf (s.mm.streams.has (r.h 8)) Status.badParam,
      failIf (decide (r.b 10 ≠ 1) && decide (s.capUsable < s.capHeld none + r.d 16)) Status.resourceExhausted]
    apply := fun r _ _ s =>
      let enc := (r.b 11).testBit 0
      let (keys, s) := s.drawKeys enc
      let x : Stream := {
        owner := r.mid, enc := enc, policy := r.b 10, limit := r.d 16, next := 0, old := 0, recs := [], reserved := [], lastTs := 0
        full := false, segs := [], wrapped := s.wrapGen enc, keyPair := keys }
      Res.ok (({ s with mm := { s.mm with streams := s.mm.streams.put (r.h 8) x } } : State).journal 4 annealReq 0) }

/-- CREATE_STREAM (R50, R60, R256, R408). -/
def execCreateStream (fn : Nat) (s : State) : Answer := s.command cmdCreateStream fn .error

/-- Whether an accepted or open write belongs to a stream, or to a region. -/
def WKind.ofStream (id : Nat) : WKind → Bool
  | .record st _ _ _ => decide (st = id)
  | .trimStream st _ => decide (st = id)
  | _ => false
def WKind.ofRegion (id : Nat) : WKind → Bool
  | .region r _ _ => decide (r = id)
  | .trimRegion r _ _ => decide (r = id)
  | _ => false

/-- The accepted writes of a deleted object give their charges back (R31). -/
def State.forgetWrites (s : State) (p : WKind → Bool) : State :=
  let f := fun (w : GWrite) => if p w.kind then { w with left := 0, pages := [], rows := [], released := true } else w
  let gs := s.lq.groups.map (fun g => if g.sealed then { g with writes := g.writes.map f } else g)
  ({ s with lq := { s.lq with groups := gs } } : State).settle

/-- The segments of a deleted object are released and their blocks erased; Anneal tasks on them stop. -/
def State.forgetSegs (s : State) (k : SegKind) : State :=
  let ns := s.mm.segs.keys (fun _ g => decide (g.kind = k))
  ns.foldl (fun s n => (s.stopMoves n).dropSeg n) s

/-- The key slot of an object is cleared (R408). -/
def State.clearKey (s : State) (k : Nat) : State := { s with tru := { s.tru with slots := s.tru.slots.filter (fun j => decide (j ≠ k)) } }

def cmdDeleteStream : Cmd :=
  { opc := 0x0202, used := span 8 9, right := rightMedia, modes := modesSDU
    check := fun s r => match s.stream (r.h 8) with
      | none => some Status.badParam
      | some x => failIf (!x.reserved.isEmpty) Status.busy
    apply := fun r _ _ s =>
      let s := (s.forgetWrites (WKind.ofStream (r.h 8))).forgetSegs (.stream (r.h 8))
      let s := { s with mm := { s.mm with streams := s.mm.streams.del (r.h 8) } }
      Res.ok ((s.clearKey (r.h 8)).journal 4 annealReq 0) }

/-- DELETE_STREAM (R60, R408). -/
def execDeleteStream (fn : Nat) (s : State) : Answer := s.command cmdDeleteStream fn .error

def cmdSetRetention : Cmd :=
  { opc := 0x0203, used := span 8 10 ++ span 16 23, right := rightMedia, modes := modesSDU
    range := fun r => decide (r.b 10 ≤ 2)
    check := fun s r => match s.stream (r.h 8) with
      | none => some Status.badParam
      | some x => failIf (decide (r.b 10 ≠ 1) && (decide (x.policy = 1) || decide (x.limit < r.d 16))
          && decide (s.capUsable < s.capHeld (some (r.h 8)) + r.d 16)) Status.resourceExhausted
    apply := fun r _ _ s => Res.ok ((s.updStream (r.h 8) (fun x => { x with
      policy := r.b 10, limit := r.d 16, full := x.full && decide (r.b 10 = 2) && decide (r.d 16 ≤ x.limit) })).journal 4 annealReq 0) }

/-- SET_RETENTION (R50, R51, R256). -/
def execSetRetention (fn : Nat) (s : State) : Answer := s.command cmdSetRetention fn .error

/-! ## Regions (R57) -/

/-- The most that all regions together hold: 64 GiB. -/
def regionsMax : Nat := 64 * 2 ^ 30

def cmdCreateRegion : Cmd :=
  { opc := 0x0204, used := [(8, 0xFF), (11, 1)] ++ span 16 23, right := rightMedia, modes := modesPSDU
    range := fun r => decide (0 < r.d 16) && decide (r.d 16 % (16 * kib) = 0)
    check := fun s r => firstFail [
      failIf (s.mm.regions.has (r.b 8)) Status.badParam,
      failIf (decide (regionsMax < sumBy (fun x => x.2.size) s.mm.regions + r.d 16)) Status.resourceExhausted,
      failIf (decide (s.capUsable < s.capHeld none + r.d 16)) Status.resourceExhausted]
    apply := fun r _ _ s =>
      let enc := (r.b 11).testBit 0
      let (keys, s) := s.drawKeys enc
      let x : Region := { owner := r.mid, size := r.d 16, enc := enc, units := [], durUnits := [], wrapped := s.wrapGen enc, keyPair := keys }
      Res.ok (({ s with mm := { s.mm with regions := s.mm.regions.put (r.b 8) x } } : State).journal 4 annealReq 0) }

/-- CREATE_REGION (R57, R60, R256, R408). -/
def execCreateRegion (fn : Nat) (s : State) : Answer := s.command cmdCreateRegion fn .error

/-- An open group holds a write of the region. -/
def State.regionOpen (s : State) (id : Nat) : Bool := s.lq.groups.any (fun g => !g.sealed && g.writes.any (fun w => w.kind.ofRegion id))

def cmdDeleteRegion : Cmd :=
  { opc := 0x0205, used := [(8, 0xFF)], right := rightMedia, modes := modesSDU
    check := fun s r => if s.mm.regions.has (r.b 8) then failIf (s.regionOpen (r.b 8)) Status.busy else some Status.badParam
    apply := fun r _ _ s =>
      let s := (s.forgetWrites (WKind.ofRegion (r.b 8))).forgetSegs (.region (r.b 8))
      let s := { s with mm := { s.mm with regions := s.mm.regions.del (r.b 8) } }
      Res.ok ((s.clearKey (65536 + r.b 8)).journal 4 annealReq 0) }

/-- DELETE_REGION (R60, R408). -/
def execDeleteRegion (fn : Nat) (s : State) : Answer := s.command cmdDeleteRegion fn .error

/-! ## Vaults and windows (R58, R59, R337) -/

/-- The slot of a pair that is not active. -/
def State.idleSlot (s : State) (pair : Nat) : Nat := 2 * pair + (if s.mm.active.get pair false then 0 else 1)

/-- A signed image: content, then the 2,048-byte block. -/
def imageSplit (data : List Byte) : List Byte × List Byte := (data.take (data.length - 2048), data.drop (data.length - 2048))

/-- The effect of VAULT_INSTALL: the image comes through mover channel 15 and is verified through channel 14 (R15); `sig` is what the arithmetic of the two signatures gives (Table 14.4). -/
def State.installVault (s : State) (r : Req) (pass : Bool) (sig : Nat) : Res :=
  let pair := r.b 8
  let slot := s.idleSlot pair
  let x := imageSplit r.data
  let code := s.verifyCode kindVault x.1 x.2 sig (s.otp.vaultFloors.get pair 0)
  let s := ((s.mgpTransfer 15 r.data.length).hashTransfer r.data.length).noteVerify kindVault code pair
  if code ≠ 0 then Res.fail { s with mm := { s.mm with slots := s.mm.slots.del slot } } Status.protectionFault
  else
    let v : VSlot := { image := x.1, version := leAt x.2 12 4, verified := true, durable := pass }
    Res.result (({ s with mm := { s.mm with slots := s.mm.slots.put slot v } } : State).journal 4 annealReq 0) [BitVec.ofNat 8 slot]

def cmdVaultInstall : Cmd :=
  { opc := 0x0206, used := [(8, 0xFF)], right := rightMedia, modes := modesPSDU, data := .input, need := fun _ => 2048
    range := fun r => decide (r.b 8 < 32) && decide (r.len ≤ 256 * mib)
    long := true, limitMs := fun _ => 10000, verifies := true
    apply := fun r pass result s => s.installVault r pass (leAt result 0 1) }

/-- VAULT_INSTALL (R58, R402 to R407): `pass` says that the image is media-durable, byte 0 of the result what the signatures give. -/
def execVaultInstall (fn : Nat) (d : Rd) (st : LStage) (s : State) : Answer := s.longCommand cmdVaultInstall fn d st

/-- An installed image of the pair's other slot is verified and durable, and no VAULT_INSTALL of the pair runs. -/
def State.mayActivate (s : State) (pair : Nat) : Bool :=
  (match s.mm.slots.find (s.idleSlot pair) with | some v => v.verified && v.durable | none => false)
    && !s.runs 0x0206 (fun b => decide (leAt b 8 1 = pair))

/-- Windows of the pair whose port cycles by itself. -/
def State.autoCycles (s : State) (pair : Nat) : List Nat :=
  (List.range 8).filter (fun n => (s.xt n).cfg.getLsbD 2 && !(s.xt n).cycling && (match (s.xt n).win with | some w => decide (w.1 / 2 = pair) | none => false))

def cmdVaultActivate : Cmd :=
  { opc := 0x0207, used := [(8, 0xFF)], right := rightMedia, modes := modesPSDU
    range := fun r => decide (r.b 8 < 32)
    check := fun s r => failIf (!s.mayActivate (r.b 8)) Status.busy
    apply := fun r _ _ s =>
      let slot := s.idleSlot (r.b 8)
      let s := { s with mm := { s.mm with active := s.mm.active.put (r.b 8) (decide (slot % 2 = 1)) } }
      Res.result ((s.autoCycles (r.b 8)).foldl State.xtStartCycle (s.journal 4 annealReq 0)) [BitVec.ofNat 8 slot] }

/-- VAULT_ACTIVATE (R58, R337). -/
def execVaultActivate (fn : Nat) (s : State) : Answer := s.command cmdVaultActivate fn .error

/-- Bytes that a port's window takes: the one it serves and the one of its next reset cycle never stand together (R59). -/
def Xt.pinned (x : Xt) : Nat := max (match x.nextWin with | some w => w.2.2 | none => 0) x.size

/-- Bytes of the windows of the other ports. -/
def State.pinsBut (s : State) (port : Nat) : Nat := sumBy (fun n => if n = port then 0 else (s.xt n).pinned) (List.range 8)

def cmdPinWindow : Cmd :=
  { opc := 0x0208, used := span 8 9 ++ span 16 27, right := rightMedia, modes := modesPSDU
    range := fun r => decide (r.b 8 < 8) && decide (r.b 9 < 32) && decide (r.d 16 % 4096 = 0) && decide (r.w 24 % 4096 = 0)
    check := fun s r => failIf (decide (16 * mib < r.w 24) || decide (s.partSize 5 < s.pinsBut (r.b 8) + r.w 24)) Status.resourceExhausted
    apply := fun r _ _ s => Res.ok (s.updXt (r.b 8) (fun x => { x with nextWin := some (s.activeSlot (2 * r.b 9), r.d 16, r.w 24) })) }

/-- PIN_WINDOW (R59): the new source is used from the port's next reset cycle. -/
def execPinWindow (fn : Nat) (s : State) : Answer := s.command cmdPinWindow fn .error

/-! ## The program store (R110, R196) -/

def storeSize : Nat := 2 * mib

/-- The store lies at the start of the MGP working-data partition (DESIGN CHOICE, log 63: its place in the partition is not stated). -/
def State.storeBase (s : State) : Nat := s.partBase 6

/-- A stored program is running: a run started in it or stands in it, or a START whose first word admission has read waits (R110, R483). -/
def State.storedRuns (s : State) (x : Stored) : Bool :=
  let inside := fun (a : W64) => decide (x.addr ≤ a.toNat) && decide (a.toNat < x.addr + x.len)
  !(s.engsWith (fun p => p.yard && decide (p.phase ≠ .postwait) && (inside p.start || inside p.pc))).isEmpty
    || s.qe.sqs.any (fun q => q.2.staged.any (fun e => e.hdr.isSome && decide (e.sqe.space = 1) && inside e.sqe.program))

/-- The store without the removed programs. -/
def State.liveStore (s : State) : Tbl Stored := s.eng.store.sel (fun _ x => !x.removed)

/-- The lowest 64-byte aligned place for `n` bytes: each program ends where the next may begin. -/
def placeAfter (n : Nat) : Tbl Stored → Nat → Nat → Option Nat
  | [], at_, lim => if at_ + n ≤ lim then some at_ else none
  | (_, x) :: t, at_, lim => if at_ + n ≤ x.addr then some at_ else placeAfter n t (max at_ (roundUp (x.addr + x.len) 64)) lim

def State.storePlace (s : State) (n : Nat) : Option Nat := placeAfter n s.liveStore s.storeBase (s.storeBase + storeSize)

def State.storeFree (s : State) : Nat := storeSize - sumBy (fun x => roundUp x.2.len 64) s.liveStore

/-- The effect of LOAD_PROGRAM: the program comes through mover channel 15 (R15). -/
def State.loadProgram (s : State) (r : Req) : Res :=
  match s.storePlace r.data.length with
  | none => Res.fail s Status.resourceExhausted
  | some a =>
    let x : Stored := { addr := a, len := r.data.length, fns := BitVec.ofNat 8 (r.b 8), first := r.data.take 16, removed := false, owner := r.mid }
    let s := { s with eng := { s.eng with store := s.liveStore.put a x } }
    let s := ((s.mgpTransfer 15 r.data.length).yardWrite a r.data).dropLines (fun l => l.yard && decide (a ≤ l.addr + 63) && decide (l.addr < a + r.data.length))
    Res.result s (leBytes 8 a ++ leBytes 4 s.storeFree)

def cmdLoadProgram : Cmd :=
  { opc := 0x0209, used := [(8, 0xFF)], right := rightOwn, modes := modesPSDU, data := .input, need := fun _ => 16
    range := fun r => decide (r.len % 16 = 0) && decide (r.len ≤ 64 * kib)
    check := fun s r => failIf (s.storePlace r.len).isNone Status.resourceExhausted
    apply := fun r _ _ s => s.loadProgram r }

/-- LOAD_PROGRAM (R110). -/
def execLoadProgram (fn : Nat) (d : Rd) (s : State) : Answer := s.command cmdLoadProgram fn d

/-- The stored program that an INVALIDATE_PROGRAMS names is one of the function's own. -/
def State.ownStored (s : State) (r : Req) : Bool :=
  match s.eng.store.find (r.d 16) with | some x => !x.removed && decide (x.owner = r.mid) | none => false

/-- Runs of the program to remove have not ended: the command waits for them, until its limit (R110, R351; log 15). -/
def State.removeWaits (s : State) (r : Req) : Bool :=
  (r.b 8).testBit 0 && (match s.eng.store.find (r.d 16) with | some x => s.storedRuns x | none => false)

def cmdInvalidatePrograms : Cmd :=
  { opc := 0x020A, used := [(8, 1)] ++ span 16 23, right := rightOwn, modes := modesPSDU
    check := fun s r => failIf ((r.b 8).testBit 0 && !s.ownStored r) Status.badParam
    apply := fun r _ _ s =>
      if s.removeWaits r then { Res.ok s with fin := .wait } else
      let s := s.updAq r.fn (fun a => { a with invalidates := a.invalidates ++ [r.no] })
      Res.ok (if (r.b 8).testBit 0 then { s with eng := { s.eng with store := s.eng.store.upd (r.d 16) (fun x => { x with removed := true }) } } else s) }

/-- INVALIDATE_PROGRAMS (R110, R196). -/
def execInvalidatePrograms (fn : Nat) (s : State) : Answer := s.command cmdInvalidatePrograms fn .error

end Sys2Proof.Machine
end

