-- ==== Sys2Proof/Machine/DiagCmds.lean ====
section
/-! DEFINITION. DIAG_RUN (Table 12.5), one row for each test: MEDIA_CHARACTERISE (R236, R240 to R242, R263), CLUSTER_TEST (R455),
YARD_TEST and LUN_SCAN. -/
namespace Sys2Proof.Machine

/-- The row of a test code. -/
def diagRow (code : Nat) : Cmd :=
  { opc := 0x0801, takes := fun r => decide (r.h 8 = code), used := span 8 9 ++ span 16 47, right := rightDiag, modes := modesPG, long := true
    apply := fun _ _ _ s => Res.ok s }

/-- The reply of a test: the result bytes, and 0x00 for a pass (DESIGN CHOICE, log 60: 0x01 for a failure). -/
def State.tested (s : State) (pass : Bool) (result : List Byte) : Res :=
  Res.result s (leBytes 4 (leNat (result.take 4)) ++ leBytes 1 (bitN (!pass) 0))

/-! ## MEDIA_CHARACTERISE -/

/-- The entry of the vendor table that a Read ID names. -/
def State.vendorAt (s : State) (id : List Byte) : Option Nat := s.mm.vendor.findIdx? (fun e => decide (e.take 6 = id.take 6))

/-- The LUN answered, has an entry in the vendor table and passed the measurements. -/
def State.probeGood (s : State) (x : LunProbe) : Bool := (s.lun x.lun).present && x.ok && (s.vendorAt x.id).isSome

/-- Its entry and its default thresholds, one for each page type, are recorded (R260). -/
def State.noteProbe (s : State) (x : LunProbe) : State :=
  match s.vendorAt x.id with
  | some v => { s.updLun x.lun (fun u => { u with vend := v }) with mm := { s.mm with
      lunThr := (List.range 4).foldl (fun t k => t.put (4 * x.lun + k) (x.thr.getD k 0)) s.mm.lunThr } }
  | none => s

/-- The geometry of a LUN: planes, page and spare bytes, pages per block, blocks. -/
def State.geometry (s : State) (l : Nat) : List Byte := (s.vendor l).take 7 |>.drop 6 |>.append ((s.vendor l).drop 8 |>.take 14)

/-- Members of the default stripe set k: T(k div 4)/L(k mod 4) on each channel (R236). -/
def defaultMembers (k : Nat) : List Nat := (List.range 16).map (fun c => 32 * c + k)

/-- Raw bytes of a stripe set. -/
def State.rawBytes (s : State) (ms : List Nat) : Nat := sumBy (fun l => s.blocksOf l * s.rowsTlc l * s.pageBytesOf l) ms

/-- The first LUN of geometry `g` on each channel, where every channel has one. -/
def State.otherMembers (s : State) (left : List Nat) (g : List Byte) : Option (List Nat) :=
  let ms := (List.range 16).filterMap (fun c => left.find? (fun l => decide (l / 32 = c) && decide (s.geometry l = g)))
  if ms.length = 16 then some ms else none

/-- Stripe sets of the good LUNs that no default set takes, by ascending number on every channel: Provision assigns members otherwise where a default
set cannot be formed; how is not stated (DESIGN CHOICE, log 109). -/
def State.otherSets (s : State) : Nat → List Nat → List (List Nat)
  | 0, _ => []
  | fuel + 1, left =>
    match left.find? (fun l => decide (l / 32 = 0)) with
    | none => []
    | some l => match s.otherMembers left (s.geometry l) with
      | some ms => ms :: s.otherSets fuel (left.filter (fun k => !ms.contains k))
      | none => s.otherSets fuel (left.filter (fun k => decide (k ≠ l)))

/-- The stripe sets: the default ones whose sixteen LUNs are good and of one geometry, and what the other good LUNs form under the numbers that are left;
up to 16 TiB (R236). -/
def State.formSets (s : State) (good : List Nat) : List (Nat × List Nat) :=
  let one := fun (k : Nat) => (defaultMembers k).all (fun l => good.contains l && decide (s.geometry l = s.geometry k))
  let std := (List.range 32).filter one
  let others := s.otherSets 32 ((List.range 512).filter (fun l => good.contains l && !std.contains (l % 32)))
  let free := (List.range 32).filter (fun k => !std.contains k)
  let all := (std.map (fun k => (k, defaultMembers k))) ++ free.zip others
  (all.foldl (fun (a : List (Nat × List Nat) × Nat) x => if a.2 + s.rawBytes x.2 ≤ 2 ^ 44 then (a.1 ++ [x], a.2 + s.rawBytes x.2) else a) ([], 0)).1

/-- A vendor entry defines pSLC mode where its five bytes are not all 0 (DEDUCED, log 108). -/
def State.pslcDefined (s : State) (l : Nat) : Bool := ((s.vendor l).drop 48 |>.take 5).any (fun b => decide (b ≠ 0))

/-- A LUN that may serve the fast lane: pSLC mode, the suspends and a pSLC program within one are defined, and its budget holds (R240, R245). -/
def State.fastOk (s : State) (l : Nat) : Bool :=
  s.pslcDefined l && decide (leAt (s.vendor l) 43 1 % 8 = 7) && decide (s.flBudgetNs l ≤ 2000000)

/-- The stripe sets take effect, the first `fast` that qualify as fast-lane sets. -/
def State.putSets (s : State) (ks : List (Nat × List Nat)) (fast : Nat) : State :=
  let fl := (ks.filter (fun k => k.2.all s.fastOk)).take (min fast 16)
  let sets := ks.foldl (fun (t : Tbl StripeSet) k => t.put k.1 { members := k.2, fastLane := fl.contains k, low := false }) []
  { s with
    mm := { s.mm with sets := sets }
    fc := { s.fc with luns := s.fc.luns.all (fun l u => { u with fastLane := fl.any (fun k => k.2.contains l) }) } }

/-- Provision refuses a fast lane whose erase takes more than 300 ms (R242). -/
def State.fastFits (s : State) : Bool := s.flLive.all (fun l => decide (s.flTarget * s.tErsUs l true ≤ 300000))

/-- Blocks of a LUN without a factory mark that no segment uses. -/
def State.goodBlocks (s : State) (x : LunProbe) : List Nat :=
  let inUse := fun (b : Nat) => s.mm.segs.any (fun g => decide (g.2.blocks.find x.lun = some b))
  (List.range (s.blocksOf x.lun)).filter (fun b => !x.bad.contains b && !s.mm.retired.contains (x.lun, b) && !inUse b)

/-- The blocks of a member are shared out: on stripe set 0 one for each checkpoint area (R261); fast-lane blocks, twice f_target of them and f_target
erased now (DESIGN CHOICE, log 60: how many blocks are kept as fast-lane blocks at first is not stated); blocks for segments; and replacement blocks beyond
what 65,536 segments can use (R237, R263). -/
def State.shareBlocks (s : State) (cap : Nat) (x : LunProbe) : State :=
  let area := s.areaLuns.contains x.lun
  let all := s.goodBlocks x
  let bs := if area then all.drop 2 else all
  let n := if (s.lun x.lun).fastLane then 2 * s.flTarget else 0
  let empty := segKeys + s.mm.nextFl
  let tlc := bs.drop n
  let put := fun (t : Tbl Nat) (k : Nat) => match all[k]? with | some b => if area then t.put x.lun b else t | none => t
  let s := { s with mm := { s.mm with
    retired := x.bad.foldl (fun r b => if r.contains (x.lun, b) then r else (x.lun, b) :: r) s.mm.retired
    areaA := put s.mm.areaA 0, areaB := put s.mm.areaB 1 } }
  let s := ((bs.take n).take s.flTarget).foldl (fun s b => s.drive (.nandErase x.lun b true)) s
  s.updLun x.lun (fun u => { u with
    erased := (bs.take n).take s.flTarget, used := ((bs.take n).drop s.flTarget).map (fun b => (b, empty)), free := tlc.take cap, repl := tlc.drop cap })

/-- The steps of R263 with what they found; whether stripe sets were formed, and the fast lane as asked for: 16 LUNs at least (R240). -/
def State.characterise (s : State) (probes : List LunProbe) (fast : Nat) : Bool × State :=
  let s := probes.foldl (fun s x => (s.drive (.nandId x.lun)).drive (.nandParam x.lun)) s
  let good := probes.filter s.probeGood
  let s := good.foldl State.noteProbe s
  let ks := s.formSets (good.map (fun x => x.lun))
  let t := s.putSets ks fast
  let fits := t.fastFits && !t.flSets.isEmpty
  let s := if t.fastFits then t else s.putSets ks 0
  let members := good.filter (fun x => ks.any (fun k => k.2.contains x.lun))
  let s := { s with mm := { s.mm with areaA := [], areaB := [] } }
  let s := members.foldl (State.shareBlocks · (segKeys / max 1 ks.length)) s
  let s := { s with mm := { s.mm with nextFl := s.mm.nextFl + 1, characterised := true } }
  (!ks.isEmpty && fits, ((s.writeCheckpoint true s.consumed).flEval).relimit)

/-- The row also answers the test codes that are not listed: BAD_PARAM. -/
def cmdMediaCharacterise (probes : List LunProbe) (fast : Nat) : Cmd :=
  { diagRow 1 with
    takes := fun r => decide (r.h 8 ≤ 1) || decide (4 < r.h 8), modes := [.provision], limitMs := fun _ => 4 * 3600 * 1000
    range := fun r => decide (r.h 8 = 1)
    apply := fun _ pass result s => let x := s.characterise probes fast; x.2.tested (pass && x.1) result }

/-- DIAG_RUN MEDIA_CHARACTERISE: `probes` is what the LUNs showed, `fast` how many stripe sets Provision gives to the fast lane. -/
def execMediaCharacterise (fn : Nat) (st : LStage) (probes : List LunProbe) (fast : Nat) (s : State) : Answer :=
  s.longCommand (cmdMediaCharacterise probes fast) fn .error st

/-! ## A cluster taken out of service (Table 12.10, R455) -/

/-- The cluster is the only one left in the pinned set of a class-0 crew. -/
def State.lastFor (s : State) (c : Nat) : Bool := s.eng.crews.any (fun k => decide (k.2.cls = 0) && decide (k.2.pinned = BitVec.ofNat 16 (2 ^ c)))

/-- The cluster leaves every pinned set, and rejoins them. -/
def State.takeOut (s : State) (c : Nat) : State := (s.updCluster c (fun k => { k with out := true })).repin
def State.putBack (s : State) (c : Nat) : State := (s.updCluster c (fun k => { k with out := false })).repin


/-- The started packet that a request stands for. -/
def State.packetOf (s : State) (r : Req) : Option Packet := s.mgp.staged.find? (fun p => decide (p.no = r.no))

/-- `ms` have passed since the request's packet started. -/
def State.startedMs (s : State) (r : Req) (ms : Nat) : Bool := match s.packetOf r with | some p => s.passedMs p.begun ms | none => true

/-- The request's packet has ordered its reset. -/
def State.resetting (s : State) (r : Req) : Bool := match s.packetOf r with | some p => p.resetting | none => false
def State.noteReset (s : State) (r : Req) : State := s.updPacket r.no (fun p => { p with resetting := true })

/-! ## CLUSTER_TEST -/

/-- A drain of 100 ms at most, then the reset and test; programs still there end with ABORTED_RESET (Table 16.6). -/
def State.clusterTest (s : State) (r : Req) (pass : Bool) (result : List Byte) : Res :=
  let c := r.b 16
  if s.resetting r then
    (if s.resetRan c then (s.putBack c).tested pass result else { Res.ok s with fin := .wait })
  else if (s.busyIn c).isEmpty || s.startedMs r 100 then { Res.ok ((s.orderReset c).noteReset r) with fin := .wait }
  else { Res.ok s with fin := .wait }

def cmdClusterTest : Cmd :=
  { diagRow 2 with
    range := fun r => decide (r.b 16 < 16)
    check := fun s r => failIf (s.lastFor (r.b 16)) Status.busy
    begins := fun r s => s.takeOut (r.b 16)
    apply := fun r pass result s => s.clusterTest r pass result }

/-- DIAG_RUN CLUSTER_TEST. -/
def execClusterTest (fn : Nat) (st : LStage) (s : State) : Answer := s.longCommand cmdClusterTest fn .error st

/-! ## YARD_TEST and LUN_SCAN -/

/-- What the test of a Yard bank leaves in it is not stated: its content stands (DESIGN CHOICE, log 60). -/
def cmdYardTest : Cmd :=
  { diagRow 3 with
    modes := [.diagnostic], limitMs := fun _ => 1000, range := fun r => decide (r.b 16 < 64)
    apply := fun _ pass result s => s.tested pass result }

/-- DIAG_RUN YARD_TEST. -/
def execYardTest (fn : Nat) (st : LStage) (s : State) : Answer := s.longCommand cmdYardTest fn .error st

def cmdLunScan : Cmd :=
  { diagRow 4 with
    limitMs := fun _ => 60000, range := fun r => decide (r.h 16 < 512)
    apply := fun _ pass result s => s.tested pass result }

/-- DIAG_RUN LUN_SCAN. -/
def execLunScan (fn : Nat) (st : LStage) (s : State) : Answer := s.longCommand cmdLunScan fn .error st

end Sys2Proof.Machine
end

