-- ==== Sys2Proof/Machine/TrustCmds.lean ====
section
/-! DEFINITION. KEY_ENROLL (Table 14.6), DEBUG_UNLOCK and the debug challenge: R21, R266, R399 to R410, R416, R417. -/
namespace Sys2Proof.Machine

/-- The row of a KEY_ENROLL item: right KEY, and protected in every case (R354). -/
def keyItem (n : Nat) : Cmd :=
  { opc := 0x0404, takes := fun r => decide (r.b 8 = n), used := [(8, 0xFF)], right := .key, modes := [.provision], prot := fun _ _ => true
    apply := fun _ _ _ s => Res.ok s }

/-! ## Access rules and the consent group (R399, R401, R409) -/

/-- An entry of Table 14.1. -/
def ruleOf (b : List Byte) : Rule :=
  { kind := leAt b 0 1, mid := leAt b 1 1, rights := BitVec.ofNat 16 (leAt b 2 2), first := leAt b 4 4, last := leAt b 8 4 }

/-- The right bits of each kind, and the last object it can name (Table 14.2). -/
def kindRights (k : Nat) : Nat := match k with | 1 => 0xF00 | 2 => 3 | 3 => 7 | 4 => 3 | 5 => 1 | 6 => 0x18 | 7 => 3 | 8 => 3 | 9 => 0x20 | _ => 0
def kindLast (k : Nat) : Nat :=
  match k with | 2 => 2 ^ 27 - 1 | 3 => 0xFFFF | 4 => 255 | 5 => 31 | 6 => 0xFF | 7 => 4095 | 8 => 31 | _ => 0

/-- An entry without a reserved value. -/
def ruleOk (b : List Byte) : Bool :=
  let r := ruleOf b
  decide (1 ≤ r.kind) && decide (r.kind ≤ 9) && isHostMid r.mid && decide (r.rights &&& ~~~ BitVec.ofNat 16 (kindRights r.kind) = 0)
    && decide (r.first ≤ r.last) && decide (r.last ≤ kindLast r.kind) && decide (leAt b 12 4 = 0)

def ruleEntries (r : Req) : List (List Byte) := entriesAt r.data 0 16 (r.data.length / 16)

/-- ACCESS_RULES; the row also answers items that Table 14.6 does not list: BAD_PARAM. -/
def cmdAccessRules : Cmd :=
  { keyItem 1 with
    takes := fun r => decide (r.b 8 ≤ 1) || decide (0x0B < r.b 8), modes := modesPSDU, data := .input, need := fun _ => 16
    range := fun r => decide (r.b 8 = 1) && decide (r.len % 16 = 0) && decide (r.len ≤ 16384)
    check := fun _ r => failIf (!(ruleEntries r).all ruleOk) Status.badParam
    apply := fun r _ _ s => Res.ok { s with tru := { s.tru with rules := (ruleEntries r).map ruleOf } } }

/-- KEY_ENROLL ACCESS_RULES (R399, R401). -/
def execAccessRules (fn : Nat) (d : Rd) (s : State) : Answer := s.command cmdAccessRules fn d

/-- The MIDs of a CONSENT_GROUP packet. -/
def groupOf (r : Req) : List Nat := ((List.range 4).map (fun k => r.b (16 + k))).filter (fun m => decide (m ≠ 0xFF))

def cmdConsentGroup : Cmd :=
  { keyItem 2 with
    used := (8, 0xFF) :: span 16 19
    check := fun _ r => failIf (!(decide (2 ≤ (groupOf r).length) && (groupOf r).all isHostMid && decide (groupOf r).Nodup)) Status.badParam
    apply := fun r _ _ s => Res.ok { s with tru := { s.tru with group := groupOf r } } }

/-- KEY_ENROLL CONSENT_GROUP (R409). -/
def execConsentGroup (fn : Nat) (s : State) : Answer := s.command cmdConsentGroup fn .error

/-! ## Root slots, device key, floors (R403 to R408) -/

def State.rootAt (s : State) (k : Nat) : Root := s.otp.roots.get k { hash := [], programmed := false, revoked := false }

def cmdRootHash : Cmd :=
  { keyItem 3 with
    used := span 8 10, data := .input, need := fun _ => 48
    range := fun r => decide (r.b 9 ≤ 1) && decide (2 ≤ r.b 10) && decide (r.b 10 ≤ 3)
    check := fun s r => failIf (s.rootAt (rootKey (r.b 9) (r.b 10))).programmed Status.badParam
    apply := fun r _ _ s =>
      let k := rootKey (r.b 9) (r.b 10)
      Res.ok { s with otp := { s.otp with roots := s.otp.roots.put k { s.rootAt k with hash := r.data.take 48, programmed := true } } } }

/-- KEY_ENROLL ROOT_HASH (R403). -/
def execRootHash (fn : Nat) (d : Rd) (s : State) : Answer := s.command cmdRootHash fn d

/-- Another slot of the same algorithm and group can still verify (R405). -/
def State.rootLeft (s : State) (alg slot : Nat) : Bool :=
  (List.range 4).any (fun k => decide (k ≠ slot) && decide (k / 2 = slot / 2) && (s.rootAt (rootKey alg k)).programmed && !(s.rootAt (rootKey alg k)).revoked)

def cmdRootRevoke : Cmd :=
  { keyItem 4 with
    used := span 8 10, modes := modesPSDU
    range := fun r => decide (r.b 9 ≤ 1) && decide (r.b 10 ≤ 3)
    check := fun s r => failIf (!s.rootLeft (r.b 9) (r.b 10)) Status.badParam
    apply := fun r _ _ s =>
      let k := rootKey (r.b 9) (r.b 10)
      Res.ok { s with otp := { s.otp with roots := s.otp.roots.put k { s.rootAt k with revoked := true } } } }

/-- KEY_ENROLL ROOT_REVOKE (R405). -/
def execRootRevoke (fn : Nat) (s : State) : Answer := s.command cmdRootRevoke fn .error

/-- Every object key is wrapped under the next generation of the device key. -/
def State.rotateKey (s : State) : State :=
  let g := s.otp.secretGen + 1
  let st := fun (_ : Nat) (x : Stream) => { x with wrapped := x.wrapped.map (fun _ => g) }
  let rg := fun (_ : Nat) (x : Region) => { x with wrapped := x.wrapped.map (fun _ => g) }
  ({ s with otp := { s.otp with secretGen := g }, mm := { s.mm with streams := s.mm.streams.all st, regions := s.mm.regions.all rg } } : State).journal 4 annealReq 0

def cmdDeviceKeyRotate : Cmd :=
  { keyItem 5 with
    modes := modesPSD, long := true, limitMs := fun _ => 600000
    check := fun s _ => failIf (decide (3 ≤ s.otp.secretGen)) Status.resourceExhausted
    apply := fun _ _ _ s => Res.ok s.rotateKey }

/-- KEY_ENROLL DEVICE_KEY_ROTATE (R408). -/
def execDeviceKeyRotate (fn : Nat) (st : LStage) (s : State) : Answer := s.longCommand cmdDeviceKeyRotate fn .error st

def cmdRollbackFloor : Cmd :=
  { keyItem 6 with
    used := (8, 0xFF) :: span 12 15, modes := modesSD
    check := fun s r => failIf (decide (64 < r.w 12) || decide (r.w 12 < s.rollbackFloor)) Status.badParam
    apply := fun r _ _ s => Res.ok (s.raiseFloor (r.w 12)) }

/-- KEY_ENROLL ROLLBACK_FLOOR (R406). -/
def execRollbackFloor (fn : Nat) (s : State) : Answer := s.command cmdRollbackFloor fn .error

def cmdVaultFloor : Cmd :=
  { keyItem 7 with
    used := span 8 9 ++ span 12 15, modes := modesPSDU
    range := fun r => decide (r.b 9 < 32)
    check := fun s r => failIf (decide (r.w 12 < s.otp.vaultFloors.get (r.b 9) 0)) Status.badParam
    apply := fun r _ _ s => Res.ok { s with otp := { s.otp with vaultFloors := s.otp.vaultFloors.put (r.b 9) (r.w 12) } } }

/-- KEY_ENROLL VAULT_FLOOR (R407). -/
def execVaultFloor (fn : Nat) (s : State) : Answer := s.command cmdVaultFloor fn .error

/-! ## Locked registers, the Yard partition, the vendor table (R21, R266, R416) -/

/-- A locked register and the record of it take a new value (DEDUCED, log 62: both). -/
def State.writeLocked (s : State) (off : Nat) (v : W32) : State :=
  let s := (s.rwlWrite off v).getD s
  { s with tru := { s.tru with lockedRec := s.tru.lockedRec.put off (s.rwlRead off) } }

def cmdLockedWrite : Cmd :=
  { keyItem 8 with
    used := (8, 0xFF) :: span 12 19, modes := modesPSD
    range := fun r => rwlOffsets.contains (r.w 12)
    undef := fun r => rwlOffsets.contains (r.w 12) && (State.reset.rwlWrite (r.w 12) (BitVec.ofNat 32 (r.w 16))).isNone
    apply := fun r _ _ s => Res.ok (s.writeLocked (r.w 12) (BitVec.ofNat 32 (r.w 16))).relimit.flEval.evalGuarantee }

/-- KEY_ENROLL LOCKED_WRITE (R410, R416). -/
def execLockedWrite (fn : Nat) (s : State) : Answer := s.command cmdLockedWrite fn .error

/-- The sizes of a YARD_PARTITION, and whether R21 allows them. -/
def partsOf (d : List Byte) : List Nat := (entriesAt d 0 4 8).map (fun x => leAt x 0 4)
def partsOk (l : List Nat) : Bool :=
  let p := fun (k : Nat) => l.getD k 0
  decide (sumBy id l = 128) && decide (p 4 = 16) && decide (p 6 = 8) && decide (4 ≤ p 0) && decide (p 0 ≤ 32) && decide (24 ≤ p 5) && decide (p 5 ≤ 48)
    && [1, 2, 3, 7].all (fun k => decide (4 ≤ p k))

def cmdYardPartition : Cmd :=
  { keyItem 9 with
    data := .input, need := fun _ => 32
    check := fun _ r => failIf (!partsOk (partsOf r.data)) Status.badParam
    apply := fun r _ _ s => Res.ok { s with top := { s.top with nextParts := some (partsOf r.data) } } }

/-- KEY_ENROLL YARD_PARTITION (R21): it takes effect at the next device reset. -/
def execYardPartition (fn : Nat) (d : Rd) (s : State) : Answer := s.command cmdYardPartition fn d

/-- The entries of a media vendor table. -/
def vendorEntries (d : List Byte) : List (List Byte) := entriesAt d 64 256 (leAt d 3 1)

/-- The checks of R266. -/
def vendorOk (d : List Byte) : Bool :=
  let n := leAt d 3 1
  let es := vendorEntries d
  let zero := fun (b : List Byte) => b.all (fun x => decide (x = 0))
  decide (leAt d 0 2 = 0xD2EC) && decide (leAt d 2 1 = 1) && decide (1 ≤ n) && decide (n ≤ 16) && decide (64 + 256 * n ≤ d.length)
    && zero ((d.drop 4).take 56) && decide (leAt d 60 4 = (crc32c (d.take 60 ++ (d.drop 64).take (256 * n))).toNat)
    && decide (es.map (fun e => e.take 6)).Nodup && es.all (fun e => decide (leAt e 43 1 < 16) && zero ((e.drop 90).take 166))

/-- A new vendor table; a LUN keeps the entry of its ID bytes. -/
def State.putVendor (s : State) (es : List (List Byte)) : State :=
  let at_ := fun (id : List Byte) => (es.findIdx? (fun e => decide (e.take 6 = id))).getD 16
  let lun := fun (l : Nat) (u : Lun) => { u with vend := at_ ((s.vendor l).take 6) }
  { s with fc := { s.fc with luns := s.fc.luns.all lun }, mm := { s.mm with vendor := es } }

def cmdVendorTable : Cmd :=
  { keyItem 10 with
    data := .input, need := fun _ => 64
    check := fun _ r => failIf (!vendorOk r.data) Status.badParam
    apply := fun r _ _ s => Res.ok (s.putVendor (vendorEntries r.data)) }

/-- KEY_ENROLL VENDOR_TABLE (R266). -/
def execVendorTable (fn : Nat) (d : Rd) (s : State) : Answer := s.command cmdVendorTable fn d

/-! ## The provisioning lock (R416) -/

/-- The four conditions of the lock: no owner slot of either algorithm may be unprogrammed (DEDUCED: the lock asks for all four, log 117). -/
def State.lockReady (s : State) : Bool :=
  decide (2 ≤ s.tru.group.length) && [0, 1].all (fun a => [2, 3].all (fun k => (s.rootAt (rootKey a k)).programmed))
    && !s.tru.rules.isEmpty && s.psv.provisioned

/-- The lock: the device secret, the fuse, the lock bits with the record of what they lock, and Service. -/
def State.lock (s : State) : State :=
  let s := { s with otp := { s.otp with locked := true, secret := true } }
  ({ s with tru := { s.tru with lockedRec := rwlOffsets.map (fun o => (o, s.rwlRead o)) } } : State).enterService

def cmdProvisionLock : Cmd :=
  { keyItem 11 with
    check := fun s _ => if s.otp.locked then some Status.modeWrong else failIf (!s.lockReady) Status.busy
    apply := fun _ _ _ s => Res.ok s.lock }

/-- KEY_ENROLL PROVISION_LOCK (R408, R416). -/
def execProvisionLock (fn : Nat) (s : State) : Answer := s.command cmdProvisionLock fn .error

/-! ## Debug (R417, Table 14.8) -/

/-- A fresh challenge for a level. -/
def State.issueChallenge (s : State) (level : Nat) : State :=
  let (i, s) := s.takeFree
  { s with tru := { s.tru with challenge := some (level, (Config.challenge i).take 32, s.tick) } }

def cmdDebugUnlock : Cmd :=
  { opc := 0x0405, used := [(8, 0xFF)], right := .key, modes := modesPG, prot := fun _ _ => true
    range := fun r => decide (r.b 8 = 1) || decide (r.b 8 = 2)
    apply := fun r _ _ s => Res.ok (s.issueChallenge (r.b 8)) }

/-- DEBUG_UNLOCK (R417). -/
def execDebugUnlock (fn : Nat) (s : State) : Answer := s.command cmdDebugUnlock fn .error

/-- DEBUG_STATE: the level in force (Table 14.9). -/
def State.debugEvent (s : State) : State := s.trustEvent 0x0082 0xFFFF (BitVec.ofNat 64 s.tru.debugLevel)

/-- The challenge is over. -/
def State.endChallenge (s : State) : State := ({ s with tru := { s.tru with challenge := none } } : State).debugEvent

/-- A debug level is unlocked until the next device reset; at the full level every key slot is cleared. -/
def State.unlockDebug (s : State) (level : Nat) : State :=
  let t := { s.tru with debugLevel := max level s.tru.debugLevel }
  let t := if level = 2 then { t with slots := [], keysCleared := true } else t
  ({ s with tru := t } : State).evalGuarantee

/-- DEBUG_UNLOCK_SIGNATURE: the debug host writes a signature by owner ECDSA slot `slot` into the unlock register; `valid` is what its
arithmetic gives. A failure leaves a level that an earlier unlock gave in force (DEDUCED, log 57: it lasts until the next device reset). -/
def execDebugUnlockSignature (slot : Nat) (valid : Bool) (s : State) : Answer :=
  match s.tru.challenge with
  | none => .next s
  | some c =>
    if !s.passedMs c.2.2 60000 then
      let r := s.rootAt (rootKey 0 slot)
      let good := valid && decide (slot = 2 ∨ slot = 3) && r.programmed && !r.revoked
      .next (if good then s.unlockDebug c.1 else s).endChallenge
    else .next s

/-- DEBUG_CHALLENGE_EXPIRY: 60 s have passed without a valid signature. -/
def execDebugChallengeExpiry (s : State) : Answer :=
  match s.tru.challenge with
  | none => .next s
  | some c => occurs s (s.passedMs c.2.2 60000) State.endChallenge

end Sys2Proof.Machine
end

