-- ==== Sys2Proof/Machine/UpdateCmds.lean ====
section
/-! DEFINITION. Live update (R357 to R365, Tables 12.7 to 12.11). -/
namespace Sys2Proof.Machine

/-- The update is in one of these states; else MODE_WRONG (R357). -/
def State.updIn (s : State) (l : List Nat) : Option (BitVec 16) := failIf (!l.contains s.mgp.upd.state) Status.modeWrong

def State.updUpd (s : State) (f : Update → Update) : State := { s with mgp := { s.mgp with upd := f s.mgp.upd } }

/-- A command that is not at its commit point yet. -/
def Res.wait (s : State) : Res := { Res.ok s with fin := .wait }

/-! ## UPDATE_BEGIN and UPDATE_STAGE (R358, Table 12.7) -/

/-- Bytes reserved for the package. -/
def stagingSize : Nat := 4 * mib

/-- Base of the reservation; where it lies in the port staging partition is not stated (DESIGN CHOICE: at its base, log 115). -/
def State.stagingBase (s : State) : Nat := s.partBase 7

/-- The package as it stands in the staging. -/
def State.package (s : State) : List Byte := s.yard.read s.stagingBase s.mgp.upd.length

/-- The reservation. -/
def State.beginUpdate (s : State) (n : Nat) : State := (s.setMode .update).updUpd (fun _ => { Update.none with state := 1, length := n })

def cmdUpdateBegin : Cmd :=
  { opc := 0x0701, used := span 8 11, right := rightUpd, modes := modesSD
    range := fun r => decide (r.w 8 ≤ stagingSize)
    check := fun s _ => firstFail [
      s.updIn [0], failIf s.fcs.lost Status.modeWrong, failIf (decide (s.partSize 7 < stagingSize)) Status.resourceExhausted]
    apply := fun r _ _ s => Res.ok (s.beginUpdate (r.w 8)) }

/-- UPDATE_BEGIN: Update mode, and the staging reserved. -/
def execUpdateBegin (fn : Nat) (s : State) : Answer := s.command cmdUpdateBegin fn .error

/-- Offset of the package's signature block. -/
def pkgBlockAt (b : List Byte) : Nat := leAt b 28 4

/-- The rules of Table 12.7, the rollback index apart. -/
def State.headerOk (s : State) (b : List Byte) : Bool :=
  decide (leAt b 0 4 = 0xD2E95055) && decide (s.mgp.fwVersion < leAt b 4 4) && decide (leAt b 8 4 ≤ s.mgp.fwVersion)
    && decide (s.mgp.mediaFormat ≤ leAt b 16 1) && (List.range 16).all (fun c => decide ((s.cluster c).minor ≤ leAt b 17 1))
    && decide (leAt b 20 4 ≤ 3 * mib) && decide (leAt b 24 4 ≤ 32 * kib) && ((b.drop 32).take 32).all (fun x => decide (x = 0))

/-- The result code of the package's signature block. -/
def State.pkgCode (s : State) (b : List Byte) (sig : Nat) : Nat :=
  s.verifyCode kindPackage (b.take (pkgBlockAt b)) ((b.drop (pkgBlockAt b)).take 2048) sig s.rollbackFloor

/-- What the verification of a whole package answers. -/
def State.pkgStatus (s : State) (b : List Byte) (code : Nat) : Option (BitVec 16) :=
  firstFail [
    failIf (decide (1 ≤ code) && decide (code ≤ 6)) Status.protectionFault,
    failIf (decide (code = 7) || decide (leAt b 12 4 < s.rollbackFloor)) Status.notPermitted,
    failIf (!s.headerOk b) Status.badParam]

/-- The package is verified: state 0x02 with what its header names. -/
def Update.accept (u : Update) (b : List Byte) (img : Image) : Update :=
  { u with state := 2, version := leAt b 4 4, index := leAt b 12 4, format := leAt b 16 1, minor := leAt b 17 1, build := leAt b 18 2, image := img }

/-- Package bytes at their offset, moved into the staging on channel 15; the last byte brings the verification, on channel 14 (R15). -/
def State.stage (s : State) (r : Req) (sig : Nat) (img : Image) : Res :=
  let off := r.w 8
  let s := (s.mgpTransfer 15 r.data.length).yardWrite (s.stagingBase + off) r.data
  if r.data.isEmpty ∨ off + r.data.length ≠ s.mgp.upd.length then Res.result s [1]
  else
    let b := s.package
    let code := s.pkgCode b sig
    let s := (s.hashTransfer b.length).noteVerify kindPackage code 0xFFFF
    match s.pkgStatus b code with
    | some st => Res.fail s st
    | none => Res.result (s.updUpd (fun u => u.accept b img)) [2]

def cmdUpdateStage (img : Image) : Cmd :=
  { opc := 0x0702, used := span 8 11, right := rightUpd, modes := modesAll, data := .input, long := true, limitMs := fun _ => 2000
    check := fun s r => firstFail [s.updIn [1], failIf (decide (s.mgp.upd.length < r.w 8 + r.len)) Status.badParam]
    apply := fun r _ result s => s.stage r (leAt result 0 1) img }

/-- UPDATE_STAGE: byte 0 of the result is what the arithmetic of the signatures gives; `img` is the boot image that the package carries, at
places the manual does not state (DESIGN CHOICE: operands, log 58). -/
def execUpdateStage (fn : Nat) (d : Rd) (st : LStage) (img : Image) (s : State) : Answer := s.longCommand (cmdUpdateStage img) fn d st

/-! ## UPDATE_ADVANCE step 0x00 (R359) -/

/-- The row also answers steps that are not listed: BAD_PARAM. -/
def cmdUpdateFirmware : Cmd :=
  { opc := 0x0703, takes := fun r => decide (r.b 8 ≠ 1), used := span 8 11, right := rightUpd, modes := modesAll, long := true, limitMs := fun _ => 1000
    range := fun r => decide (r.b 8 = 0)
    check := fun s _ => s.updIn [2]
    begins := fun _ s => { s with mgp := { s.mgp with running := false, restartAt := some s.tick } }
    apply := fun _ _ _ s => Res.ok s }

/-- The Management Processor runs again. -/
def State.warmStart (s : State) (version : Nat) : State :=
  { s with
    mgp := { s.mgp with running := true, restartAt := none, servedAt := s.tick, restarts := satAdd 8 s.mgp.restarts 1, fwVersion := version }
    tru := { s.tru with verifyLast := 0xFFFF0001 } }

/-- The new firmware reports ready, and posts the reply. -/
def State.newFirmware (s : State) (p : Packet) : State :=
  let s := (s.warmStart s.mgp.upd.version).updUpd (fun u => { u with state := 3 })
  State.finish p (Res.result (s.updateEvent 0x0060 0xFFFF 3) [3])

/-- It has not reported ready: the old image runs, and the update ends. -/
def State.oldFirmware (s : State) (p : Packet) : State :=
  let s := (s.warmStart s.mgp.fwVersion).endUpdate 4
  State.finish p (Res.fail s.enterService Status.busy)

/-- The started step 0x00 of `fn`, whose restart is under way. -/
def State.restarting (s : State) (fn : Nat) : Option Packet :=
  s.mgp.staged.find? (fun p => decide (p.fn = fn) && p.started && cmdUpdateFirmware.is p)

/-- UPDATE_ADVANCE step 0x00: the warm restart, and the firmware that reports ready within 500 ms, or does not. -/
def execUpdateFirmwareRestart (fn : Nat) (st : LStage) (s : State) : Answer :=
  match st with
  | .start => s.command cmdUpdateFirmware fn .error
  | .commit ready _ =>
    match s.restarting fn with
    | none => .next s
    | some p =>
      let late := s.passedMs p.begun 500
      if ready && !late then .next (s.newFirmware p) else if !ready && late then .next (s.oldFirmware p) else .next s

/-! ## UPDATE_ADVANCE step 0x01 (R360 to R362, Table 12.10) -/

/-- Clusters to which a program of cluster `c` may move (R361). -/
def State.moveSet (s : State) (c : Nat) (p : Prog) : List Nat :=
  let need := match p.hdr with | some h => h.minMinor | none => (s.cluster c).minor
  match s.crew p.crew with
  | some k => (maskClusters k.pinned).filter (fun d => decide (d ≠ c) && decide (need ≤ (s.cluster d).minor))
  | none => []

/-- One program of cluster `c` moves, where it is of class 2 or 3, at a handover point, and a seat is free. -/
def State.moveOut (c : Nat) (s : State) (e : Nat) : State :=
  match s.prog e with
  | some p =>
    if 2 ≤ p.cls ∧ p.atHandover then
      match s.seatFor p.crew 0 16 (s.moveSet c p) with
      | some f => s.handover e f
      | none => s
    else s
  | none => s

/-- Step 2 of Table 12.10: programs at a handover point move. -/
def State.drainCluster (s : State) (c : Nat) : State := (s.busyIn c).foldl (State.moveOut c) s

/-- Steps 3 and 4: the microcode is swapped, and the reset and test ordered. -/
def State.swapCluster (s : State) (c minor build : Nat) : State :=
  let s := s.updCluster c (fun k => { k with ucodeMinor := minor, ucodeBuild := build })
  (s.applyOrder c .ucodeSwap).orderReset c

/-- UPDATE_STEP of a cluster. -/
def State.stepEvent (s : State) (c : Nat) : State :=
  s.updateEvent 0x0060 c (s.mgp.upd.state + (s.cluster c).minor * 2 ^ 8 + (s.cluster c).build * 2 ^ 16)

/-- µs since the request's packet started. -/
def State.startedUs (s : State) (r : Req) : Nat := match s.packetOf r with | some p => s.sinceNs p.begun / usNs | none => 0

def drainMs (r : Req) : Nat := if r.h 10 = 0 then 100 else r.h 10

/-- Result of a step 0x01 (Table 12.9). -/
def State.stepResult (s : State) (c : Nat) : Res :=
  Res.result (s.stepEvent c) (leBytes 1 s.mgp.upd.state ++ leBytes 1 c ++ leBytes 4 s.mgp.upd.drainUs)

/-- The further steps of cluster `c`, each when it can be taken. An abandon that begins meanwhile takes the cluster over (DEDUCED, log 58). -/
def State.updateCluster (s : State) (r : Req) : Res :=
  let c := r.b 9
  if s.mgp.upd.state ≠ 4 then
    (if !s.resetting r then Res.fail s Status.busy else if s.resetRan c then s.stepResult c else Res.wait s)
  else if s.resetting r then
    (if s.resetRan c then ((s.putBack c).settleUpdate).stepResult c else Res.wait s)
  else
    let s := s.drainCluster c
    if (s.busyIn c).isEmpty then
      let us := s.startedUs r
      let s := s.updUpd (fun u => { u with drainUs := us, swapped := c :: u.swapped })
      Res.wait ((s.swapCluster c s.mgp.upd.minor s.mgp.upd.build).noteReset r)
    else if s.startedMs r (drainMs r) then Res.fail (s.putBack c).settleUpdate Status.busy
    else Res.wait s

def cmdUpdateCluster : Cmd :=
  { opc := 0x0703, takes := fun r => decide (r.b 8 = 1), used := span 8 11, right := rightUpd, modes := modesAll, long := true
    limitMs := fun r => drainMs r + 1000
    range := fun r => decide (r.b 9 < 16) && decide (r.h 10 ≤ 10000)
    check := fun s r => firstFail [
      s.updIn [3, 4],
      failIf ((List.range 16).any (fun c => (s.cluster c).out) || (s.cluster (r.b 9)).fenced || s.lastFor (r.b 9) || s.mgp.upd.swapped.contains (r.b 9))
        Status.busy]
    begins := fun r s => (s.takeOut (r.b 9)).updUpd (fun u => { u with state := 4 })
    apply := fun r _ _ s => s.updateCluster r }

/-- UPDATE_ADVANCE step 0x01: a cluster drains, swaps its microcode, is reset and tested, and rejoins. -/
def execUpdateCluster (fn : Nat) (st : LStage) (s : State) : Answer := s.longCommand cmdUpdateCluster fn .error st

/-! ## UPDATE_COMMIT (R363, R445) -/

/-- The new image in one NOR: its unselected area, then its selector. -/
def State.writeNor (s : State) (n : Nat) (img : Image) : State :=
  let old := s.top.nor.find n
  let area := match old with | some (_, a, _) => !a | none => false
  let gen := match old with | some (g, _, _) => g + 1 | none => 1
  ({ s with top := { s.top with nor := s.top.nor.put n (gen, area, img) } } : State).drive (.norImage n area gen img)

/-- A step of the commit has been written and verified: XH1, XH0, which is the commit point, then the checkpoint, the floor and the image area, and
the update ends. -/
def State.commitUpdate (s : State) (r : Req) : Res :=
  let u := s.mgp.upd
  match u.written with
  | 0 => Res.wait ((s.writeNor 1 u.image).updUpd (fun u => { u with written := 1, raise := (r.b 8).testBit 0 }))
  | 1 => Res.wait (((s.writeNor 0 u.image).updUpd (fun u => { u with written := 2 })).updPacket r.no (fun p => { p with committed := true }))
  | _ =>
    let s := s.closeCommit
    let s := ({ s with top := { s.top with image := u.image } } : State).enterService
    Res.result (s.endUpdate 1) (leBytes 1 u.format)

def cmdUpdateCommit : Cmd :=
  { opc := 0x0704, used := [(8, 1)], right := rightUpd, modes := modesAll, long := true, limitMs := fun _ => 60000, prot := fun _ _ => true
    check := fun s r => firstFail [s.updIn [5], failIf ((r.b 8).testBit 0 && decide (64 < s.mgp.upd.index)) Status.badParam]
    begins := fun _ s => s.updUpd (fun u => { u with prior := u.state, state := 6, written := 0 })
    apply := fun r pass _ s => if pass then s.commitUpdate r else Res.wait s }

/-- UPDATE_COMMIT: it starts, and each further command finds its next step written and verified. -/
def execUpdateCommit (fn : Nat) (st : LStage) (s : State) : Answer := s.longCommand cmdUpdateCommit fn .error st

/-! ## UPDATE_ABANDON (R364) -/

/-- Programs of cluster `c` that cannot run on the old minor end at a handover point. -/
def State.endTooNew (s : State) (c minor : Nat) : State :=
  (s.busyIn c).foldl (fun s e => match s.prog e with
    | some p => if decide (minor < minMinorOf p.hdr) && p.atHandover then s.clearEngine e Ending.versionMismatch else s
    | none => s) s

/-- The return of one cluster to the old microcode; after its drain limit of 100 ms the reset ends what still runs there (DEDUCED, log 58, Table
16.6: an abandon is never refused). -/
def State.returnCluster (s : State) (r : Req) (c : Nat) : State :=
  let img := s.top.image
  if !(s.cluster c).out then (s.takeOut c).updPacket r.no (fun p => { p with begun := s.tick, resetting := false })
  else if s.resetting r then
    if s.resetRan c then
      let s := (s.putBack c).updUpd (fun u => { u with swapped := u.swapped.filter (fun d => decide (d ≠ c)) })
      (s.stepEvent c).updPacket r.no (fun p => { p with resetting := false })
    else s
  else
    let s := (s.endTooNew c img.minor).drainCluster c
    if (s.busyIn c).isEmpty || s.startedMs r 100 then (s.swapCluster c img.minor img.build).noteReset r else s

/-- Cluster after cluster, then the old firmware; the update ends. -/
def State.abandonUpdate (s : State) (r : Req) : Res :=
  match s.mgp.upd.swapped with
  | c :: _ => Res.wait (s.returnCluster r c)
  | [] =>
    let s := if 3 ≤ s.mgp.upd.prior then s.warmStart (leAt s.top.image.config 20 4) else s
    Res.ok (s.enterService.endUpdate 2)

def cmdUpdateAbandon : Cmd :=
  { opc := 0x0705, right := rightUpd, modes := modesAll, long := true, limitMs := fun _ => 60000
    check := fun s _ => s.updIn [1, 2, 3, 4, 5]
    begins := fun _ s => ((List.range 16).foldl (fun s c => if (s.cluster c).out then s.putBack c else s) s).updUpd (fun u => { u with prior := u.state, state := 7 })
    apply := fun r _ _ s => s.abandonUpdate r }

/-- UPDATE_ABANDON: every cluster and the firmware return to the old image. -/
def execUpdateAbandon (fn : Nat) (st : LStage) (s : State) : Answer := s.longCommand cmdUpdateAbandon fn .error st

end Sys2Proof.Machine
end

