-- ==== Sys2Proof/Machine/Consent.lean ====
section
/-! DEFINITION. Dual consent (R354, R409 to R415): PROPOSE, RATIFY, WITHDRAW and the expiry of a proposal; and the limit of a command
(R351), which needs the whole catalogue. -/
namespace Sys2Proof.Machine

/-- The catalogue: every row of Tables 12.4, 12.5, 12.9 and 14.6. -/
def commandTable : List Cmd :=
  [cmdCreateSq, cmdDeleteSq, cmdCreateCq, cmdDeleteCq, cmdCreateCrew, cmdDeleteCrew, cmdBindSq] ++
  [cmdCreateStream, cmdDeleteStream, cmdSetRetention, cmdCreateRegion, cmdDeleteRegion, cmdVaultInstall, cmdVaultActivate, cmdPinWindow,
    cmdLoadProgram, cmdInvalidatePrograms] ++
  [cmdSlotTableWrite, cmdSlotTableSwap, cmdSetWeights, cmdClass0Contract] ++
  [cmdAccessRules, cmdConsentGroup, cmdRootHash, cmdRootRevoke, cmdDeviceKeyRotate, cmdRollbackFloor, cmdVaultFloor, cmdLockedWrite,
    cmdYardPartition, cmdVendorTable, cmdProvisionLock, cmdDebugUnlock] ++
  [cmdFaultLogRead, cmdReintegrate, cmdSetReaction, cmdEnergyStatus, cmdBankTest] ++
  [cmdUpdateBegin, cmdUpdateStage Image.empty, cmdUpdateFirmware, cmdUpdateCluster, cmdUpdateCommit, cmdUpdateAbandon] ++
  [cmdMediaCharacterise [] 0, cmdClusterTest, cmdYardTest, cmdLunScan, cmdMediaReport] ++
  [cmdPortConfig, cmdTimeSet, cmdTimeDiscipline, cmdModeBoot, cmdModeProvision, cmdModeService, cmdModeDiagnostic, cmdIdentify, cmdGetTelemetry]

/-- The row that takes a packet. -/
def cmdOf (r : Req) : Option Cmd := commandTable.find? (fun c => decide (r.opc = c.opc) && c.takes r)

/-! ## Proposals (R411, R412) -/

/-- The image of R411: TAG, DATA_PTR and byte 63 are taken as 0. -/
def consentImage (b : List Byte) : List Byte := b.take 4 ++ leBytes 4 0 ++ (b.drop 8).take 40 ++ leBytes 8 0 ++ (b.drop 56).take 7 ++ [0]

/-- The protected command as its rows read it: under the proposing function, answered to packet `no` of function `to`. -/
def innerReq (fn dest no tag : Nat) (image data : List Byte) : Req :=
  { fn := fn, mid := midOf fn, pkt := image, data := data, dest := dest, no := no, tag := tag }

/-- The command that a PROPOSE carries. -/
def proposed (r : Req) : Req := innerReq r.fn 8 r.no r.tag (consentImage (r.data.take 64)) (r.data.drop 64)

def consentOpcs : List Nat := [0x0401, 0x0402, 0x0403]

/-- What R412 refuses with BAD_PARAM, the lengths apart. -/
def State.notProposable (s : State) (r : Req) : Bool :=
  let x := proposed r
  consentOpcs.contains x.opc || x.dry || (match cmdOf x with | some c => !c.prot s x | none => true)

/-- The proposals that still can be ratified. -/
def State.pendingProp (s : State) (id : Nat) : Option Proposal :=
  s.tru.props.find? (fun x => decide (x.id = id) && !s.passedMs x.tick 10000)

/-- The proposal is stored under the next id; its digest stands in the reply, and the keyholders hear of it. -/
def State.propose (s : State) (r : Req) : Res :=
  let x := proposed r
  let p : Proposal := { id := s.tru.propNext, mid := r.mid, packet := x.pkt, data := x.data, digest := sha384 (x.pkt ++ x.data), tick := s.tick }
  let s := { s with tru := { s.tru with props := s.tru.props ++ [p], propNext := s.tru.propNext + 1 } }
  let s := s.trustEvent 0x0080 x.opc (BitVec.ofNat 64 (p.id + p.mid * 2 ^ 32))
  { Res.result s (leBytes 4 p.id ++ p.digest.take 4) with status := Status.consentPending }

def cmdPropose : Cmd :=
  { opc := 0x0401, right := .key, modes := modesPSDUG, data := .input, need := fun _ => 64
    range := fun r => decide (r.data.length < 64) || decide (r.len = 64 + (proposed r).len)
    check := fun s r => firstFail [
      failIf s.tru.group.isEmpty Status.notPermitted,
      failIf (s.notProposable r) Status.badParam,
      (cmdOf (proposed r)).bind (fun c => s.verdict c (proposed r) true),
      failIf (decide (8 ≤ s.tru.props.length)) Status.resourceExhausted]
    apply := fun r _ _ s => s.propose r }

/-- The packet that a PROPOSE carries is malformed, and nothing refuses it before (R11). -/
def State.proposeUndef (s : State) (p : Packet) (d : Rd) : Bool :=
  match dataOf d p.len with
  | none => false
  | some data =>
    let r := p.req data
    let x := proposed r
    cmdPropose.inRange r true && s.holdsRight r.mid .key && s.inMode modesPSDUG && !s.notProposable r && decide (x.version = 1)
      && (match cmdOf x with | some c => c.malformed x | none => false)

/-- PROPOSE: a protected command is checked under the proposing MID and waits for its ratification. -/
def execPropose (fn : Nat) (d : Rd) (s : State) : Answer :=
  match s.turn with
  | some p => if p.fn = fn ∧ cmdPropose.is p ∧ s.proposeUndef p d then .fault .reservedPacket else s.command cmdPropose fn d
  | none => .next s

/-! ## RATIFY (R413) -/

/-- The command of a proposal, under its proposer. -/
def Proposal.req (x : Proposal) (dest no tag : Nat) : Req := innerReq ((fnOf x.mid).getD 0) dest no tag x.packet x.data

/-- What RATIFY finds: a refusal, with the proposal that it ends and its outcome; or the command that takes effect. -/
inductive Ratified where
  | refuse (st : BitVec 16) (ends : Option (Proposal × Nat))
  | go (x : Proposal) (c : Cmd)

/-- Steps 1 to 4 of R413, in their order; a second background command of the opcode is refused as one of the checks (R351). -/
def State.ratified (s : State) (r : Req) : Ratified :=
  match s.pendingProp (r.w 8) with
  | none => .refuse Status.consentExpired none
  | some x =>
    if r.mid = x.mid then .refuse Status.notPermitted none
    else if r.data.take 48 ≠ x.digest then .refuse Status.badParam (some (x, 5))
    else
      let q := x.req r.fn r.no r.tag
      match cmdOf q with
      | none => .refuse Status.badParam (some (x, 2))
      | some c =>
        match s.verdict c q true with
        | some st => .refuse st (some (x, 2))
        | none =>
          let me : Packet := { fn := r.fn, mid := r.mid, bytes := r.pkt, tick := s.tick, no := r.no, started := false, committed := false
                               begun := 0, resetting := false, inner := some x, mute := false }
          if s.longBusy c me then .refuse Status.busy (some (x, 2)) else .go x c

/-- The proposal is no longer pending. -/
def State.dropProp (s : State) (x : Proposal) : State :=
  { s with tru := { s.tru with props := s.tru.props.filter (fun y => decide (y.id ≠ x.id)) } }

/-- CONSENT_RESOLVED after the protected command: committed, or refused by checks that only its work could make. -/
def Res.resolve (z : Res) (x : Proposal) (mid : Nat) : Res :=
  { z with st := z.st.consentResolved x (if z.status = Status.success then 1 else 2) mid }

/-- Step 5: the command takes effect, or starts in the background. -/
def State.carryOut (s : State) (r : Req) (x : Proposal) (c : Cmd) : Res :=
  let q := x.req r.fn r.no r.tag
  let s := s.dropProp x
  if c.long then
    let s := s.updPacket r.no (fun p => { p with started := true, begun := s.tick, inner := some x })
    { Res.ok (c.begins q s) with fin := .wait }
  else (c.apply q true [] s).resolve x r.mid

/-- The effect of RATIFY; with DRY_RUN it only answers. -/
def State.ratify (s : State) (r : Req) : Res :=
  match s.ratified r with
  | .refuse st ends =>
    match (if r.dry then none else ends) with
    | some (x, o) => Res.fail (s.endProps (fun y => decide (y.id = x.id)) o r.mid) st
    | none => Res.fail s st
  | .go x c => if r.dry then Res.ok s else s.carryOut r x c

def cmdRatify : Cmd :=
  { opc := 0x0402, used := span 8 11, right := .key, modes := modesPSDUG, data := .input, need := fun _ => 48, verifies := true
    check := fun s _ => failIf s.tru.group.isEmpty Status.notPermitted
    apply := fun r _ _ s => s.ratify r }

/-- The started RATIFY of `fn` whose command runs in the background. -/
def State.ratifying (s : State) (fn : Nat) : Option (Packet × Proposal) :=
  if s.mgpActs then
    s.mgp.staged.findSome? (fun p => if p.fn = fn ∧ p.works then p.inner.map (fun x => (p, x)) else none)
  else none

/-- The commit point of a background command under RATIFY. -/
def State.commitRatified (s : State) (p : Packet) (x : Proposal) (pass : Bool) (result : List Byte) : State :=
  let q := x.req p.fn p.no (leAt p.bytes 4 4)
  match cmdOf q with
  | none => s
  | some c =>
    if !c.long then s
    else
      let z := c.apply q pass result s
      State.finish p (if z.fin = .wait then z else z.resolve x p.mid)

/-- RATIFY: a second keyholder's consent; the protected command takes effect. -/
def execRatify (fn : Nat) (d : Rd) (st : LStage) (s : State) : Answer :=
  match st with
  | .start => s.command cmdRatify fn d
  | .commit pass result =>
    match s.ratifying fn with
    | some (p, x) => .next (s.commitRatified p x pass result)
    | none => .next s

/-! ## WITHDRAW and the expiry (R412, R414) -/

def cmdWithdraw : Cmd :=
  { opc := 0x0403, used := span 8 11, right := .key, modes := modesPSDUG
    check := fun s r => failIf (s.pendingProp (r.w 8)).isNone Status.badParam
    apply := fun r _ _ s => Res.ok (s.endProps (fun x => decide (x.id = r.w 8)) 4 r.mid) }

/-- WITHDRAW: a keyholder ends a pending proposal. -/
def execWithdraw (fn : Nat) (s : State) : Answer := s.command cmdWithdraw fn .error

/-- CONSENT_EXPIRY: 10 s of CLK_TIME ticks have passed since the PROPOSE. -/
def execConsentExpiry (id : Nat) (s : State) : Answer :=
  occurs s (s.tru.props.any (fun x => decide (x.id = id) && s.passedMs x.tick 10000)) (fun s => s.endProps (fun x => decide (x.id = id)) 3 0x3F)

/-! ## The limit of a command (R351) -/

/-- The limit of a packet in ms; a command that runs under RATIFY has its own. -/
def Packet.limit (p : Packet) : Nat :=
  let r := { p.req [] with pkt := p.eff }
  match cmdOf r with | some c => c.limitMs r | none => 10

/-- The limit of the packet has passed, and it is not past its commit point. -/
def State.overdue (s : State) (p : Packet) : Bool := !p.past && s.passedMs p.tick p.limit

/-- COMMAND_LIMIT_EXPIRY: the command ends with BUSY and has no effect. No reply is posted while the Management Processor stands. -/
def execCommandLimitExpiry (fn : Nat) (tag : W32) (s : State) : Answer :=
  if s.mgpActs then
    match s.mgp.staged.find? (fun p => decide (p.fn = fn) && decide (leAt p.bytes 4 4 = tag.toNat) && s.overdue p) with
    | some p => .next ((s.undoCmd p).replyTo p Status.busy [] [])
    | none => .next s
  else .next s

end Sys2Proof.Machine
end

