-- ==== Sys2Proof/Machine/PortWords.lean ====
section
/-! DEFINITION. The words that act on ports (R95, R99, R346): PORT_OUT, PORT_IN, SENSE and the CONTROL orders. -/
namespace Sys2Proof.Machine

/-! ## PORT_OUT and PORT_IN (Table 11.9) -/

def formPort (inw : Bool) : Form := { spaces := [spPort], gpref := false, buffer := true, spn := true, drp := inw, modeMask := 0 }

/-- Reserved port ids and reserved bits of a sub-address (Tables 3.5, 11.9). -/
def subUndef (id sub : Nat) (inw : Bool) : Bool :=
  if !portListed id then true
  else if id ≤ 3 then (if inw then decide (4096 ≤ sub) else decide (sub / 1024 ≠ 0) || decide (sub / 8 % 32 ≠ 0))
  else if (dreqOf id).isSome then decide (65536 ≤ sub)
  else if (xtOf id).isSome then false
  else if (uartOf id).isSome then (if inw then decide (65536 ≤ sub) else decide (sub ≠ 0))
  else if (i2cOf id).isSome then decide (128 ≤ sub)
  else decide (sub ≠ 0)

/-- A length a port does not take (R327, Table 11.9). -/
def lenUndef (id n : Nat) (inw : Bool) : Bool :=
  !inw && ((decide (id ≤ 3) && (decide (n < 14) || decide (9212 < n))) || (decide (id = 0x40) && decide (n ≠ 4)))

/-- The checks of a PORT word. -/
def State.portChecks (s : State) (p : Prog) (w : Ccw) (inw : Bool) : Option Bad :=
  let id := w.port
  let n := opLen p.op
  firstBad [undefIf (decide (w.space.toNat = spPort) && (subUndef id w.portSub inw || (decide (n ≠ 0) && lenUndef id n inw))),
    opChecks (formPort inw) p 0 0 inw
      [badIf (xtOf id).isSome Ending.programFault 0,
       badIf (match dreqOf id with | some k => !(s.dreq k).bound | none => false) Ending.programFault 0]
      [s.portDenied p id false,
       badIf (inw && decide (id ≤ 3) && !s.holds p.mid 7 (w.portSub % 4096) 0) Ending.protectionFault 0,
       if inw && w.drp then none else s.pieceDenied p (p.pieces p.op) inw]]

/-- DEVSTAT of a port word: DEV_END, what the port reported, and a pending ATTENTION (Table 3.15). -/
def portDev (x : Xfer) (attention : Bool) : Byte := 1 ||| (x.devstat &&& 0x02) ||| (if attention then 0x08 else 0)

/-- A port word moves its bytes on a mover channel (R299). What it could not move yet comes with a later command, which takes a channel
again: no mover waits for a port (log 90). -/
def State.portCarry (s : State) (e : Nat) (w : Ccw) (f : Prog → State → State) : State :=
  s.carry e w (fun p s => (f p s).dropChan e dsOk)

/-- The whole operation has moved. -/
def State.portDone (m : Moved) (e : Nat) (mismatch : Bool) (dev : Byte) : State := State.endData m e 0 mismatch dev (fun p => p)

/-! ### Request lines (R303, R340, R341) -/

/-- Bytes of a burst of a word on a request line: the whole operation where the sub-address is 0. -/
def boundBurst (w : Ccw) (len : Nat) : Nat := if w.portSub % 65536 = 0 then len else w.portSub % 65536 * 64

/-- A word on a bound line is carried on the bound channel, as a paced descriptor: it waits there while another descriptor holds it (R303). -/
def State.bindWord (s : State) (e n : Nat) (w : Ccw) : State :=
  match s.prog e with
  | none => s
  | some p =>
    let d := s.dreq n
    if p.chan.isSome || (s.mvCh d.mover d.channel).active.isSome || !s.descMode d.mover then s
    else
      let x := p.desc w e (Config.freeWord s.free) (BitVec.ofNat 32 (Config.freeNat (s.free + 1)))
      let x := { x with paced := true, burst := (boundBurst w (opLen p.op) + 63) / 64 }
      let s := ({ s with free := s.free + 2 } : State).updProg e (fun p => { p with xf := p.xf.map (fun y => { y with chan := some (d.mover, d.channel) }) })
      (s.updMvCh d.mover d.channel (fun k => { k with active := some x, moved := 0, deadline := if p.cls = 1 then p.deadline else 0 })).enter d.mover d.channel

/-- One burst on a bound request line: it waits for a request, consumes exactly one, moves the burst between ring and buffer, drives DACKn,
and advances the ring by the full burst. On a LEVEL line a deassertion ends it short: the burst moves what the outside supplied, in 64 B
units, and nothing while the line is not asserted (R303, R340, R341). -/
def State.portBurst (s : State) (e n : Nat) (w : Ccw) (inw : Bool) (x : Xfer) : State :=
  let s := s.bindWord e n w
  match s.prog e with
  | none => s
  | some p =>
    if !s.carried p then s
    else
      let d := s.dreq n
      let len := opLen p.op
      let burst := boundBurst w len
      let want := min burst (len - p.moved)
      let go := if d.isLevel then
          (if !d.level then 0 else if inw && x.status = .ok then min want (if x.data.length < want then x.data.length / 64 * 64 else want) else want)
        else want
      let buf := slicePieces (p.pieces p.op) p.moved go
      let ring := d.ringPieces go
      let g := s.collect e (if inw then ring else buf) true x
      let bs := g.bytes.take go
      let s := if inw then (if w.drp then g.st else State.scatter e p.fn buf bs g.st) else State.scatter e d.ringFn ring bs g.st
      let s := (s.ringAdvance n burst).acknowledge n
      let short := decide (go < want)
      let i := if inw && !w.drp then pieceIndex (p.pieces p.op) (p.moved + bs.length) else 0
      let s := State.wordProgress { bytes := bs.length, fail := g.fail.map (fun f => (if inw then i else f.1, f.2)), st := s } e p len 0
        short short (portDev x false) (fun p => p)
      if (s.prog e).bind Prog.chan = some (d.mover, d.channel) then s.burstOver d.mover d.channel else s

/-! ### Frames (R327) -/

/-- PORT_OUT on a Field Port: one frame enters the transmit queue of its class; it waits while the queue is full, and a link
that is down ends it with LINK_FAULT (R327). -/
def State.portOutFrame (s : State) (e f : Nat) (w : Ccw) (x : Xfer) : State :=
  let fp := s.fport f
  let tc := w.portSub % 8
  let room := match s.prog e with | some p => decide (fp.queued tc + opLen p.op ≤ txQueueSize) | none => true
  if !s.fpUp f || decide (x.status = .link) then s.endAtWord e Ending.linkFault 0
  else if !room then s
  else s.portCarry e w (fun p s =>
    let g := s.collect e (p.pieces p.op) false x
    let bs := if w.portSub.testBit 8 then Config.udpInsert g.bytes else g.bytes
    let bs := bs ++ List.replicate (60 - bs.length) 0
    let t : TxFrame := { bytes := bs, prio := tc, stamp := w.portSub.testBit 9 }
    let s := if g.fail.isSome then g.st else g.st.updFport f (fun q => { q with tx := q.tx ++ [t] })
    State.portDone { bytes := g.bytes.length, fail := g.fail, st := s } e false (portDev x fp.attention))

/-- PORT_IN on a Field Port: the next packet of a Cell Pool queue, as a MOVE from CELLQ (R90, R327): a packet that holds more words than
the operation takes is a mismatch too, and the rest of it is discarded (R76, R95). A fenced port ends it with LINK_FAULT (R383). -/
def State.portInFrame (s : State) (e f : Nat) (w : Ccw) (x : Xfer) : State :=
  if s.fcs.fencedPorts.contains f then s.endAtWord e Ending.linkFault 0
  else s.portCarry e w (fun p s =>
    let q := w.portSub % 4096
    let ps := p.pieces p.op
    let n := opLen p.op
    let rest := (s.cpq q).packet.length - (n + 3) / 4
    let g := s.collect e [{ space := spCellq, addr := BitVec.ofNat 64 q, len := n }] (!w.drp && ps.any (fun y => decide (y.space = spHost))) x
    let s := State.cpSkip q rest g.st
    let s := if w.drp then s else State.scatter e p.fn ps g.bytes s
    State.portDone { bytes := g.bytes.length, fail := failAt ps g.bytes.length g.fail, st := s } e (decide (g.bytes.length < n) || decide (0 < rest))
      (portDev x (s.fport f).attention))

/-! ### UART, I²C, GPIO (R342, R343) -/

/-- PORT_IN on a UART takes received bytes as they come; it completes at COUNT bytes, or short at its idle gap (R343). -/
def State.portInUart (s : State) (e n : Nat) (w : Ccw) (x : Xfer) (gap : Bool) : State :=
  if (s.uart n).rx.isEmpty && !gap then s
  else s.portCarry e w (fun p s =>
    let u := s.uart n
    let ps := p.pieces p.op
    let len := opLen p.op
    let bs := u.rx.take (len - p.moved)
    let s := s.updUart n (fun u => { u with rx := u.rx.drop bs.length })
    let m := s.deliverTo e p (slicePieces ps p.moved bs.length) bs w.drp x
    let short := gap && decide (p.moved + bs.length < len)
    State.wordProgress { m with fail := failAt ps (p.moved + m.bytes) m.fail } e p len 0 short short (portDev x u.attention) (fun p => p))

/-- PORT_OUT on a UART: the bytes enter the transmit path (R343). -/
def State.portOutUart (s : State) (e n : Nat) (w : Ccw) (x : Xfer) : State :=
  s.portCarry e w (fun p s =>
    let g := s.collect e (p.pieces p.op) false x
    State.portDone { bytes := g.bytes.length, fail := g.fail, st := g.st.drive (.uart n g.bytes) } e false (portDev x (s.uart n).attention))

/-- I²C transfers: a NACK ends the word with UNIT_CHECK at the byte it met (R343). For an input `x` carries the bytes the
target sent; on a NACK it carries the bytes moved before it. -/
def State.portI2c (s : State) (e n : Nat) (w : Ccw) (inw : Bool) (x : Xfer) : State :=
  s.portCarry e w (fun p s =>
    let nack := x.devstat.getLsbD 1
    let len := opLen p.op
    let ps := p.pieces p.op
    let note := fun (s : State) (k : Nat) => if nack then s.updI2c n (fun c => { c with nack := BitVec.ofNat 32 k }) else s
    if inw then
      let bs := x.data.take len
      let m := s.deliverTo e p ps bs w.drp x
      State.portDone { m with fail := failAt ps m.bytes m.fail, st := note m.st m.bytes } e (!nack && decide (bs.length < len)) (portDev x false)
    else
      let g := s.collect e ps false x
      let bs := if nack then g.bytes.take x.data.length else g.bytes
      State.portDone { bytes := bs.length, fail := if nack then none else g.fail, st := (note g.st bs.length).drive (.i2c n w.portSub bs) }
        e false (portDev x false))

/-- PORT_OUT on the GPIO port: the levels of the 32 lines (R342). -/
def State.portOutGpio (s : State) (e : Nat) (w : Ccw) (x : Xfer) : State :=
  s.portCarry e w (fun p s =>
    let g := s.collect e (p.pieces p.op) false x
    let t := if g.fail.isSome then g.st else g.st.gpioWrite 0xFFFFFFFF (BitVec.ofNat 32 (leNat g.bytes))
    State.portDone { bytes := g.bytes.length, fail := g.fail, st := t } e false (portDev x s.lpc.gpioAttention))

/-- PORT_IN on the GPIO port: the four bytes of its levels, any other COUNT being a mismatch (R76, R342). -/
def State.portInGpio (s : State) (e : Nat) (w : Ccw) (x : Xfer) : State :=
  s.portCarry e w (fun p s =>
    let len := opLen p.op
    let ps := p.pieces p.op
    let m := s.deliverTo e p ps ((leBytes 4 s.lpc.gpioIn.toNat).take len) w.drp x
    State.portDone { m with fail := failAt ps m.bytes m.fail } e (decide (len ≠ 4)) (portDev x s.lpc.gpioAttention))

/-- PORT_OUT: buffer to port (R95). -/
def execPortOut (e : Nat) (x : Xfer) (s : State) : Answer :=
  s.dataWord e 0x16 (fun p w s => s.portChecks p w false) (plainStart e) (fun _ _ w s =>
    let id := w.port
    match fpOf id, dreqOf id, uartOf id, i2cOf id with
    | some f, _, _, _ => s.portOutFrame e f w x
    | none, some n, _, _ => s.portBurst e n w false x
    | none, none, some n, _ => s.portOutUart e n w x
    | none, none, none, some n => s.portI2c e n w false x
    | none, none, none, none => s.portOutGpio e w x)

/-- PORT_IN: port to buffer; what the port delivers short or beyond the operation's length is a mismatch (R95). -/
def execPortIn (e : Nat) (x : Xfer) (s : State) : Answer :=
  s.dataWord e 0x17 (fun p w s => s.portChecks p w true) (plainStart e) (fun _ _ w s =>
    let id := w.port
    match fpOf id, dreqOf id, uartOf id, i2cOf id with
    | some f, _, _, _ => s.portInFrame e f w x
    | none, some n, _, _ => s.portBurst e n w true x
    | none, none, some n, _ => s.portInUart e n w x false
    | none, none, none, some n => s.portI2c e n w true x
    | none, none, none, none => s.portInGpio e w x)

/-- Bit times in nanoseconds at a UART's baud rate. -/
def Uart.bitNs (u : Uart) (bits : Nat) : Nat := bits * 1000000000 / max 1 (fld u.cfg 0 22)

/-- The engine whose PORT_IN waits on UART `n`: the one that began first. -/
def State.gapReader (s : State) (n : Nat) : Option Nat :=
  let waits := s.engsWith (fun p => match p.op.head? with
    | some w => decide (p.phase = .fetched) && decide (w.opc = 0x17) && decide (w.port = 0x30 + n) && decide (w.space.toNat = spPort)
    | none => false)
  minBy (fun e => match s.prog e with | some p => p.execAt | none => 0) waits

/-- UART_IDLE_GAP: the line has been idle for the gap of a PORT_IN that waits on it, which ends short (R343). -/
def execUartIdleGap (n : Nat) (s : State) : Answer :=
  match s.gapReader n with
  | none => .next s
  | some e =>
    s.dataWord e 0x17 (fun p w s => s.portChecks p w true) (plainStart e) (fun p _ w s =>
      let last := max (s.uart n).lastAt p.execAt
      if (s.uart n).bitNs (w.portSub % 65536) ≤ s.sinceNs last then s.portInUart e n w Xfer.none true else s)

/-! ## SENSE (R99) -/

/-- Sense data of a port, and a selector it does not list (Table 11.9). What the manual gives a size and no layout is free
bytes (log 2). -/
def State.senseData (s : State) (id sel : Nat) : Option (List Byte × State) :=
  match fpOf id, dreqOf id, xtOf id, uartOf id, i2cOf id with
  | some f, _, _, _, _ =>
    if sel = 0 then some (s.takeFreeBytes 8)
    else if sel = 1 then some (leBytes 8 (s.fport f).txTs.toNat, s) else none
  | none, some n, _, _, _ =>
    let d := s.dreq n
    let c := s.mvCh d.mover d.channel
    let pend := if d.bound then c.pending else d.pending
    if sel = 0 then some (leBytes 4 d.off.toNat ++ [BitVec.ofNat 8 (pend % 16 + bitN (d.bound && c.reqOvr) 4), 0, 0, 0], s) else none
  | none, none, some n, _, _ =>
    if sel = 0 then some (leBytes 4 (s.xtStatus n).toNat, s)
    else if sel = 1 then some (leBytes 4 (s.xt n).records ++ leBytes 4 (s.xt n).werr, s) else none
  | none, none, none, some _, _ => if sel = 0 then some (s.takeFreeBytes 4) else none
  | none, none, none, none, some n => if sel = 0 then some (leBytes 4 (s.i2c n).nack.toNat, s) else none
  | none, none, none, none, none => if sel = 0 then some (leBytes 4 s.lpc.gpioStatus.toNat, s) else none

/-- Whether a port holds a pending ATTENTION, and clearing it. -/
def State.attention (s : State) (id : Nat) : Bool :=
  match fpOf id, xtOf id, uartOf id with
  | some f, _, _ => (s.fport f).attention
  | none, some n, _ => (s.xt n).attention
  | none, none, some n => (s.uart n).attention
  | none, none, none => decide (id = 0x40) && s.lpc.gpioAttention

def State.clearAttention (s : State) (id : Nat) : State :=
  match fpOf id, xtOf id, uartOf id with
  | some f, _, _ => s.updFport f (fun x => { x with attention := false })
  | none, some n, _ => s.updXt n (fun x => { x with attention := false })
  | none, none, some n => s.updUart n (fun x => { x with attention := false, overrun := false })
  | none, none, none => if id = 0x40 then { s with lpc := { s.lpc with gpioAttention := false } } else s

/-- What a SENSE word holds that no table lists: a reserved part, a MODE beyond bit 0, a COUNT outside 1 to 256, a port that Table 3.5 does
not name, a selector that Table 11.9 does not list. For the selector no rule names an outcome: it counts as a reserved part (DESIGN CHOICE,
log 87). -/
def State.senseUndef (s : State) (p : Prog) (w : Ccw) : Bool :=
  let n := w.count.toNat
  w.reservedBits || decide (1 < w.mode.toNat) || decide (n = 0) || decide (256 < n)
    || (decide (w.space.toNat = spPort) && (!portListed w.port || (s.senseData w.port w.portSub).isNone))
    || (w.buf.isNone && bufferSpace (fld w.sub 4 4) && addrReserved (fld w.sub 4 4) (p.getGp (fld w.sub 0 4)))

/-- The checks of a SENSE. -/
def State.senseChecks (s : State) (p : Prog) (w : Ccw) : Option Bad :=
  let buf := p.bufPiece w
  firstBad [
    undefIf (s.senseUndef p w),
    badIf (p.overBounds w.count.toNat 0) Ending.programFault 0,
    badIf (decide (w.space.toNat ≠ spPort)) Ending.programFault 0,
    badIf (w.buf.isNone && !bufferSpace (fld w.sub 4 4)) Ending.programFault 0,
    badIf (rangeBad buf.space buf.addr w.count.toNat) Ending.programFault 0,
    flagChecks p w false false,
    s.portDenied p w.port false,
    s.pieceDenied p [buf] true]

/-- SENSE: up to COUNT bytes of a port's sense data; data of another length is a mismatch; MODE[0] clears a pending ATTENTION
(R76, R99). -/
def execSense (e : Nat) (x : Xfer) (s : State) : Answer :=
  s.atWord e (fun w => decide (w.opc = 0x41)) (fun p w s =>
    let id := w.port
    let n := w.count.toNat
    let buf := p.bufPiece w
    s.checked e (s.senseChecks p w)
      (fun s =>
        match s.senseData id w.portSub with
        | none => s
        | some d =>
          let bs := d.1.take n
          let att := s.attention id
          let m := d.2.deliverTo e p [{ buf with len := bs.length }] bs false x
          let dev := portDev x att
          match m.fail with
          | some f => m.st.endAtWord e f.2 0
          | none =>
            let s := if w.mode.getLsbD 0 then m.st.clearAttention id else m.st
            let mis := decide (d.1.length ≠ n)
            if mis && !w.tol then s.endAtWord e Ending.lengthMismatch 0
            else (s.updProg e (fun p => { (p.deviceDone bs.length 0 dev) with c := mis })).completeWord e .next))

/-! ## CONTROL (R99, Table 11.9) -/

/-- The checks of a CONTROL order, with an operand or without (R99, R108). -/
def State.orderChecks (s : State) (p : Prog) (w : Ccw) (operand : Bool) : Option Bad :=
  firstBad [
    undefIf (w.reservedBits || decide (w.mode ≠ 0) || decide (w.count ≠ 0)
      || (if operand then decide (2 ^ 32 ≤ w.portSub) else decide (w.portSub ≠ 0))),
    badIf (p.overBounds 0 0) Ending.programFault 0,
    flagChecks p w false false,
    s.portDenied p w.port true]

/-- A CONTROL word of order `k` on a port that `m` selects. Operand bits that are not 0 where Table 11.9 gives the order no operand count as a
reserved part, which no rule says (DESIGN CHOICE, log 87). A busy port refuses the order with DEVSTAT.BUSY; otherwise `f` has
its effect, with further DEVSTAT bits (R99, R101). -/
def State.orderWord (s : State) (e k : Nat) (m : Nat → Option Nat) (operand : Bool) (x : Xfer) (busy : Nat → State → Bool)
    (f : Nat → Ccw → State → Byte × State) : Answer :=
  s.atWord e (fun w => decide (w.opc = 0x40) && decide (w.space.toNat = spPort) && (m w.port).isSome && decide (w.sub.toNat = k))
    (fun p w s =>
      match m w.port with
      | none => .next s
      | some n =>
        s.checked e (s.orderChecks p w operand)
          (fun s =>
            let att : Byte := if s.attention w.port then 0x08 else 0
            let r := if x.busy || busy n s then ((0x10 : Byte), s) else f n w s
            (r.2.updProg e (fun p => p.deviceDone 0 0 (1 ||| r.1 ||| att))).completeWord e .next))

/-- Never busy of its own. -/
def notBusy (_ : Nat) (_ : State) : Bool := false

/-- Device time at which a committed gate list takes effect: its base time when that lies in the future, else the first
base + N × cycle that does (R328). -/
def gateStart (now : Nat) (g : Gcl) : Nat :=
  if now < g.base.toNat then g.base.toNat
  else g.base.toNat + ((now - g.base.toNat) / max 1 g.cycle + 1) * max 1 g.cycle

/-- The entries of an admin list in use: up to the last one with an interval (DEDUCED, log 45). -/
def trimEntries (l : List (Nat × Nat)) : List (Nat × Nat) := (l.reverse.dropWhile (fun e => decide (e.2 = 0))).reverse

/-- FP_COMMIT_GATE_LIST: the admin list is committed; a second commit while one is pending meets BUSY (R328). -/
def execFpCommitGateList (e : Nat) (x : Xfer) (s : State) : Answer :=
  s.orderWord e 1 fpOf false x (fun n s => (s.fport n).committed.isSome) (fun n _ s =>
    (0, s.updFport n (fun p => { p with committed := some { p.admin with base := BitVec.ofNat 64 (gateStart s.now p.admin), entries := trimEntries p.admin.entries } })))

/-- FP_LINK_DOWN_ORDER: the link is taken down (Table 11.9). -/
def execFpLinkDownOrder (e : Nat) (x : Xfer) (s : State) : Answer :=
  s.orderWord e 2 fpOf false x notBusy (fun n _ s => (0, (s.updFport n (fun p => { p with down := true })).fpLink n false))

/-- FP_LINK_UP_ORDER: the link may come up again (Table 11.9). -/
def execFpLinkUpOrder (e : Nat) (x : Xfer) (s : State) : Answer :=
  s.orderWord e 3 fpOf false x notBusy (fun n _ s => (0, s.updFport n (fun p => { p with down := false })))

/-- DREQ_CLEAR_PENDING: PENDING and REQ_OVR of a request line are cleared (Table 11.9). -/
def execDreqClearPending (e : Nat) (x : Xfer) (s : State) : Answer :=
  s.orderWord e 1 dreqOf false x notBusy (fun n _ s =>
    let d := s.dreq n
    let s := s.updDreq n (fun d => { d with pending := 0 })
    (0, if d.bound then s.updMvCh d.mover d.channel (fun c => { c with pending := 0, reqOvr := false }) else s))

/-- A reset cycle runs on the port. -/
def xtBusy (n : Nat) (s : State) : Bool := (s.xt n).cycling

/-- XT_ASSERT_HOLD: the client's reset is asserted, and its release withheld (R336). -/
def execXtAssertHold (e : Nat) (x : Xfer) (s : State) : Answer :=
  s.orderWord e 1 xtOf false x xtBusy (fun n _ s => (0, (s.xtAssert n).updXt n (fun q => { q with hold := true })))

/-- XT_RELEASE: the release is no longer withheld; on a window that is not verified, UNIT_CHECK (R336). -/
def execXtRelease (e : Nat) (x : Xfer) (s : State) : Answer :=
  s.orderWord e 2 xtOf false x xtBusy (fun n _ s =>
    if (s.xt n).verified then (0, (s.updXt n (fun q => { q with hold := false })).xtTryRelease n) else (0x02, s))

/-- XT_RESET_CYCLE: a reset cycle begins; the word completes once the line is asserted (R337). -/
def execXtResetCycle (e : Nat) (x : Xfer) (s : State) : Answer :=
  s.orderWord e 3 xtOf false x xtBusy (fun n _ s => (0, s.xtStartCycle n))

/-- UART_FLUSH: both FIFOs are emptied (Table 11.9). -/
def execUartFlush (e : Nat) (x : Xfer) (s : State) : Answer :=
  s.orderWord e 1 uartOf false x notBusy (fun n _ s => (0, s.updUart n (fun u => { u with rx := [] })))

/-- I2C_BUS_RECOVERY: nine clocks and a stop (Table 11.9). -/
def execI2cBusRecovery (e : Nat) (x : Xfer) (s : State) : Answer :=
  s.orderWord e 1 i2cOf false x notBusy (fun n _ s => (0, s.drive (.i2cRecovery n)))

/-- The GPIO port. -/
def gpioPort (id : Nat) : Option Nat := if id = 0x40 then some 0 else none

/-- GPIO_SET: the lines of the mask go high (R342). -/
def execGpioSet (e : Nat) (x : Xfer) (s : State) : Answer :=
  s.orderWord e 0x10 gpioPort true x notBusy (fun _ w s => (0, s.gpioWrite (BitVec.ofNat 32 w.portSub) 0xFFFFFFFF))

/-- GPIO_CLEAR: the lines of the mask go low (R342). -/
def execGpioClear (e : Nat) (x : Xfer) (s : State) : Answer :=
  s.orderWord e 0x11 gpioPort true x notBusy (fun _ w s => (0, s.gpioWrite (BitVec.ofNat 32 w.portSub) 0))

/-- GPIO_TOGGLE: the lines of the mask change level (R342). -/
def execGpioToggle (e : Nat) (x : Xfer) (s : State) : Answer :=
  s.orderWord e 0x12 gpioPort true x notBusy (fun _ w s => (0, s.gpioWrite (BitVec.ofNat 32 w.portSub) (~~~ s.lpc.gpioOut)))

end Sys2Proof.Machine
end

