-- ==== Sys2Proof/Machine/Registers.lean ====
section
/-! DEFINITION. Register words (Table 3.12): SETG, ADDG, LOADG, STOREG, TESTG. -/
namespace Sys2Proof.Machine

/-- SETG: GPn takes ADDR (Table 3.12). -/
def execSetg (e : Nat) (s : State) : Answer :=
  s.atWord e (fun w => decide (w.opc = 0x20)) (fun p w s =>
    s.checked e (ctlChecks p w (decide (w.space = 0)) (!w.plain false true false true || decide (15 < w.sub.toNat)) false [])
      (fun s => (s.updProg e (fun p => p.setGp w.sub.toNat w.addr)).completeWord e .next))

/-- Reserved parts of an ADDG or TESTG word: the register form uses ADDR[3:0] only. -/
def arithUndef (w : Ccw) : Bool :=
  !w.plain true true false true || decide (15 < w.sub.toNat) || decide (1 < w.mode.toNat)
  || (w.mode.getLsbD 0 && decide (fld w.addr 4 60 ≠ 0))

/-- The second operand of ADDG and TESTG: immediate, or a register (Table 3.12). -/
def Prog.operand (p : Prog) (w : Ccw) : W64 := if w.mode.getLsbD 0 then p.getGp (fld w.addr 0 4) else w.addr

/-- ADDG: GPn takes the sum modulo 2⁶⁴; Z, N and C are set (R96). -/
def execAddg (e : Nat) (s : State) : Answer :=
  s.atWord e (fun w => decide (w.opc = 0x21)) (fun p w s =>
    s.checked e (ctlChecks p w (decide (w.space = 0)) (arithUndef w) false [])
      (fun s =>
        let r := addFlags (p.getGp w.sub.toNat) (p.operand w)
        (s.updProg e (fun p => (p.setGp w.sub.toNat r.1).setFlags r.2.1 r.2.2.1 r.2.2.2)).completeWord e .next))

/-- TESTG: compares GPn with the operand; only Z, N and C change (R96). -/
def execTestg (e : Nat) (s : State) : Answer :=
  s.atWord e (fun w => decide (w.opc = 0x24)) (fun p w s =>
    s.checked e (ctlChecks p w (decide (w.space = 0)) (arithUndef w) false [])
      (fun s =>
        let r := subFlags (p.getGp w.sub.toNat) (p.operand w)
        (s.updProg e (fun p => p.setFlags r.2.1 r.2.2.1 r.2.2.2)).completeWord e .next))

/-- COUNT of LOADG and STOREG (R96). -/
def regCount (n : Nat) : Bool := decide (n = 1) || decide (n = 2) || decide (n = 4) || decide (n = 8)

/-- The checks of LOADG and STOREG (R80, R96, Table 3.21). -/
def State.regMemChecks (s : State) (p : Prog) (w : Ccw) (write : Bool) : Option Bad :=
  let v := p.eff w
  let n := w.count.toNat
  let g := decide (w.space.toNat = spGpref)
  let ok := fun (k : Nat) => decide (k ≤ 2)
  ctlChecks p w (if g then ok v.space || decide (v.space = spGpref) || decide (v.space = spRaw) else ok w.space.toNat)
    (decide (15 < w.sub.toNat) || decide (v.mode ≠ 0)) (rangeBad v.space v.addr n)
    [badIf (!regCount n || decide (v.addr.toNat % n ≠ 0)) Ending.programFault 0,
     badIf (!s.memAllowed p v.space v.addr n write) Ending.protectionFault 0]

/-- LOADG: GPn takes COUNT bytes, zero-extended; Z and N are set (R96). `x` supplies bytes read from host memory. -/
def execLoadg (e : Nat) (x : Xfer) (s : State) : Answer :=
  s.atWord e (fun w => decide (w.opc = 0x22)) (fun p w s =>
    s.checked e (s.regMemChecks p w false) (fun s =>
      let v := p.eff w
      let n := w.count.toNat
      let host := decide (v.space = spHost)
      let bad := if host then (if x.status = .ok ∧ x.data.length < n then some Ending.linkFault else xferEnding x.status true) else none
      match bad with
      | some b => s.endAtWord e b 0
      | none =>
        let g := s.readPiece e { space := v.space, addr := v.addr, len := n } x.data
        match g.fail with
        | some f => g.st.endAtWord e f.2 0
        | none =>
          let r := BitVec.ofNat 64 (leNat g.bytes)
          (g.st.updProg e (fun p => (p.setGp w.sub.toNat r).flagsOf r)).completeWord e .next))

/-- STOREG: the low COUNT bytes of GPn are written (Table 3.12). -/
def execStoreg (e : Nat) (x : Xfer) (s : State) : Answer :=
  s.atWord e (fun w => decide (w.opc = 0x23)) (fun p w s =>
    s.checked e (s.regMemChecks p w true) (fun s =>
      let v := p.eff w
      let n := w.count.toNat
      match (if v.space = spHost then xferEnding x.status true else none) with
      | some b => s.endAtWord e b 0
      | none =>
        (s.writePiece e p.fn { space := v.space, addr := v.addr, len := n } (leBytes n (p.getGp w.sub.toNat).toNat)).completeWord e .next))

end Sys2Proof.Machine
end

