-- ==== Sys2Proof/Machine/Dispatch.lean ====
section
/-! DEFINITION. The dispatcher: one arm per command, each one direct call of its meaning. -/
namespace Sys2Proof.Machine

/-- The effect of a command on everything but the queue. -/
def exec (i : Instr) (s : State) : Host.Outcome State Fault Refusal :=
  match i with
  | .sqTailDoorbell fn off v => Sys2Proof.Machine.execSqTailDoorbell fn off v s
  | .cqHeadDoorbell fn off v => Sys2Proof.Machine.execCqHeadDoorbell fn off v s
  | .sqEntryFetch q r => Sys2Proof.Machine.execSqEntryFetch q r s
  | .ownReread q r => Sys2Proof.Machine.execOwnReread q r s
  | .sqOwnTimeout q => Sys2Proof.Machine.execSqOwnTimeout q s
  | .admitStart sq first => Sys2Proof.Machine.execAdmitStart sq first s
  | .seatFreedPlacement sq => Sys2Proof.Machine.execSeatFreedPlacement sq s
  | .resumeEntry sq => Sys2Proof.Machine.execResumeEntry sq s
  | .haltHoldEntry sq => Sys2Proof.Machine.execHaltHoldEntry sq s
  | .haltEntry sq => Sys2Proof.Machine.execHaltEntry sq s
  | .sqEnableWrite fn n v => Sys2Proof.Machine.execSqEnableWrite fn n v s
  | .haltAll fn n v => Sys2Proof.Machine.execHaltAll fn n v s
  | .aqEnable fn v => Sys2Proof.Machine.execAqEnable fn v s
  | .completionPost q => Sys2Proof.Machine.execCompletionPost q s
  | .heldCompletionPost cq => Sys2Proof.Machine.execHeldCompletionPost cq s
  | .msixCoalesceTimeout cq => Sys2Proof.Machine.execMsixCoalesceTimeout cq s
  | .cqStalled cq => Sys2Proof.Machine.execCqStalled cq s
  | .adminEventPost fn => Sys2Proof.Machine.execAdminEventPost fn s
  | .ccwFetch e host => Sys2Proof.Machine.execCcwFetch e host s
  | .nop e => Sys2Proof.Machine.execNop e s
  | .tic e target => Sys2Proof.Machine.execTic e target s
  | .loop e => Sys2Proof.Machine.execLoop e s
  | .branch e => Sys2Proof.Machine.execBranch e s
  | .wait e => Sys2Proof.Machine.execWait e s
  | .waitLimitExpiry e => Sys2Proof.Machine.execWaitLimitExpiry e s
  | .deviceTimeWaitDone e => Sys2Proof.Machine.execDeviceTimeWaitDone e s
  | .signalDoorbell e => Sys2Proof.Machine.execSignalDoorbell e s
  | .signalInterrupt e => Sys2Proof.Machine.execSignalInterrupt e s
  | .signalMailboxWord e stampsAgree => Sys2Proof.Machine.execSignalMailboxWord e stampsAgree s
  | .signalBarrierArrival e => Sys2Proof.Machine.execSignalBarrierArrival e s
  | .signalRequestAcknowledge e => Sys2Proof.Machine.execSignalRequestAcknowledge e s
  | .suspend e => Sys2Proof.Machine.execSuspend e s
  | .halt e => Sys2Proof.Machine.execHalt e s
  | .postNotice e => Sys2Proof.Machine.execPostNotice e s
  | .postStatusWord e x => Sys2Proof.Machine.execPostStatusWord e x s
  | .call e => Sys2Proof.Machine.execCall e s
  | .ret e => Sys2Proof.Machine.execRet e s
  | .move e x => Sys2Proof.Machine.execMove e x s
  | .append e x => Sys2Proof.Machine.execAppend e x s
  | .readStream e x => Sys2Proof.Machine.execReadStream e x s
  | .regionWrite e x => Sys2Proof.Machine.execRegionWrite e x s
  | .regionRead e x => Sys2Proof.Machine.execRegionRead e x s
  | .vaultRead e x => Sys2Proof.Machine.execVaultRead e x s
  | .portOut e x => Sys2Proof.Machine.execPortOut e x s
  | .portIn e x => Sys2Proof.Machine.execPortIn e x s
  | .fill e x => Sys2Proof.Machine.execFill e x s
  | .setg e => Sys2Proof.Machine.execSetg e s
  | .addg e => Sys2Proof.Machine.execAddg e s
  | .loadg e x => Sys2Proof.Machine.execLoadg e x s
  | .storeg e x => Sys2Proof.Machine.execStoreg e x s
  | .testg e => Sys2Proof.Machine.execTestg e s
  | .seal e => Sys2Proof.Machine.execSeal e s
  | .trim e => Sys2Proof.Machine.execTrim e s
  | .sync e => Sys2Proof.Machine.execSync e s
  | .syncComplete e => Sys2Proof.Machine.execSyncComplete e s
  | .syncLimitExpiry e => Sys2Proof.Machine.execSyncLimitExpiry e s
  | .sense e x => Sys2Proof.Machine.execSense e x s
  | .landingChargeGrant c0 x => Sys2Proof.Machine.execLandingChargeGrant c0 x s
  | .stepTimeout e => Sys2Proof.Machine.execStepTimeout e s
  | .deadlineExpiry e => Sys2Proof.Machine.execDeadlineExpiry e s
  | .selftestTurn c => Sys2Proof.Machine.execSelftestTurn c s
  | .selftestComplete c pass => Sys2Proof.Machine.execSelftestComplete c pass s
  | .clusterGate c => Sys2Proof.Machine.execClusterGate c s
  | .clusterWake c => Sys2Proof.Machine.execClusterWake c s
  | .clusterWakeReady c => Sys2Proof.Machine.execClusterWakeReady c s
  | .barrierCfgWrite mid b v => Sys2Proof.Machine.execBarrierCfgWrite mid b v s
  | .broadcast order mask => Sys2Proof.Machine.execBroadcast order mask s
  | .broadcastComplete => Sys2Proof.Machine.execBroadcastComplete s
  | .snapshotGo mid v => Sys2Proof.Machine.execSnapshotGo mid v s
  | .clusterReset c => Sys2Proof.Machine.execClusterReset c s
  | .clusterReady c failed => Sys2Proof.Machine.execClusterReady c failed s
  | .descriptorWrite m ch d => Sys2Proof.Machine.execDescriptorWrite m ch d s
  | .descriptorComplete m ch x => Sys2Proof.Machine.execDescriptorComplete m ch x s
  | .moverStallTimeout m ch => Sys2Proof.Machine.execMoverStallTimeout m ch s
  | .dreqRequest n => Sys2Proof.Machine.execDreqRequest n s
  | .mvMove m x => Sys2Proof.Machine.execMvMove m x s
  | .mvLoop m => Sys2Proof.Machine.execMvLoop m s
  | .mvWait m norReady => Sys2Proof.Machine.execMvWait m norReady s
  | .mvSignal m => Sys2Proof.Machine.execMvSignal m s
  | .mvEnd m => Sys2Proof.Machine.execMvEnd m s
  | .lqReassign m => Sys2Proof.Machine.execLqReassign m s
  | .cplPush mid q hi => Sys2Proof.Machine.execCplPush mid q hi s
  | .cplPop mid q => Sys2Proof.Machine.execCplPop mid q s
  | .cplFlush mid q => Sys2Proof.Machine.execCplFlush mid q s
  | .cplReserveWrite mid q v => Sys2Proof.Machine.execCplReserveWrite mid q v s
  | .frameStart => Sys2Proof.Machine.execFrameStart s
  | .slotStart t => Sys2Proof.Machine.execSlotStart t s
  | .arbiterHold arb kind unit heldUs => Sys2Proof.Machine.execArbiterHold arb kind unit heldUs s
  | .boundVoidExpiry => Sys2Proof.Machine.execBoundVoidExpiry s
  | .pageProgramComplete lun pass => Sys2Proof.Machine.execPageProgramComplete lun pass s
  | .nandOpTimeout lun => Sys2Proof.Machine.execNandOpTimeout lun s
  | .rowCloseTimeout seg => Sys2Proof.Machine.execRowCloseTimeout seg s
  | .fastLanePageProgram => Sys2Proof.Machine.execFastLanePageProgram s
  | .c0BoundMiss detail gid => Sys2Proof.Machine.execC0BoundMiss detail gid s
  | .annealTask => Sys2Proof.Machine.execAnnealTask s
  | .scrubPeriod seg => Sys2Proof.Machine.execScrubPeriod seg s
  | .retentionRelease stream => Sys2Proof.Machine.execRetentionRelease stream s
  | .checkpointWrite => Sys2Proof.Machine.execCheckpointWrite s
  | .landingLimitRecompute vbankMv => Sys2Proof.Machine.execLandingLimitRecompute vbankMv s
  | .tripRecompute => Sys2Proof.Machine.execTripRecompute s
  | .pulseStart vbankMv => Sys2Proof.Machine.execPulseStart vbankMv s
  | .pulseEnd samples => Sys2Proof.Machine.execPulseEnd samples s
  | .capPublish vbankMv => Sys2Proof.Machine.execCapPublish vbankMv s
  | .bankStale => Sys2Proof.Machine.execBankStale s
  | .quenchArmCheck bad reloaded => Sys2Proof.Machine.execQuenchArmCheck bad reloaded s
  | .armingTimeout => Sys2Proof.Machine.execArmingTimeout s
  | .quenchTrigger pfailLow vbankMv => Sys2Proof.Machine.execQuenchTrigger pfailLow vbankMv s
  | .quenchSeal pass => Sys2Proof.Machine.execQuenchSeal pass s
  | .holdEntry pfailHigh vbankMv => Sys2Proof.Machine.execHoldEntry pfailHigh vbankMv s
  | .holdExitReset => Sys2Proof.Machine.execHoldExitReset s
  | .supplyCollapse vbat => Sys2Proof.Machine.execSupplyCollapse vbat s
  | .powerUp xtalOk => Sys2Proof.Machine.execPowerUp xtalOk s
  | .bootComplete xh0 xh1 => Sys2Proof.Machine.execBootComplete xh0 xh1 s
  | .loadComplete luns failed => Sys2Proof.Machine.execLoadComplete luns failed s
  | .rebuildComplete lost manifest weak => Sys2Proof.Machine.execRebuildComplete lost manifest weak s
  | .engineErrorLine e => Sys2Proof.Machine.execEngineErrorLine e s
  | .heartbeatRequest missing => Sys2Proof.Machine.execHeartbeatRequest missing s
  | .sourceCollected ext => Sys2Proof.Machine.execSourceCollected ext s
  | .pairFault cls kind unit => Sys2Proof.Machine.execPairFault cls kind unit s
  | .windowClose => Sys2Proof.Machine.execWindowClose s
  | .quietPeriodEnd => Sys2Proof.Machine.execQuietPeriodEnd s
  | .fcsClearFirst mid v => Sys2Proof.Machine.execFcsClearFirst mid v s
  | .mgpWatchdogExpiry => Sys2Proof.Machine.execMgpWatchdogExpiry s
  | .lockstepMismatch => Sys2Proof.Machine.execLockstepMismatch s
  | .mgpRestartTimeout => Sys2Proof.Machine.execMgpRestartTimeout s
  | .wdogService selfCheck => Sys2Proof.Machine.execWdogService selfCheck s
  | .iwdgExpiry => Sys2Proof.Machine.execIwdgExpiry s
  | .landingScrub corrected uncorrectable => Sys2Proof.Machine.execLandingScrub corrected uncorrectable s
  | .vaultPinScrub x bad => Sys2Proof.Machine.execVaultPinScrub x bad s
  | .railOutOfRange rail => Sys2Proof.Machine.execRailOutOfRange rail s
  | .clockFault clk => Sys2Proof.Machine.execClockFault clk s
  | .createSq fn => Sys2Proof.Machine.execCreateSq fn s
  | .deleteSq fn => Sys2Proof.Machine.execDeleteSq fn s
  | .createCq fn => Sys2Proof.Machine.execCreateCq fn s
  | .deleteCq fn => Sys2Proof.Machine.execDeleteCq fn s
  | .createCrew fn => Sys2Proof.Machine.execCreateCrew fn s
  | .deleteCrew fn => Sys2Proof.Machine.execDeleteCrew fn s
  | .bindSq fn => Sys2Proof.Machine.execBindSq fn s
  | .createStream fn => Sys2Proof.Machine.execCreateStream fn s
  | .deleteStream fn => Sys2Proof.Machine.execDeleteStream fn s
  | .setRetention fn => Sys2Proof.Machine.execSetRetention fn s
  | .createRegion fn => Sys2Proof.Machine.execCreateRegion fn s
  | .deleteRegion fn => Sys2Proof.Machine.execDeleteRegion fn s
  | .vaultInstall fn d st => Sys2Proof.Machine.execVaultInstall fn d st s
  | .vaultActivate fn => Sys2Proof.Machine.execVaultActivate fn s
  | .pinWindow fn => Sys2Proof.Machine.execPinWindow fn s
  | .loadProgram fn d => Sys2Proof.Machine.execLoadProgram fn d s
  | .invalidatePrograms fn => Sys2Proof.Machine.execInvalidatePrograms fn s
  | .slotTableWrite fn d => Sys2Proof.Machine.execSlotTableWrite fn d s
  | .slotTableSwap fn => Sys2Proof.Machine.execSlotTableSwap fn s
  | .setWeights fn => Sys2Proof.Machine.execSetWeights fn s
  | .class0Contract fn => Sys2Proof.Machine.execClass0Contract fn s
  | .propose fn d => Sys2Proof.Machine.execPropose fn d s
  | .ratify fn d st => Sys2Proof.Machine.execRatify fn d st s
  | .withdraw fn => Sys2Proof.Machine.execWithdraw fn s
  | .accessRules fn d => Sys2Proof.Machine.execAccessRules fn d s
  | .consentGroup fn => Sys2Proof.Machine.execConsentGroup fn s
  | .rootHash fn d => Sys2Proof.Machine.execRootHash fn d s
  | .rootRevoke fn => Sys2Proof.Machine.execRootRevoke fn s
  | .deviceKeyRotate fn st => Sys2Proof.Machine.execDeviceKeyRotate fn st s
  | .rollbackFloor fn => Sys2Proof.Machine.execRollbackFloor fn s
  | .vaultFloor fn => Sys2Proof.Machine.execVaultFloor fn s
  | .lockedWrite fn => Sys2Proof.Machine.execLockedWrite fn s
  | .yardPartition fn d => Sys2Proof.Machine.execYardPartition fn d s
  | .vendorTable fn d => Sys2Proof.Machine.execVendorTable fn d s
  | .provisionLock fn => Sys2Proof.Machine.execProvisionLock fn s
  | .debugUnlock fn => Sys2Proof.Machine.execDebugUnlock fn s
  | .debugUnlockSignature slot valid => Sys2Proof.Machine.execDebugUnlockSignature slot valid s
  | .debugChallengeExpiry => Sys2Proof.Machine.execDebugChallengeExpiry s
  | .faultLogRead fn => Sys2Proof.Machine.execFaultLogRead fn s
  | .reintegrate fn st => Sys2Proof.Machine.execReintegrate fn st s
  | .setReaction fn => Sys2Proof.Machine.execSetReaction fn s
  | .energyStatus fn => Sys2Proof.Machine.execEnergyStatus fn s
  | .bankTest fn st => Sys2Proof.Machine.execBankTest fn st s
  | .mediaCharacterise fn st probes fast => Sys2Proof.Machine.execMediaCharacterise fn st probes fast s
  | .clusterTest fn st => Sys2Proof.Machine.execClusterTest fn st s
  | .yardTest fn st => Sys2Proof.Machine.execYardTest fn st s
  | .lunScan fn st => Sys2Proof.Machine.execLunScan fn st s
  | .mediaReport fn => Sys2Proof.Machine.execMediaReport fn s
  | .portConfig fn d => Sys2Proof.Machine.execPortConfig fn d s
  | .timeSet fn => Sys2Proof.Machine.execTimeSet fn s
  | .timeDiscipline fn => Sys2Proof.Machine.execTimeDiscipline fn s
  | .disciplineSample src port offset => Sys2Proof.Machine.execDisciplineSample src port offset s
  | .holdoverEntry => Sys2Proof.Machine.execHoldoverEntry s
  | .modeRequestBoot fn => Sys2Proof.Machine.execModeRequestBoot fn s
  | .modeRequestProvision fn => Sys2Proof.Machine.execModeRequestProvision fn s
  | .modeRequestService fn => Sys2Proof.Machine.execModeRequestService fn s
  | .modeRequestDiagnostic fn => Sys2Proof.Machine.execModeRequestDiagnostic fn s
  | .identify fn => Sys2Proof.Machine.execIdentify fn s
  | .getTelemetry fn => Sys2Proof.Machine.execGetTelemetry fn s
  | .updateBegin fn => Sys2Proof.Machine.execUpdateBegin fn s
  | .updateStage fn d st img => Sys2Proof.Machine.execUpdateStage fn d st img s
  | .updateFirmwareRestart fn st => Sys2Proof.Machine.execUpdateFirmwareRestart fn st s
  | .updateCluster fn st => Sys2Proof.Machine.execUpdateCluster fn st s
  | .updateCommit fn st => Sys2Proof.Machine.execUpdateCommit fn st s
  | .updateAbandon fn st => Sys2Proof.Machine.execUpdateAbandon fn st s
  | .commandLimitExpiry fn tag => Sys2Proof.Machine.execCommandLimitExpiry fn tag s
  | .sidebandPacket port wire => Sys2Proof.Machine.execSidebandPacket port wire s
  | .portReset port => Sys2Proof.Machine.execPortReset port s
  | .flr fn => Sys2Proof.Machine.execFlr fn s
  | .dlDown port => Sys2Proof.Machine.execDlDown port s
  | .dlUp port => Sys2Proof.Machine.execDlUp port s
  | .msixUnmask fn vec => Sys2Proof.Machine.execMsixUnmask fn vec s
  | .frameReceive port bytes => Sys2Proof.Machine.execFrameReceive port bytes s
  | .fpLinkChange port up => Sys2Proof.Machine.execFpLinkChange port up s
  | .fpCommitGateList e x => Sys2Proof.Machine.execFpCommitGateList e x s
  | .gateListTakeEffect port => Sys2Proof.Machine.execGateListTakeEffect port s
  | .fpLinkDownOrder e x => Sys2Proof.Machine.execFpLinkDownOrder e x s
  | .fpLinkUpOrder e x => Sys2Proof.Machine.execFpLinkUpOrder e x s
  | .dreqClearPending e x => Sys2Proof.Machine.execDreqClearPending e x s
  | .xtAssertHold e x => Sys2Proof.Machine.execXtAssertHold e x s
  | .xtRelease e x => Sys2Proof.Machine.execXtRelease e x s
  | .xtResetCycle e x => Sys2Proof.Machine.execXtResetCycle e x s
  | .xtCycleDone n pass => Sys2Proof.Machine.execXtCycleDone n pass s
  | .xtWindowFault n => Sys2Proof.Machine.execXtWindowFault n s
  | .uartFlush e x => Sys2Proof.Machine.execUartFlush e x s
  | .i2cBusRecovery e x => Sys2Proof.Machine.execI2cBusRecovery e x s
  | .gpioSet e x => Sys2Proof.Machine.execGpioSet e x s
  | .gpioClear e x => Sys2Proof.Machine.execGpioClear e x s
  | .gpioToggle e x => Sys2Proof.Machine.execGpioToggle e x s
  | .gpioEdge line high => Sys2Proof.Machine.execGpioEdge line high s
  | .xtRead n addr len => Sys2Proof.Machine.execXtRead n addr len s
  | .xtPageProgram n addr bytes => Sys2Proof.Machine.execXtPageProgram n addr bytes s
  | .xtRecordAccepted n => Sys2Proof.Machine.execXtRecordAccepted n s
  | .xtErase n addr => Sys2Proof.Machine.execXtErase n addr s
  | .xtReadId n => Sys2Proof.Machine.execXtReadId n s
  | .xtReadStatus n => Sys2Proof.Machine.execXtReadStatus n s
  | .xtReadSfdp n addr len => Sys2Proof.Machine.execXtReadSfdp n addr len s
  | .xtWriteEnable n => Sys2Proof.Machine.execXtWriteEnable n s
  | .xtWriteDisable n => Sys2Proof.Machine.execXtWriteDisable n s
  | .xtVolatileConfigWrite n v => Sys2Proof.Machine.execXtVolatileConfigWrite n v s
  | .captureEdge k => Sys2Proof.Machine.execCaptureEdge k s
  | .ppsOutPulse => Sys2Proof.Machine.execPpsOutPulse s
  | .mbxTxCommit mid ch hi stampsAgree => Sys2Proof.Machine.execMbxTxCommit mid ch hi stampsAgree s
  | .mbxRxRead mid ch => Sys2Proof.Machine.execMbxRxRead mid ch s
  | .mbxChannelCfg mid ch v => Sys2Proof.Machine.execMbxChannelCfg mid ch v s
  | .mbxRxTimeout ch dir => Sys2Proof.Machine.execMbxRxTimeout ch dir s
  | .tmrMatch t => Sys2Proof.Machine.execTmrMatch t s
  | .tmrCmpCommit mid t hi => Sys2Proof.Machine.execTmrCmpCommit mid t hi s
  | .tmrIntCommit mid t hi => Sys2Proof.Machine.execTmrIntCommit mid t hi s
  | .streamSnapshot mid v => Sys2Proof.Machine.execStreamSnapshot mid v s
  | .tallyLatch mid v => Sys2Proof.Machine.execTallyLatch mid v s
  | .registerWrite mid bar off v => Sys2Proof.Machine.execRegisterWrite mid bar off v s
  | .consentExpiry id => Sys2Proof.Machine.execConsentExpiry id s
  | .mvWaitExpiry m => Sys2Proof.Machine.execMvWaitExpiry m s
  | .debugHalt => Sys2Proof.Machine.execDebugHalt s
  | .debugHaltEnd => Sys2Proof.Machine.execDebugHaltEnd s
  | .vbatApplied => Sys2Proof.Machine.execVbatApplied s
  | .vbatRemoved => Sys2Proof.Machine.execVbatRemoved s
  | .blockEraseComplete lun pass => Sys2Proof.Machine.execBlockEraseComplete lun pass s
  | .pageReadComplete lun => Sys2Proof.Machine.execPageReadComplete lun s
  | .frameTransmit port => Sys2Proof.Machine.execFrameTransmit port s
  | .gclIntervalEnd port => Sys2Proof.Machine.execGclIntervalEnd port s
  | .gptpMessageReceive port kind v => Sys2Proof.Machine.execGptpMessageReceive port kind v s
  | .gptpIntervalTimeout port kind => Sys2Proof.Machine.execGptpIntervalTimeout port kind s
  | .uartRxByte n b => Sys2Proof.Machine.execUartRxByte n b s
  | .uartIdleGap n => Sys2Proof.Machine.execUartIdleGap n s
  | .dreqDeassert n => Sys2Proof.Machine.execDreqDeassert n s
  | .holdInputLoss pfailHigh vbankMv => Sys2Proof.Machine.execHoldInputLoss pfailHigh vbankMv s
  | .pulseRecoveryTimeout vbankMv => Sys2Proof.Machine.execPulseRecoveryTimeout vbankMv s
  | .retentionRefreshDue seg => Sys2Proof.Machine.execRetentionRefreshDue seg s
  | .handoverWindowEnd c => Sys2Proof.Machine.execHandoverWindowEnd c s
  | .clientRstMinElapsed n => Sys2Proof.Machine.execClientRstMinElapsed n s

end Sys2Proof.Machine
end

