-- ==== Sys2Proof/Safety.lean ====
section
/-! DEFINITION. What counts as a safe run of the block, and the conditions and changes that the statements speak of. -/
namespace Sys2Proof.Machine

/-- The command was carried out and left this state. -/
def Runs (i : Instr) (s t : State) : Prop := exec i s = .next t

/-- One step leaves a state of the block: no fault and no refusal. -/
def Safe (s : State) : Prop := ∃ t, step s = .next t

/-! ## Programs and words -/

/-- Engine `e` runs program `p`, the words `ws` of its operation in hand are delivered and none of their bytes has moved (R113), and BAR does
not hold them: the first has none, or no HOST write of the program is on its way (R75). -/
def Delivered (s : State) (e : Nat) (p : Prog) (ws : List Ccw) : Prop :=
  s.running e = some p ∧ p.phase = .fetched ∧ p.op = ws ∧ p.xf = none ∧ p.barred false = false

/-- They are delivered while a HOST write of the program is on its way. -/
def DeliveredUnacked (s : State) (e : Nat) (p : Prog) (ws : List Ccw) : Prop :=
  s.running e = some p ∧ p.phase = .fetched ∧ p.op = ws ∧ p.xf = none ∧ p.unacked = true

/-- The data operation `ws` of the program `p` of engine `e` has begun, `x` is kept of it, and the NAND pages that it reads have been read (R217). -/
def Begun (s : State) (e : Nat) (p : Prog) (ws : List Ccw) (x : Xfr) : Prop :=
  s.running e = some p ∧ p.phase = .fetched ∧ p.op = ws ∧ p.xf = some x ∧ x.reads.any (fun i => s.mm.jobs.has i) = false

/-- The same, and a mover carries it (R299). -/
def Carried (s : State) (e : Nat) (p : Prog) (ws : List Ccw) (x : Xfr) : Prop := Begun s e p ws x ∧ s.carried p = true

/-- In `s` the operation of engine `e` that begins with `w` can move bytes: a mover carries it, or it takes a free channel and the mover enters it
at once (R299). The program is then `q`, in the state `t`. -/
def Rides (s : State) (e : Nat) (w : Ccw) (q : Prog) (t : State) : Prop :=
  (s.prog e = some q ∧ q.chan.isSome = true ∧ s.carried q = true ∧ t = s)
  ∨ (∃ p, s.prog e = some p ∧ p.chan = none ∧ s.grab e p w = some t ∧ t.prog e = some q ∧ t.carried q = true)

/-- Engine `e` stands at the PORT words `ws` of program `p`: delivered, and their checks find nothing, or begun; `u` is the state in which they are
begun (R95, R108). -/
def AtPort (s u : State) (e : Nat) (p : Prog) (w : Ccw) (ws : List Ccw) (inw : Bool) : Prop :=
  w.opc = (if inw then 0x17 else 0x16)
    ∧ ((Delivered s e p (w :: ws) ∧ s.portChecks p w inw = none ∧ u = s.beginXfr e Xfr.fresh) ∨ (∃ y, Begun s e p (w :: ws) y ∧ u = s))

/-- Engine `e` runs program `p`, which stands in phase `h`. -/
def Stands (s : State) (e : Nat) (p : Prog) (h : Phase) : Prop := s.running e = some p ∧ p.phase = h

/-- No halt and no hold waits for the program's next word boundary (R120, R123). -/
def Prog.undisturbed (p : Prog) : Prop := p.haltPend = false ∧ p.holdPend = false

/-- The program goes on at the next word: the word in hand links, and nothing waits for the boundary (R70). -/
def Prog.goesOn (p : Prog) : Prop := p.opLnk = true ∧ p.undisturbed

/-- What the completion of the operation in hand leaves of a program that goes on at `t` (R70, R103, R113). -/
def Prog.done (p : Prog) (t : W64) : Prog :=
  { p with
    steps := p.steps + p.op.length, last := p.opAddr (p.op.length - 1), anyDone := true, op := [], noted := false, moved := 0, further := false
    xf := none, resumed := false, pc := t, phase := .boundary }

/-- The address of the word after the operation in hand. -/
def Prog.after (p : Prog) : W64 := p.opAddr p.op.length

/-- From `s` to `t` only the program of engine `e` has changed, and it is now `q`: every other engine and the rest of the part are as
they were. -/
def OnlyProg (s t : State) (e : Nat) (q : Prog) : Prop :=
  t.engine e = { s.engine e with prog := some q } ∧ (∀ a, a ≠ e → t.engine a = s.engine a)
    ∧ t = { s with eng := { s.eng with engines := t.eng.engines } }

/-! ## Command packets -/

/-- The state after the turn of packet `p`: the rotation of the admin queues has moved past its function (R350). -/
def State.afterTurn (s : State) (p : Packet) : State := { s with mgp := { s.mgp with rot := (p.fn + 1) % 8 } }

/-- The commands that carry no background work: the row, its entry of the catalogue, and the input data that it reads. -/
def shortRows (fn : Nat) (d : Rd) : List (Instr × Cmd × Rd) :=
  [(.createSq fn, cmdCreateSq, .error), (.deleteSq fn, cmdDeleteSq, .error), (.createCq fn, cmdCreateCq, .error), (.deleteCq fn, cmdDeleteCq, .error),
   (.createCrew fn, cmdCreateCrew, .error), (.deleteCrew fn, cmdDeleteCrew, .error), (.bindSq fn, cmdBindSq, .error),
   (.createStream fn, cmdCreateStream, .error), (.deleteStream fn, cmdDeleteStream, .error), (.setRetention fn, cmdSetRetention, .error),
   (.createRegion fn, cmdCreateRegion, .error), (.deleteRegion fn, cmdDeleteRegion, .error), (.vaultActivate fn, cmdVaultActivate, .error),
   (.pinWindow fn, cmdPinWindow, .error), (.loadProgram fn d, cmdLoadProgram, d), (.invalidatePrograms fn, cmdInvalidatePrograms, .error),
   (.slotTableWrite fn d, cmdSlotTableWrite, d), (.slotTableSwap fn, cmdSlotTableSwap, .error), (.setWeights fn, cmdSetWeights, .error),
   (.class0Contract fn, cmdClass0Contract, .error), (.withdraw fn, cmdWithdraw, .error)]

/-- The other commands of the same kind. -/
def shortRowsToo (fn : Nat) (d : Rd) : List (Instr × Cmd × Rd) :=
  [(.accessRules fn d, cmdAccessRules, d), (.consentGroup fn, cmdConsentGroup, .error), (.rootHash fn d, cmdRootHash, d),
   (.rootRevoke fn, cmdRootRevoke, .error), (.rollbackFloor fn, cmdRollbackFloor, .error), (.vaultFloor fn, cmdVaultFloor, .error),
   (.lockedWrite fn, cmdLockedWrite, .error), (.yardPartition fn d, cmdYardPartition, d), (.vendorTable fn d, cmdVendorTable, d),
   (.provisionLock fn, cmdProvisionLock, .error), (.debugUnlock fn, cmdDebugUnlock, .error), (.faultLogRead fn, cmdFaultLogRead, .error),
   (.setReaction fn, cmdSetReaction, .error), (.energyStatus fn, cmdEnergyStatus, .error), (.mediaReport fn, cmdMediaReport, .error),
   (.portConfig fn d, cmdPortConfig, d), (.timeSet fn, cmdTimeSet, .error), (.timeDiscipline fn, cmdTimeDiscipline, .error),
   (.modeRequestBoot fn, cmdModeBoot, .error), (.modeRequestProvision fn, cmdModeProvision, .error), (.modeRequestService fn, cmdModeService, .error),
   (.modeRequestDiagnostic fn, cmdModeDiagnostic, .error), (.identify fn, cmdIdentify, .error), (.getTelemetry fn, cmdGetTelemetry, .error),
   (.updateBegin fn, cmdUpdateBegin, .error)]

/-- The rows of `commitRows` and UPDATE_ADVANCE step 0x00, as they are taken up. -/
def longRows (fn : Nat) (d : Rd) (img : Image) (probes : List LunProbe) (fast : Nat) : List (Instr × Cmd × Rd) :=
  [(.vaultInstall fn d .start, cmdVaultInstall, d), (.deviceKeyRotate fn .start, cmdDeviceKeyRotate, .error), (.reintegrate fn .start, cmdReintegrate, .error),
   (.bankTest fn .start, cmdBankTest, .error), (.mediaCharacterise fn .start probes fast, cmdMediaCharacterise probes fast, .error),
   (.clusterTest fn .start, cmdClusterTest, .error), (.yardTest fn .start, cmdYardTest, .error), (.lunScan fn .start, cmdLunScan, .error),
   (.updateStage fn d .start img, cmdUpdateStage img, d), (.updateFirmwareRestart fn .start, cmdUpdateFirmware, .error),
   (.updateCluster fn .start, cmdUpdateCluster, .error), (.updateCommit fn .start, cmdUpdateCommit, .error), (.updateAbandon fn .start, cmdUpdateAbandon, .error)]

/-- The commit points of the background commands (R350). -/
def commitRows (fn : Nat) (d : Rd) (pass : Bool) (result : List Byte) (img : Image) (probes : List LunProbe) (fast : Nat) : List (Instr × Cmd × Rd) :=
  let st : LStage := .commit pass result
  [(.vaultInstall fn d st, cmdVaultInstall, d), (.deviceKeyRotate fn st, cmdDeviceKeyRotate, .error), (.reintegrate fn st, cmdReintegrate, .error),
   (.bankTest fn st, cmdBankTest, .error), (.mediaCharacterise fn st probes fast, cmdMediaCharacterise probes fast, .error),
   (.clusterTest fn st, cmdClusterTest, .error), (.yardTest fn st, cmdYardTest, .error), (.lunScan fn st, cmdLunScan, .error),
   (.updateStage fn d st img, cmdUpdateStage img, d), (.updateCluster fn st, cmdUpdateCluster, .error), (.updateCommit fn st, cmdUpdateCommit, .error),
   (.updateAbandon fn st, cmdUpdateAbandon, .error)]

/-- Every row of the catalogue but PROPOSE and RATIFY, which have checks of their own. -/
def packetRows (fn : Nat) (d : Rd) (img : Image) (probes : List LunProbe) (fast : Nat) : List (Instr × Cmd × Rd) :=
  shortRows fn d ++ shortRowsToo fn d ++ longRows fn d img probes fast

/-! ## CONTROL orders -/

/-- The CONTROL word of engine `e` completes: DEVSTAT shows DEV_END and `dev` (R99, R103). -/
def State.orderDone (s : State) (e : Nat) (dev : Byte) : State := (s.updProg e (fun p => p.deviceDone 0 0 (1 ||| dev))).completeWord e .next

/-! ## The checks of every word -/

/-- Words of the engine: the row, the words that it takes, and their checks (R69, R104, R108). -/
abbrev WordRow : Type := Instr × (Ccw → Bool) × (State → Prog → Ccw → Option Bad)

def opcIs (k : Nat) (w : Ccw) : Bool := decide (w.opc = BitVec.ofNat 8 k)
def signalIs (k : Nat) (w : Ccw) : Bool := decide (w.opc = 5) && decide (w.sub.toNat = k)

/-- The control words (Table 3.7), POST of a notice apart, which the notices held stop before its checks (R175). -/
def controlRows (e : Nat) (x : Xfer) (r : Rd) (agree : Bool) : List WordRow :=
  [(.nop e, opcIs 0, fun _ p w => zeroChecks p w false),
   (.tic e r, opcIs 1, fun _ p w => ctlChecks p w (chainSpace w) (!chainPlain w false) false []),
   (.loop e, opcIs 2, fun _ p w => ctlChecks p w (chainSpace w) (!chainPlain w true || decide (15 < w.sub.toNat)) false []),
   (.branch e, opcIs 3, fun _ p w => ctlChecks p w (chainSpace w) (!chainPlain w true || decide (8 < w.sub.toNat)) false []),
   (.call e, opcIs 9, fun _ p w => ctlChecks p w (chainSpace w) (!chainPlain w false) false []),
   (.ret e, opcIs 0x0A, fun _ p w => zeroChecks p w false),
   (.wait e, opcIs 4, fun s p w => s.waitChecks e p w),
   (.signalDoorbell e, signalIs 1, fun s p w => signalChecks p w (decide (fld w.addr 12 20 ≠ 0) || decide (fld w.addr 48 16 ≠ 0))
     (badIf (match s.sq (fld w.addr 0 12) with | some q => decide (q.fn ≠ p.fn) | none => true) Ending.protectionFault 0)),
   (.signalInterrupt e, signalIs 2, fun _ p w => signalChecks p w (decide (fld w.addr 8 56 ≠ 0)) none),
   (.signalMailboxWord e agree, signalIs 3, fun s p w => signalChecks p w (decide (fld w.addr 12 52 ≠ 0))
     (badIf (s.engineEnd (fld w.addr 0 8) p.mid).isNone Ending.protectionFault 0)),
   (.signalBarrierArrival e, signalIs 4, fun s p w => signalChecks p w (decide (fld w.addr 8 56 ≠ 0)) (s.arrivalChecks e p (fld w.addr 0 8))),
   (.signalRequestAcknowledge e, signalIs 5, fun _ p w => signalChecks p w (decide (fld w.addr 4 60 ≠ 0)) none),
   (.suspend e, opcIs 6, fun _ p w => zeroChecks p w (decide (p.cls ≤ 1))),
   (.halt e, opcIs 7, fun _ p w => ctlChecks p w (decide (w.space = 0)) (!w.plain false true false false || decide (1 < w.sub.toNat)) false []),
   (.postStatusWord e x, fun w => decide (w.opc = 8) && decide (w.sub = 1), fun s p w => s.statusChecks p w)]

/-- The register, persistence and device words (Tables 3.12 to 3.14). -/
def deviceRows (e : Nat) (x : Xfer) : List WordRow :=
  [(.setg e, opcIs 0x20, fun _ p w => ctlChecks p w (decide (w.space = 0)) (!w.plain false true false true || decide (15 < w.sub.toNat)) false []),
   (.addg e, opcIs 0x21, fun _ p w => ctlChecks p w (decide (w.space = 0)) (arithUndef w) false []),
   (.testg e, opcIs 0x24, fun _ p w => ctlChecks p w (decide (w.space = 0)) (arithUndef w) false []),
   (.loadg e x, opcIs 0x22, fun s p w => s.regMemChecks p w false),
   (.storeg e x, opcIs 0x23, fun s p w => s.regMemChecks p w true),
   (.seal e, opcIs 0x30, fun _ p w => zeroChecks p w false),
   (.trim e, opcIs 0x31, fun s p w => s.trimChecks p w),
   (.sync e, opcIs 0x32, fun s p w => s.syncChecks e p w),
   (.sense e x, opcIs 0x41, fun s p w => s.senseChecks p w)]

/-- The data words (Tables 3.11 and 3.13). -/
def dataRows (e : Nat) (x : Xfer) : List WordRow :=
  [(.move e x, opcIs 0x10, fun s p w => s.moveChecks p w), (.append e x, opcIs 0x11, fun s p w => s.appendChecks p w),
   (.readStream e x, opcIs 0x12, fun s p w => s.streamChecks p w), (.regionWrite e x, opcIs 0x13, fun s p w => s.regionWriteChecks p w),
   (.regionRead e x, opcIs 0x14, fun s p w => s.regionReadChecks p w), (.vaultRead e x, opcIs 0x15, fun s p w => s.vaultChecks p w),
   (.portOut e x, opcIs 0x16, fun s p w => s.portChecks p w false), (.portIn e x, opcIs 0x17, fun s p w => s.portChecks p w true),
   (.fill e x, opcIs 0x18, fun s p w => s.fillChecks p w)]

def orderIs (k : Nat) (port : Nat → Option Nat) (w : Ccw) : Bool :=
  decide (w.opc = 0x40) && decide (w.space.toNat = spPort) && (port w.port).isSome && decide (w.sub.toNat = k)

/-- The CONTROL orders (Table 11.9). -/
def orderRows (e : Nat) (x : Xfer) : List WordRow :=
  [(.fpCommitGateList e x, orderIs 1 fpOf, fun s p w => s.orderChecks p w false),
   (.fpLinkDownOrder e x, orderIs 2 fpOf, fun s p w => s.orderChecks p w false),
   (.fpLinkUpOrder e x, orderIs 3 fpOf, fun s p w => s.orderChecks p w false),
   (.dreqClearPending e x, orderIs 1 dreqOf, fun s p w => s.orderChecks p w false),
   (.xtAssertHold e x, orderIs 1 xtOf, fun s p w => s.orderChecks p w false),
   (.xtRelease e x, orderIs 2 xtOf, fun s p w => s.orderChecks p w false),
   (.xtResetCycle e x, orderIs 3 xtOf, fun s p w => s.orderChecks p w false),
   (.uartFlush e x, orderIs 1 uartOf, fun s p w => s.orderChecks p w false),
   (.i2cBusRecovery e x, orderIs 1 i2cOf, fun s p w => s.orderChecks p w false),
   (.gpioSet e x, orderIs 0x10 gpioPort, fun s p w => s.orderChecks p w true),
   (.gpioClear e x, orderIs 0x11 gpioPort, fun s p w => s.orderChecks p w true),
   (.gpioToggle e x, orderIs 0x12 gpioPort, fun s p w => s.orderChecks p w true)]

/-- Every word of an engine, POST of a notice apart. -/
def wordRows (e : Nat) (x : Xfer) (r : Rd) (agree : Bool) : List WordRow :=
  controlRows e x r agree ++ deviceRows e x ++ dataRows e x ++ orderRows e x

/-! ## Invariants -/

/-- The vendor's root slots, 0 and 1 of each algorithm, are programmed with the hashes they were made with (R403). -/
def VendorRootsStand (s : State) : Prop :=
  ∀ k, k ∈ [0, 1, 4, 5] → (s.rootAt k).programmed = true ∧ (s.rootAt k).hash = Config.vendorRoot k

end Sys2Proof.Machine
end

