-- ==== Sys2Proof/Certificates/Slice0/Obligations.lean ====
section
/-! DEFINITION. The statements for the provers. Those that rest on a choice of the model name its entry in the assumption log. -/
open Sys2Proof Sys2Proof.Machine

/-! ## The queue of commands -/

/-- STEP TAKES THE FRONT COMMAND. A step carries out the command at the front of the queue on the state with the queue's rest. -/
def Obligations.StepRunsFront : Prop :=
  ∀ (c : Instr) (rest : List Instr) (s : State), s.pending = c :: rest → step s = exec c { s with pending := rest }

/-- AN EMPTY QUEUE LETS ONE CLOCK TICK PASS (the model's choice, log 7): the step answers the state one CLK_TIME tick later, and the tick counter has
advanced by one. -/
def Obligations.StepOnEmptyQueueTicks : Prop :=
  ∀ s : State, s.pending = [] → ∃ t, step s = .next t ∧ t.tick = s.tick + 1

/-! ## Words that run on an engine (chapter 3) -/

/-- THE CHECKS OF A WORD DECIDE BEFORE ITS EFFECT (R69, R108). Of a delivered word of any row of `wordRows`, which is every word of an engine but POST
of a notice: a check that finds an ending ends the program with it, at the word it names; a part that is reserved has no stated effect, and the model
stops. BAR HOLDS A WORD UNTIL EARLIER WRITES ARE ACKNOWLEDGED (R75; log 76). Where the checks find nothing and a HOST write of the program is on its
way, a word with BAR, and a POST of a status word without it too, is held, and the read that follows the write is driven; when that read has
completed, the word is carried out as one just delivered, or ends with LINK_FAULT where the function can no longer issue requests. -/
def Obligations.WordChecksDecide : Prop :=
  ∀ (e : Nat) (x : Xfer) (r : Rd) (agree : Bool) (s : State) (p : Prog) (w : Ccw) (ws : List Ccw) (i : Instr) (m : Ccw → Bool)
    (chk : State → Prog → Ccw → Option Bad), (i, m, chk) ∈ wordRows e x r agree → m w = true →
    (Delivered s e p (w :: ws) →
        (∀ n k, chk s p w = some (.ends n k) → exec i s = .next (s.endAtWord e n k))
        ∧ (chk s p w = some .undef → exec i s = .fault .reservedWord))
    ∧ (DeliveredUnacked s e p (w :: ws) → chk s p w = none → (w.bar = true ∨ i = .postStatusWord e x) →
        exec i s = .next (((s.ack e).updProg e (fun q => { q with phase := .bar })).drive (.hostFlush p.fn)))
    ∧ (Stands s e p .bar → p.op = w :: ws → p.xf = none →
        let u := s.updProg e (fun q => { q with phase := .fetched, unacked := false })
        (s.canIssue p.fn = true → chk u { p with phase := .fetched, unacked := false } w = none → exec i s = exec i u)
        ∧ (s.canIssue p.fn = false → exec i s = .next (s.endAtWord e Ending.linkFault 0)))

/-- REGISTER WORDS WRITE THE REGISTER AND THE FLAGS OF THE RULES, AND NOTHING ELSE (R96, Table 3.12, R70, R103, R151). Of a delivered word whose checks
find nothing: SETG puts ADDR into GPn, ADDG the sum modulo 2⁶⁴; ADDG and TESTG set Z and N of the result, and C on a carry out of bit 63 (ADDG) or
when GPn is lower than the operand, unsigned (TESTG); S does not change; a LOADG from the local store takes COUNT bytes zero-extended and sets Z and
N. The word completes; in a program that goes on, it is counted, the program stands at the next word, its engine has acknowledged the broadcasts sent
to it, and no other engine and no other part of the device has changed. LOADG AND STOREG REACH HOST MEMORY AND THE YARD (R80, R96, Table 3.12, R485).
A LOADG from HOST takes the bytes that the outside supplied and one from the YARD the bytes there, both zero-extended; a STOREG drives the low COUNT
bytes of GPn to HOST, or writes them to the YARD or the local store; both then complete. A HOST transfer that fails ends the program with LINK_FAULT
or DATA_FAULT as its status says, and a YARD range with an uncorrectable word ends a LOADG with DATA_FAULT. -/
def Obligations.RegisterWordsRun : Prop :=
  (∀ (e : Nat) (x : Xfer) (s : State) (p : Prog) (w : Ccw), Delivered s e p [w] →
     (w.opc = 0x20 → ctlChecks p w (decide (w.space = 0)) (!w.plain false true false true || decide (15 < w.sub.toNat)) false [] = none →
         ∃ t, exec (.setg e) s = .next t ∧ t = (s.updProg e (fun q => q.setGp w.sub.toNat w.addr)).completeWord e .next
           ∧ (p.goesOn → OnlyProg (s.ack e) t e ((p.setGp w.sub.toNat w.addr).done p.after)))
     ∧ (w.opc = 0x21 → ctlChecks p w (decide (w.space = 0)) (arithUndef w) false [] = none →
         let a := p.getGp w.sub.toNat
         let b := p.operand w
         let f := fun (q : Prog) => (q.setGp w.sub.toNat (a + b)).setFlags (decide (a + b = 0)) (a + b).msb (decide (2 ^ 64 ≤ a.toNat + b.toNat))
         ∃ t, exec (.addg e) s = .next t ∧ t = (s.updProg e f).completeWord e .next ∧ (p.goesOn → OnlyProg (s.ack e) t e ((f p).done p.after)))
     ∧ (w.opc = 0x24 → ctlChecks p w (decide (w.space = 0)) (arithUndef w) false [] = none →
         let a := p.getGp w.sub.toNat
         let b := p.operand w
         let f := fun (q : Prog) => q.setFlags (decide (a - b = 0)) (a - b).msb (decide (a.toNat < b.toNat))
         ∃ t, exec (.testg e) s = .next t ∧ t = (s.updProg e f).completeWord e .next ∧ (p.goesOn → OnlyProg (s.ack e) t e ((f p).done p.after)))
     ∧ (w.opc = 0x22 → s.regMemChecks p w false = none → (p.eff w).space = spLocal →
         let r := BitVec.ofNat 64 (leNat ((s.localStore e).readN (p.eff w).addr.toNat w.count.toNat))
         let f := fun (q : Prog) => (q.setGp w.sub.toNat r).flagsOf r
         ∃ t, exec (.loadg e x) s = .next t ∧ t = (s.updProg e f).completeWord e .next ∧ (p.goesOn → OnlyProg (s.ack e) t e ((f p).done p.after))))
  ∧ (∀ (e : Nat) (x : Xfer) (s : State) (p : Prog) (w : Ccw), Delivered s e p [w] →
     (w.opc = 0x22 → s.regMemChecks p w false = none → (p.eff w).space = spHost →
         let r := BitVec.ofNat 64 (leNat (x.data.take w.count.toNat))
         (x.status = .ok → w.count.toNat ≤ x.data.length →
             exec (.loadg e x) s = .next ((s.updProg e (fun q => (q.setGp w.sub.toNat r).flagsOf r)).completeWord e .next))
         ∧ (∀ b, xferEnding x.status true = some b → exec (.loadg e x) s = .next (s.endAtWord e b 0)))
     ∧ (w.opc = 0x22 → s.regMemChecks p w false = none → (p.eff w).space = spYard →
         let r := BitVec.ofNat 64 (leNat (s.yard.read (p.eff w).addr.toNat w.count.toNat))
         (s.yard.firstBad (p.eff w).addr.toNat w.count.toNat = none →
             exec (.loadg e x) s = .next ((s.updProg e (fun q => (q.setGp w.sub.toNat r).flagsOf r)).completeWord e .next))
         ∧ (∀ a, s.yard.firstBad (p.eff w).addr.toNat w.count.toNat = some a →
             exec (.loadg e x) s = .next ((s.reportBad a 1).endAtWord e Ending.dataFault 0)))
     ∧ (w.opc = 0x23 → s.regMemChecks p w true = none →
         (((p.eff w).space = spHost → x.status = .ok) →
             exec (.storeg e x) s = .next ((s.writePiece e p.fn { space := (p.eff w).space, addr := (p.eff w).addr, len := w.count.toNat }
               (leBytes w.count.toNat (p.getGp w.sub.toNat).toNat)).completeWord e .next))
         ∧ (∀ b, (p.eff w).space = spHost → xferEnding x.status true = some b → exec (.storeg e x) s = .next (s.endAtWord e b 0))))

/-- CONTROL WORDS CONTINUE WHERE THE RULES SAY (R70, R82 to R84, Tables 3.7 and 3.8). Of a delivered word whose checks find nothing: NOP completes to
the next word; LOOP decrements GPn and continues at its target unless GPn was 0 or becomes 0; BRANCH continues at its target when its condition
holds; CALL, with fewer than four addresses held, pushes the address of the next word; RETURN continues at the popped address; a word that would
continue where R82 allows no target ends its program with CHAIN_FAULT. HOW A WORD COMPLETES (R70, R103, R120, R123, R151). A word completes in a
program that holds no mover channel: its engine acknowledges the broadcasts sent to it, the word is counted, the program stands at the next word or at
the target, and nothing else changes; then a pending halt ends the program with HALTED, a pending hold suspends it, and a last word without LNK ends it
normally. TIC CONTINUES AT ITS TARGET, WHOSE WORD MUST NOT BE A TIC (R70, R82, R112). The line of the target is fetched; where its word is no TIC the
program continues there; where it is one the program ends with CHAIN_FAULT; where the fetch fails it ends with DATA_FAULT or LINK_FAULT. -/
def Obligations.ControlWordsContinue : Prop :=
  (∀ (e : Nat) (s : State) (p : Prog) (w : Ccw), Delivered s e p [w] →
     (w.opc = 0 → zeroChecks p w false = none → exec (.nop e) s = .next (s.completeWord e .next))
     ∧ (w.opc = 2 → ctlChecks p w (chainSpace w) (!chainPlain w true || decide (15 < w.sub.toNat)) false [] = none →
         let v := p.getGp w.sub.toNat
         let u := s.updProg e (fun q => q.setGp w.sub.toNat (v - 1))
         (v = 0 → exec (.loop e) s = .next (s.completeWord e .next))
         ∧ (v = 1 → exec (.loop e) s = .next (u.completeWord e .next))
         ∧ (v ≠ 0 → v ≠ 1 → (∀ a, p.target w = some a → exec (.loop e) s = .next (u.completeWord e (.jump a)))
             ∧ (p.target w = none → exec (.loop e) s = .next (u.endAtWord e Ending.chainFault 0))))
     ∧ (w.opc = 3 → ctlChecks p w (chainSpace w) (!chainPlain w true || decide (8 < w.sub.toNat)) false [] = none →
         (p.cond w.sub.toNat = false → exec (.branch e) s = .next (s.completeWord e .next))
         ∧ (p.cond w.sub.toNat = true → (∀ a, p.target w = some a → exec (.branch e) s = .next (s.completeWord e (.jump a)))
             ∧ (p.target w = none → exec (.branch e) s = .next (s.endAtWord e Ending.chainFault 0))))
     ∧ (w.opc = 9 → ctlChecks p w (chainSpace w) (!chainPlain w false) false [] = none → p.stack.length < 4 →
         (∀ a, p.target w = some a → exec (.call e) s =
             .next ((s.updProg e (fun q => { q with stack := p.opAddr 1 :: q.stack })).completeWord e (.jump a)))
         ∧ (p.target w = none → exec (.call e) s = .next (s.endAtWord e Ending.chainFault 0)))
     ∧ (w.opc = 0x0A → zeroChecks p w false = none → ∀ a rest, p.stack = a :: rest →
         exec (.ret e) s = .next ((s.updProg e (fun q => { q with stack := rest })).completeWord e (.jump a))))
  ∧ (∀ (e : Nat) (s : State) (p : Prog), s.prog e = some p → p.chan = none →
     (∃ t, OnlyProg (s.ack e) t e (p.done p.after)
         ∧ s.completeWord e .next = (if p.haltPend then t.endAtLast e Ending.halted else if p.opLnk = false then t.endNormal e false
             else if p.holdPend then t.suspendProg e .host p.after else t))
     ∧ (∀ a, ∃ t, OnlyProg (s.ack e) t e (p.done a)
         ∧ s.completeWord e (.jump a) = (if p.haltPend then t.endAtLast e Ending.halted else if p.holdPend then t.suspendProg e .host a else t)))
  ∧ (∀ (e : Nat) (r : Rd) (s u : State) (p : Prog) (w : Ccw) (a : W64), Delivered s e p [w] → w.opc = 1 →
     ctlChecks p w (chainSpace w) (!chainPlain w false) false [] = none →
     (p.target w = none → exec (.tic e r) s = .next (s.endAtWord e Ending.chainFault 0))
     ∧ (p.target w = some a →
         (∀ line, s.fetchLine e p a.toNat [(lineOf a.toNat, r)] = .line line u →
           (leAt (line.drop (a.toNat % 64)) 0 1 ≠ (if p.v1 then 8 else 1) → exec (.tic e r) s = .next (u.completeWord e (.jump a)))
           ∧ (leAt (line.drop (a.toNat % 64)) 0 1 = (if p.v1 then 8 else 1) → exec (.tic e r) s = .next (u.endAtWord e Ending.chainFault 0)))
         ∧ (s.fetchLine e p a.toNat [(lineOf a.toNat, r)] = .error u →
             exec (.tic e r) s = .next ((u.completeWord e (.jump a)).endProg e (if p.yard then Ending.dataFault else Ending.linkFault) a))))

/-- THE CALL STACK HOLDS FOUR ADDRESSES (R84). A delivered CALL whose checks find nothing, with fewer than four held, pushes the address of the word
after it and continues at its target; one made while four are held, and a RETURN made while none is held, end the program with CHAIN_FAULT. The
stack is empty when a program starts. -/
def Obligations.CallStackHoldsFour : Prop :=
  (∀ (e : Nat) (s : State) (p : Prog) (w : Ccw), Delivered s e p [w] →
    (w.opc = 9 → ctlChecks p w (chainSpace w) (!chainPlain w false) false [] = none →
        (p.stack.length < 4 → p.undisturbed → ∀ a, p.target w = some a →
            ∃ t, exec (.call e) s = .next t ∧ OnlyProg (s.ack e) t e ({ p with stack := p.opAddr 1 :: p.stack }.done a))
        ∧ (4 ≤ p.stack.length → exec (.call e) s = .next (s.endAtWord e Ending.chainFault 0)))
    ∧ (w.opc = 0x0A → zeroChecks p w false = none → p.stack = [] → exec (.ret e) s = .next (s.endAtWord e Ending.chainFault 0)))
  ∧ (∀ (pid n k cls : Nat) (q : Sq) (e : Staged) (h : Option Hdr), (newProg pid n k cls q e h).stack = [])

/-- HALT ENDS A PROGRAM NORMALLY (R70, R87, R36, R123, Table 4.5). A delivered HALT whose checks find nothing counts as completed, and the program ends
with SUCCESS after the commit-group policy of the end; SUB[0] adds UNIT_EXCEPTION; where a halt waits for the program, it ends with HALTED instead.
SUSPEND SUSPENDS AFTER ITS WORD (R73, R120, R123). A delivered SUSPEND whose checks find nothing, of a program of class 2 or 3, counts as completed and
the program is suspended, with a SUSPENDED completion; where a halt waits, the program ends with HALTED instead. At class 0 or 1 its checks end the
program with PROGRAM_FAULT. -/
def Obligations.HaltAndSuspend : Prop :=
  (∀ (e : Nat) (s : State) (p : Prog) (w : Ccw), Delivered s e p [w] → w.opc = 7 →
     ctlChecks p w (decide (w.space = 0)) (!w.plain false true false false || decide (1 < w.sub.toNat)) false [] = none →
     ∃ t, OnlyProg (s.ack e) t e (p.done p.after)
       ∧ exec (.halt e) s = .next (if p.haltPend then t.endAtLast e Ending.halted else t.endNormal e (w.sub.getLsbD 0)))
  ∧ (∀ (e : Nat) (s : State) (p : Prog) (w : Ccw), Delivered s e p [w] → w.opc = 6 →
     (zeroChecks p w (decide (p.cls ≤ 1)) = none →
       ∃ t, OnlyProg s t e (p.done p.after)
         ∧ exec (.suspend e) s = .next (if p.haltPend then t.endAtLast e Ending.halted else t.suspendProg e (.word w.lnk) p.pc))
     ∧ (p.cls ≤ 1 → w.reservedBits = false → w.plain false false false false = true → exec (.suspend e) s = .next (s.endAtWord e Ending.programFault 0)))

/-- POST WRITES A NOTICE OR A STATUS WORD (R75, R80, R88, R126, R132, R175, R179). A delivered POST with SUB 0: while four completions of the program are
held the word waits, before its checks; otherwise, where its checks find nothing, at class 0 a notice beyond NOTICES_MAX ends the program with
PROGRAM_FAULT, and any other makes a NOTICE ready that carries COUNT and the time its word was fetched, is counted, and the word completes. A
delivered POST with SUB 1 whose checks find nothing, with no HOST write of the program on its way, writes the eight bytes of GPn to HOST, the YARD or the local store, and completes; a HOST
transfer that fails ends the program. -/
def Obligations.PostWordsRun : Prop :=
  ∀ (e : Nat) (x : Xfer) (s : State) (p : Prog) (w : Ccw), Delivered s e p [w] → w.opc = 8 →
    (w.sub = 0 →
      (4 ≤ s.notesHeld e p.cqid → exec (.postNotice e) s = .next (s.updProg e (fun q => { q with phase := .noteHold, noted := true })))
      ∧ (s.notesHeld e p.cqid < 4 → ctlChecks p w (decide (w.space = 0)) (!w.plain false false true false) false [] = none →
          (p.cls = 0 → s.noticesMax p ≤ p.notices → exec (.postNotice e) s = .next (s.endAtWord e Ending.programFault 0))
          ∧ ((p.cls = 0 → p.notices < s.noticesMax p) →
              exec (.postNotice e) s = .next (((s.raiseNote e p (progCqe e p ⟨Status.notice, 0, 0x01⟩ p.pc w.count.toNat (p.fetchedAt.truncate 56))).updProg e
                (fun q => { q with notices := q.notices + 1 })).completeWord e .next))))
    ∧ (w.sub = 1 → s.statusChecks p w = none → p.unacked = false →
        ((w.space.toNat = spHost → x.status = .ok) →
          exec (.postStatusWord e x) s = .next ((s.writePiece e p.fn { space := w.space.toNat, addr := w.addr, len := 8 }
            (leBytes 8 (p.getGp w.mode.toNat).toNat)).completeWord e .next))
        ∧ (∀ b, w.space.toNat = spHost → xferEnding x.status true = some b → exec (.postStatusWord e x) s = .next (s.endAtWord e b 0)))

/-- A SIGNAL ACTS ON ITS TARGET AND ITS WORD COMPLETES (R86, R147, R148, R164, R321, R341, R395, R422, R427). A delivered SIGNAL whose checks find
nothing: SUB 1 rings a queue of the program's function as a host would; SUB 2 is an event of an MSI-X vector of the function; SUB 3 puts GPm into the
mailbox channel where its stamps agree and the direction has room, waits where it has none, drops and counts a word whose stamps differ, and where an
ABORTED notice stands clears it and ends with LINK_FAULT; SUB 4 counts an arrival at the barrier, and the arrival that reaches the count completes the
barrier; SUB 5 drives one pulse of the acknowledge line. -/
def Obligations.SignalWordsAct : Prop :=
  ∀ (e : Nat) (s : State) (p : Prog) (w : Ccw), Delivered s e p [w] → w.opc = 5 →
    (w.sub = 1 → signalChecks p w (decide (fld w.addr 12 20 ≠ 0) || decide (fld w.addr 48 16 ≠ 0))
          (badIf (match s.sq (fld w.addr 0 12) with | some q => decide (q.fn ≠ p.fn) | none => true) Ending.protectionFault 0) = none →
        exec (.signalDoorbell e) s = .next ((s.ringSq (fld w.addr 0 12) (fld w.addr 32 16)).completeWord e .next))
    ∧ (w.sub = 2 → signalChecks p w (decide (fld w.addr 8 56 ≠ 0)) none = none →
        exec (.signalInterrupt e) s = .next ((s.sendMsix p.fn (fld w.addr 0 8)).completeWord e .next))
    ∧ (w.sub = 3 → signalChecks p w (decide (fld w.addr 12 52 ≠ 0)) (badIf (s.engineEnd (fld w.addr 0 8) p.mid).isNone Ending.protectionFault 0) = none →
        let ch := fld w.addr 0 8
        ∀ i agree, s.engineEnd ch p.mid = some i →
          (((s.mchan ch).side i).aborted = true → exec (.signalMailboxWord e agree) s =
              .next ((s.updMchan ch (fun c => c.updSide i (fun m => { m with aborted := false }))).endAtWord e Ending.linkFault 0))
          ∧ (((s.mchan ch).side i).aborted = false →
              (agree = false → exec (.signalMailboxWord e agree) s = .next ((s.mbxForeign p.mid ch).completeWord e .next))
              ∧ (agree = true → mbxDepth ≤ ((s.mchan ch).outq i).length → ∃ t, exec (.signalMailboxWord e agree) s = .next t
                  ∧ OnlyProg (s.ack e) t e { p with phase := .mbxFull })
              ∧ (agree = true → ((s.mchan ch).outq i).length < mbxDepth →
                  exec (.signalMailboxWord e agree) s = .next ((s.mbxQueue ch i (p.getGp (fld w.addr 8 4))).completeWord e .next))))
    ∧ (w.sub = 4 → signalChecks p w (decide (fld w.addr 8 56 ≠ 0)) (s.arrivalChecks e p (fld w.addr 0 8)) = none →
        let u := ((s.updProg e (fun q => { q with arrivals := q.arrivals.put (fld w.addr 0 8) (s.bar (fld w.addr 0 8)).done })).updBar (fld w.addr 0 8)
          (fun b => { b with arrived := b.arrived + 1 })).completeWord e .next
        exec (.signalBarrierArrival e) s =
          .next (if (u.bar (fld w.addr 0 8)).count ≤ (u.bar (fld w.addr 0 8)).arrived then u.barrierDone (fld w.addr 0 8) else u))
    ∧ (w.sub = 5 → signalChecks p w (decide (fld w.addr 4 60 ≠ 0)) none = none →
        exec (.signalRequestAcknowledge e) s = .next ((s.drive (.dack (fld w.addr 0 4))).completeWord e .next))

/-- A WAIT WAITS UNTIL ITS EVENT OR ITS LIMIT (R85, R116, R148, R424, Table 3.9). Of a delivered WAIT whose checks find nothing: for a timer, a device
time or a delay it begins to wait with its limit; for a request line, a mailbox word, a Cell Pool queue or a barrier it completes at once with Z = 1
where what it waits for is there already, and begins to wait where it is not; where an ABORTED notice stands on the mailbox channel, it clears the
notice and ends with LINK_FAULT. When device time has reached the time of a WAIT for a time or a delay, in
a later tick, it completes with Z = 1. When the limit of a WAIT has passed and its event does not fall in this tick, it completes with Z = 0 where
MODE[0] asks for that, and ends the program with STEP_TIMEOUT where it does not. -/
def Obligations.WaitWordsWait : Prop :=
  (∀ (e : Nat) (s : State) (p : Prog) (w : Ccw), Delivered s e p [w] → w.opc = 4 → s.waitChecks e p w = none →
      let a := w.addr.toNat
      let begins := fun (k : WaitKind) => ∃ t, exec (.wait e) s = .next t ∧ OnlyProg (s.ack e) t e { p with
        phase := .wait { kind := k, startTick := s.tick, limitUs := w.count.toNat, onExpiry := w.mode.getLsbD 0 } }
      (w.sub = 1 → begins (.timer (a % 64)))
      ∧ (w.sub = 2 → (∀ u, s.takeDreq (a % 16) = some u → exec (.wait e) s = .next (u.finishWait e true))
          ∧ (s.takeDreq (a % 16) = none → begins (.dreq (a % 16))))
      ∧ (w.sub = 3 → ∀ i, s.engineEnd (a % 256) p.mid = some i → ((s.mchan (a % 256)).side i).aborted = true → exec (.wait e) s =
          .next ((s.updMchan (a % 256) (fun c => c.updSide i (fun m => { m with aborted := false }))).endAtWord e Ending.linkFault 0))
      ∧ (w.sub = 3 → ∀ i, s.engineEnd (a % 256) p.mid = some i → ((s.mchan (a % 256)).side i).aborted = false →
          (∀ v u, s.mbxTake (a % 256) i = (some v, u) → exec (.wait e) s =
              .next (((u.updProg e (fun q => q.setGp (a / 256 % 16) v.value)).finishWait e true).mbxRoom (a % 256) (!i)))
          ∧ ((∃ u, s.mbxTake (a % 256) i = (none, u)) → begins (.mbx (a % 256) (a / 256 % 16))))
      ∧ (w.sub = 4 → ((s.cpq (a % 4096)).words ≠ [] → exec (.wait e) s = .next (s.finishWait e true))
          ∧ ((s.cpq (a % 4096)).words = [] → begins (.cellq (a % 4096))))
      ∧ (w.sub = 5 → (∀ b, Tbl.find p.arrivals (a % 256) = some b →
            (b < (s.bar (a % 256)).done → exec (.wait e) s = .next (s.finishWait e true)) ∧ ((s.bar (a % 256)).done ≤ b → begins (.barrier (a % 256) b)))
          ∧ (Tbl.find p.arrivals (a % 256) = none → begins (.barrier (a % 256) (s.bar (a % 256)).done)))
      ∧ (w.sub = 6 → begins (.devTime w.addr))
      ∧ (w.sub = 7 → begins (.delay (s.now + a % 2 ^ 32))))
  ∧ (∀ (e : Nat) (s : State) (p : Prog) (y : WaitS), Stands s e p (.wait y) →
      ((∃ a, y.kind = .devTime a ∧ a.toNat ≤ s.now) ∨ (∃ d, y.kind = .delay d ∧ d ≤ s.now) → y.startTick < s.tick →
          exec (.deviceTimeWaitDone e) s = .next (s.finishWait e true))
      ∧ (s.waitDue y = false → y.limitUs ≠ 0 → s.passedUs y.startTick y.limitUs = true →
          exec (.waitLimitExpiry e) s = .next (if y.onExpiry then s.finishWait e false else s.endAtWord e Ending.stepTimeout 0)))

/-- A DATA WORD BEGINS, AND MOVES ITS BYTES ON THE MOVER CHANNEL THAT IT HOLDS (R72, R90, R94, R113, R299, R482, Table 3.11). A delivered MOVE, FILL,
VAULT_READ or REGION_READ whose checks find nothing begins: a VAULT_READ keeps the bytes of the image, and a REGION_READ those of the region and the
NAND pages to read, or ends with DATA_FAULT where a page is lost. While a mover carries it, each command moves the next portion: a MOVE from its source
to its destination, in either direction and with DRP to nowhere, FILL its pattern, REGION_READ and VAULT_READ the bytes kept. A MOVE with a raw NAND
page reads the page first and then delivers its bytes, or takes its bytes, drives them with 0xFF around them, programs the page, and then ends. -/
def Obligations.DataWordsMove : Prop :=
  (∀ (e : Nat) (x : Xfer) (s : State) (p : Prog) (w : Ccw) (ws : List Ccw), Delivered s e p (w :: ws) →
    (w.opc = 0x10 → s.moveChecks p w = none →
        ((p.eff w).space ≠ spRaw → exec (.move e x) s = .next ((s.beginXfr e Xfr.fresh).memMove e w x))
        ∧ ((p.eff w).space = spRaw → exec (.move e x) s =
            .next ((s.beginXfr e Xfr.fresh).rawMove e { p with xf := some Xfr.fresh } Xfr.fresh w x)))
    ∧ (w.opc = 0x18 → s.fillChecks p w = none → exec (.fill e x) s = .next ((s.beginXfr e Xfr.fresh).fillNext e w x))
    ∧ (w.opc = 0x15 → s.vaultChecks p w = none →
        let y := { Xfr.fresh with src := (((s.image (s.vaultSlot w)).getD []).drop (fld w.addr 0 58)).take (opLen p.op) }
        exec (.vaultRead e x) s = .next ((s.beginXfr e y).vaultNext e y w x))
    ∧ (w.opc = 0x14 → s.regionReadChecks p w = none → ∀ r, s.region (regionId w.addr) = some r →
        let pages := s.unitPages (regionId w.addr) r (regionOff w.addr) (opLen p.op)
        let q := State.askReads p.cls p.crew p.deadline pages (s.useRegion (regionId w.addr))
        (pages.any (fun z => s.pageLost z.1 z.2) = true → ∃ t, exec (.regionRead e x) s = .next t ∧ t = s.endAtWord e Ending.dataFault 0)
        ∧ (pages.any (fun z => s.pageLost z.1 z.2) = false →
            exec (.regionRead e x) s = .next ((q.2.beginXfr e { Xfr.fresh with src := r.bytesAt (regionOff w.addr) (opLen p.op), reads := q.1 }).goOn e
              (fun _ y w s => s.regionNext e y w x)))))
  ∧ (∀ (e : Nat) (x : Xfer) (s : State) (p : Prog) (w : Ccw) (ws : List Ccw) (y : Xfr), Carried s e p (w :: ws) y →
    (w.opc = 0x10 → (p.eff w).space ≠ spRaw →
        let ps := p.pieces p.op
        let out := decide ((p.eff w).mode % 2 = 1)
        let n := p.portion (hasCell (p.objPiece w :: ps)) (opLen p.op)
        let o := slicePieces [p.objPiece w] p.moved n
        let b := slicePieces ps p.moved n
        let src := if out then b else o
        let dst := if out then o else b
        let remote := !w.drp && dst.any (fun q => decide (q.space = spHost))
        let g := (s.collect e src remote x).blur (!w.drp && ps.any (fun q => overlaps (p.objPiece w) q))
        exec (.move e x) s = .next (State.wordProgress {
          bytes := g.bytes.length, fail := g.fail.map (fun f => (if out || remote then pieceIndex ps (p.moved + g.bytes.length) else 0, f.2)),
          st := if w.drp then g.st else State.scatter e p.fn dst g.bytes g.st } e p (opLen p.op) 0 (cellEnd src g) (cellEnd src g) 1 (fun p => p)))
    ∧ (w.opc = 0x18 →
        let k := p.portion false (opLen p.op)
        let bs := (List.range k).map (fun i => (p.pattern w).getD ((p.moved + i) % (p.pattern w).length) 0)
        exec (.fill e x) s = .next (State.wordProgress (s.deliverTo e p (slicePieces [p.objPiece w] p.moved k) bs false x) e p (opLen p.op) 0 false false 1
          (fun p => p)))
    ∧ (w.opc = 0x14 → x.status = .ok →
        let k := p.portion (hasCell (p.pieces p.op) && !w.drp) y.src.length
        let bs := (y.src.drop p.moved).take k
        exec (.regionRead e x) s = .next (State.wordProgress { bytes := bs.length, fail := none, st := if w.drp then s else State.scatter e p.fn (slicePieces (p.pieces p.op) p.moved k) bs s }
          e p y.src.length (mediaOps (opLen p.op)) false (decide (y.src.length < opLen p.op)) 1 (fun p => p)))
    ∧ (w.opc = 0x15 → x.status = .ok →
        let k := p.portion (hasCell (p.pieces p.op) && !w.drp) y.src.length
        let bs := (y.src.drop p.moved).take k
        exec (.vaultRead e x) s = .next (State.wordProgress { bytes := bs.length, fail := none, st := if w.drp then s else State.scatter e p.fn (slicePieces (p.pieces p.op) p.moved k) bs s }
          e p y.src.length 0 false (decide (y.src.length < opLen p.op)) 1 (fun p => p)))
    ∧ (w.opc = 0x10 → (p.eff w).space = spRaw → (p.eff w).mode % 2 = 0 → y.granted = true → x.status = .ok →
        let k := p.portion (hasCell (p.pieces p.op) && !w.drp) (opLen p.op)
        let bs := x.data.take k
        exec (.move e x) s = .next (State.wordProgress { bytes := bs.length, fail := none, st := if w.drp then s else State.scatter e p.fn (slicePieces (p.pieces p.op) p.moved k) bs s }
          e p (opLen p.op) 0 false false 1 (fun p => p)))
    ∧ (w.opc = 0x10 → (p.eff w).space = spRaw → (p.eff w).mode % 2 = 1 → y.granted = false →
        let g := s.collectNext e p false x
        let src := y.src ++ g.bytes
        let u := g.st.updProg e (fun p => { p with xf := p.xf.map (fun z => { z with src := src }) })
        let col := rawColumn (p.eff w).addr
        g.fail = none → cellEnd (p.pieces p.op) g = false → opLen p.op ≤ src.length →
          exec (.move e x) s = .next (((u.dropChan e dsOk).drive (.nandRaw (p.eff w).addr
            (List.replicate col 0xFF ++ src ++ List.replicate (u.pageBytes (rawLun (p.eff w).addr) - col - src.length) 0xFF))).rawJob e p (p.eff w).addr true)))
  ∧ (∀ (e : Nat) (x : Xfer) (s : State) (p : Prog) (w : Ccw) (y : Xfr), (p.eff w).mode % 2 = 0 → y.granted = false →
      s.rawMove e p y w x = s.rawJob e p (p.eff w).addr false)
  ∧ (∀ (e : Nat) (x : Xfer) (s : State) (p : Prog) (w : Ccw) (ws : List Ccw) (y : Xfr), Begun s e p (w :: ws) y → w.opc = 0x10 → (p.eff w).space = spRaw →
      (p.eff w).mode % 2 = 1 → y.granted = true →
      exec (.move e x) s = .next (State.endData { bytes := opLen p.op, fail := (xferEnding x.status false).map (fun n => (0, n)), st := s } e 0 false 1 (fun p => p)))

/-- HOW A DATA WORD GOES ON AND ENDS (R76, R91, R101, R103, R126, R127, R137). After a portion the mover's bytes are counted and so are the word's: where
bytes of its source are left, nothing failed and it did not end short, the word goes on, and at each further 64 KiB its engine acknowledges the
broadcasts sent to it and the step timeout starts again; otherwise it ends. Of a transfer that moved `m.bytes` bytes: the channel ends, a failure ends
the program where it was met, and a length mismatch with LENGTH_MISMATCH unless the last word sets TOL; otherwise Z says that nothing moved, C that
the lengths differed, S that a DEVSTAT bit other than DEV_END stands, N does not change, the bytes but record headers and the media operations are
counted, and the word completes. -/
def Obligations.DataWordEnding : Prop :=
  (∀ (m : Moved) (e total ops : Nat) (short mis : Bool) (dev : Byte) (fin : Prog → Prog) (p q : Prog) (a c : Nat), m.st.prog e = some q → q.chan = some (a, c) →
     let n := p.moved + m.bytes
     let u := (m.st.moverBytes a c m.bytes).updProg e (fun q => { q with moved := n, residual := opLen p.op - n })
     ((short = true ∨ m.fail.isSome = true ∨ total ≤ n) →
         State.wordProgress m e p total ops short mis dev fin = State.endData { bytes := n, fail := m.fail, st := u } e ops mis dev fin)
     ∧ (short = false → m.fail = none → n < total →
         (n / 65536 = p.moved / 65536 → State.wordProgress m e p total ops short mis dev fin = u.updProg e (fun q => { q with further := false }))
         ∧ (n / 65536 ≠ p.moved / 65536 →
             State.wordProgress m e p total ops short mis dev fin = (u.ack e).updProg e (fun q => { q with further := true, execAt := m.st.tick }))))
  ∧ (∀ (m : Moved) (e ops : Nat) (mis : Bool) (dev : Byte) (fin : Prog → Prog) (p : Prog), m.st.prog e = some p →
     let u := (m.st.updProg e (fun q => { q with residual := opLen p.op - m.bytes })).dropChan e (xferStatus m.fail mis)
     (∀ f, m.fail = some f → State.endData m e ops mis dev fin = u.endAtWord e f.2 f.1)
     ∧ (m.fail = none → mis = true → p.opTol = false → State.endData m e ops mis dev fin = (u.updProg e fin).endAtWord e Ending.lengthMismatch 0)
     ∧ (p.chan = none → m.fail = none → (mis = true → p.opTol = true) → p.goesOn → fin = (fun p => p) →
         OnlyProg (m.st.ack e) (State.endData m e ops mis dev fin) e ({ p with
           residual := opLen p.op - m.bytes, z := decide (m.bytes = 0), c := mis, s := decide (dev &&& 0xFE ≠ 0), devstat := dev,
           bytes := p.bytes + (m.bytes - (match p.xf with | some x => x.heads | none => 0)), ops := p.ops + ops, opsLeft := p.opsLeft - ops }.done p.after)))

/-- A READ OF A STREAM DELIVERS WHOLE RECORDS IN ORDER FROM THE CURSOR (R53, R54, R93, R380). A delivered READ_STREAM whose checks find nothing: where
the cursor is a sequence number below the oldest one still held, the program ends with DATA_GONE; where a NAND page of the records is lost it ends with
DATA_FAULT; otherwise as many whole visible records as fit are kept, and the number after the last of them. While a mover carries the word and the
transfer is served, it delivers them, and with its end GP((n+1) mod 16) takes that number. -/
def Obligations.StreamReadDelivers : Prop :=
  (∀ (e : Nat) (x : Xfer) (s : State) (p : Prog) (w : Ccw) (ws : List Ccw) (st : Stream), Delivered s e p (w :: ws) → w.opc = 0x12 →
    s.streamChecks p w = none → s.stream (fld w.addr 48 16) = some st →
    let id := fld w.addr 48 16
    let n := opLen p.op
    let cur := (p.getGp (fld w.sub 0 4 + 1)).toNat
    let time := w.mode.getLsbD 0
    let r := takeRecs id (st.from time cur) n
    let read := (st.from time cur).takeWhile (fun q => decide (q.seq < r.2.getD 0))
    let q := State.askReads p.cls p.crew p.deadline (s.recPages id read) (s.useStream id)
    let gone := (s.recPages id read).any (fun z => s.pageLost z.1 z.2)
    (time = false → cur < st.oldSeq → exec (.readStream e x) s = .next (s.endAtWord e Ending.dataGone 0))
    ∧ ((time = false → st.oldSeq ≤ cur) → gone = true → exec (.readStream e x) s = .next (s.endAtWord e Ending.dataFault 0))
    ∧ ((time = false → st.oldSeq ≤ cur) → gone = false →
        exec (.readStream e x) s = .next ((q.2.beginXfr e { Xfr.fresh with
          src := r.1, heads := 32 * read.length, next := r.2.getD (st.startAt time cur), reads := q.1 }).goOn e (fun _ y w s => s.streamNext e y w x))))
  ∧ (∀ (e : Nat) (x : Xfer) (s : State) (p : Prog) (w : Ccw) (ws : List Ccw) (y : Xfr), Carried s e p (w :: ws) y → w.opc = 0x12 → x.status = .ok →
      let k := p.portion (hasCell (p.pieces p.op) && !w.drp) y.src.length
      let bs := (y.src.drop p.moved).take k
      exec (.readStream e x) s = .next (State.wordProgress { bytes := bs.length, fail := none, st := if w.drp then s else State.scatter e p.fn (slicePieces (p.pieces p.op) p.moved k) bs s }
        e p y.src.length (mediaOps (opLen p.op)) false (decide (y.src.length < opLen p.op)) 1 (fun p => p.setGp (fld w.sub 0 4 + 1) (BitVec.ofNat 64 y.next))))

/-- PERSISTENCE WORDS JOIN THE OPEN GROUP WHEN THEIR CHARGE IS GRANTED (R31, R34, R36, R44, R45, R49, R51, R57, R92, R97). A delivered APPEND,
REGION_WRITE or TRIM whose checks find nothing begins its write: it opens a group where none is open; one that would take a PINNED stream beyond its
byte count ends with RESOURCE_EXHAUSTED, one that would take the group beyond 4 MiB with PROGRAM_FAULT, a charge that is refused with ENERGY_LIMIT, and
one that waits puts the word in the charge queue; a charge that is granted lets the write join the group: a TRIM then completes, and an APPEND or a
REGION_WRITE takes its bytes. With the last of them the write is whole, and under Seal each write its group is sealed. A CHARGE THAT WAITS IS
GRANTED IN ITS TURN (R44, R127). When the head of a charge queue may be admitted and its bytes fit the room and the reserve of its program, the charge
leaves the queue and its word is carried out, its step timeout counted from now. -/
def Obligations.PersistWordsRun : Prop :=
  (∀ (e : Nat) (x : Xfer) (s : State) (p : Prog) (w : Ccw) (ws : List Ccw), Delivered s e p (w :: ws) →
     (w.opc = 0x11 → s.appendChecks p w = none →
         exec (.append e x) s = .next (((s.useStream (fld w.addr 48 16)).beginPersist e).goOn e (fun _ _ w s => s.persistNext e w x)))
     ∧ (w.opc = 0x13 → s.regionWriteChecks p w = none →
         exec (.regionWrite e x) s = .next (((s.useRegion (regionId w.addr)).beginPersist e).goOn e (fun _ _ w s => s.persistNext e w x)))
     ∧ (w.opc = 0x31 → s.trimChecks p w = none → exec (.trim e) s = .next (s.beginPersist e)))
  ∧ (∀ (e : Nat) (s : State) (p : Prog) (w : Ccw) (ws : List Ccw) (t : Target), s.prog e = some p → p.op = w :: ws → p.persistTarget w = some t →
     (∀ id, s.pinnedFull t (opLen p.op) = some id →
         s.beginPersist e = (s.updStream id (fun st => { st with full := true })).endAtWord e Ending.resourceExhausted 0)
     ∧ (s.pinnedFull t (opLen p.op) = none →
         let o := s.openGroup e p
         let c := t.charge (opLen p.op)
         (groupMax < o.2.groupCharge (some o.1) + c → s.beginPersist e = o.2.endAtWord e Ending.programFault 0)
         ∧ (o.2.groupCharge (some o.1) + c ≤ groupMax →
             (o.2.tryCharge { p with group := some o.1 } c = .refused → s.beginPersist e = o.2.endAtWord e Ending.energyLimit 0)
             ∧ (o.2.tryCharge { p with group := some o.1 } c = .waits →
                 s.beginPersist e = ((o.2.enqueueCharge e p.cls c).ack e).updProg e (fun q => { q with phase := .charge }))
             ∧ (o.2.tryCharge { p with group := some o.1 } c = .granted → s.beginPersist e = o.2.grantPersist e)))
     ∧ (∀ g, p.group = some g → s.pinnedFull t (opLen p.op) = none →
         let c := t.charge (opLen p.op)
         let b := (s.updProg e (fun q => { q with reserve := q.reserve - c, phase := .fetched })).bindWrite t g (List.replicate (t.moves (opLen p.op)) 0)
         (t.moves (opLen p.op) ≠ 0 → s.grantPersist e = (b.2.addWrite g b.1 c).beginXfr e { Xfr.fresh with granted := true })
         ∧ (t.moves (opLen p.op) = 0 →
             let u := (b.2.addWrite g b.1 c).updProg e (fun q => q.deviceDone 0 1 1)
             s.grantPersist e = (if p.policy = 2 then u.sealOpen e else u).completeWord e .next)))
  ∧ (∀ (e : Nat) (x : Xfer) (s : State) (p : Prog) (w : Ccw) (ws : List Ccw) (y : Xfr) (i : Nat), Carried s e p (w :: ws) y → p.group = some i →
     let g := s.collectNext e p false x
     let src := y.src ++ g.bytes
     let u := g.st.updProg e (fun p => { p with xf := p.xf.map (fun z => { z with src := src }) })
     g.fail = none → cellEnd (p.pieces p.op) g = false →
     let next := if src.length < opLen p.op then u else if p.policy = 2 then (u.fillWrite i src).sealOpen e else u.fillWrite i src
     let t := State.wordProgress { bytes := g.bytes.length, fail := none, st := next } e p (opLen p.op) (mediaOps (opLen p.op)) false false 1 (fun p => p)
     (w.opc = 0x11 → exec (.append e x) s = .next t) ∧ (w.opc = 0x13 → exec (.regionWrite e x) s = .next t))
  ∧ (∀ (c0 : Bool) (x : Xfer) (s : State) (c : Charge) (rest : List Charge) (p : Prog), s.lq.queue c0 = c :: rest → s.running c.eng = some p →
     s.chargeOpen c.cls = true → c.bytes ≤ s.freeRoom c.cls + p.reserve →
     exec (.landingChargeGrant c0 x) s = .next ((((s.dropCharge c.eng).updProg c.eng (fun q => { q with execAt := s.tick })).grantPersist c.eng).goOn c.eng
       (fun _ _ w s => s.persistNext c.eng w x)))

/-- SEAL CLOSES THE OPEN GROUP, AND SYNC WAITS FOR WHAT THE PROGRAM SEALED (R35, R40, R97, R98, R101). A delivered SEAL whose checks find nothing seals
and completes. A delivered SYNC whose checks find nothing seals first where MODE[1] asks for it; it completes where all the program's sealed groups are
media-durable and, with MODE[0], the stream it names is durable up to its accepted number, and waits where one is not. A waiting SYNC completes when
everything it waits for is media-durable, and ends its program with STEP_TIMEOUT when its limit passes first. -/
def Obligations.SealAndSyncRun : Prop :=
  (∀ (e : Nat) (s : State) (p : Prog) (w : Ccw), Delivered s e p [w] → w.opc = 0x30 → zeroChecks p w false = none →
      exec (.seal e) s = .next (((s.sealOpen e).updProg e (fun q => q.deviceDone 0 0 1)).completeWord e .next))
  ∧ (∀ (e : Nat) (s : State) (p q : Prog) (w : Ccw), Delivered s e p [w] → w.opc = 0x32 → s.syncChecks e p w = none →
      let u := if w.mode.getLsbD 1 then s.sealOpen e else s
      u.prog e = some q →
      let y : SyncS := { groups := q.sealed, stream := u.syncScope w, startTick := u.tick, limitUs := w.count.toNat }
      exec (.sync e) s = .next (if u.syncDone y then u.finishSync e else (u.ack e).updProg e (fun v => { v with phase := .sync y })))
  ∧ (∀ (e : Nat) (s : State) (p : Prog) (y : SyncS), Stands s e p (.sync y) →
      (s.syncDone y = true → exec (.syncComplete e) s = .next (s.finishSync e))
      ∧ (s.syncDone y = false → y.limitUs ≠ 0 → s.passedUs y.startTick y.limitUs = true →
          exec (.syncLimitExpiry e) s = .next (s.endAtWord e Ending.stepTimeout 0)))

/-- THE TIME LIMITS OF A PROGRAM (R127 to R129). A program whose word has executed for the step timeout ends with STEP_TIMEOUT, a SEAL completing first,
and its engine reports class 0x0C. A program whose DEADLINE has passed ends with STEP_TIMEOUT at class 2 or 3, and with DEADLINE_MISSED at class 1
where guarantee-lost is set: at its last word where it stands between words, and at the word in hand, a SEAL completing first, where it stands in one. -/
def Obligations.TimeLimitsEndPrograms : Prop :=
  ∀ (e : Nat) (s : State) (p : Prog),
    (s.running e = some p → (p.phase = .fetched ∨ p.phase = .mbxFull ∨ p.phase = .bar) → s.passedUs p.execAt (s.stepUs p) = true →
        ((p.op.head?.any (fun w => decide (w.opc = 0x30)) = false ∨ p.phase ≠ .fetched) →
            exec (.stepTimeout e) s = .next ((s.endAtWord e Ending.stepTimeout 0).report 0x0C 0 kindEng e 0))
        ∧ (p.op.head?.any (fun w => decide (w.opc = 0x30)) = true → p.phase = .fetched →
            exec (.stepTimeout e) s = .next (((s.sealOpen e).endAtWord e Ending.stepTimeout 0).report 0x0C 0 kindEng e 0)))
    ∧ (∀ n, s.running e = some p → p.deadline ≠ 0 → p.deadline.toNat ≤ s.now → p.phase ≠ .postwait →
        (2 ≤ p.cls ∧ n = Ending.stepTimeout ∨ p.cls = 1 ∧ s.fcs.lost = true ∧ n = Ending.deadlineMissed) →
        (p.phase.inWord = false → exec (.deadlineExpiry e) s = .next (s.endAtLast e n))
        ∧ (p.phase.inWord = true → (p.op.head?.any (fun w => decide (w.opc = 0x30)) = false ∨ p.phase ≠ .fetched) → exec (.deadlineExpiry e) s = .next (s.endAtWord e n 0))
        ∧ (p.phase = .fetched → p.op.head?.any (fun w => decide (w.opc = 0x30)) = true →
            exec (.deadlineExpiry e) s = .next ((s.sealOpen e).endAtWord e n 0)))

/-- A SEAL WITHOUT AN OPEN GROUP DOES NOTHING (R40). A delivered SEAL whose checks find nothing, in a program that goes on and has no group open: the
word completes at once, and but for the broadcasts that its engine acknowledges only the program has changed: no group is sealed, and the id of the next
group is what it was. -/
def Obligations.SealWithoutGroupDoesNothing : Prop :=
  ∀ (e : Nat) (s : State) (p : Prog) (w : Ccw), Delivered s e p [w] → w.opc = 0x30 → zeroChecks p w false = none → p.group = none → p.goesOn →
    ∃ t, exec (.seal e) s = .next t ∧ OnlyProg (s.ack e) t e ((p.deviceDone 0 0 1).done p.after) ∧ t.lq = s.lq

/-- AN EXPLICIT PROGRAM THAT LEAVES A GROUP OPEN FAILS (R37). A program under the Explicit policy, with group `g` open, ends normally where its last
word, without LNK, completes, and where a HALT does, with no halt pending: it ends with PROGRAM_FAULT, and no group `g` remains. -/
def Obligations.ExplicitGroupLeftOpenIsDiscarded : Prop :=
  ∀ (e g : Nat) (ue : Bool) (s : State) (p : Prog), s.prog e = some p → p.policy = 0 → p.group = some g → p.phase ≠ .postwait →
    s.endNormal e ue = s.endProg e Ending.programFault p.last ∧ (∀ h, h ∈ (s.endNormal e ue).lq.groups → h.id ≠ g)
    ∧ (p.chan = none → p.opLnk = false → p.haltPend = false → ∃ t, OnlyProg (s.ack e) t e (p.done p.after) ∧ s.completeWord e .next = t.endNormal e false)
    ∧ (p.chan = none → p.haltPend = false → ∃ t, OnlyProg (s.ack e) t e (p.done p.after) ∧ s.completeWord e (.stop ue) = t.endNormal e ue)

/-! ## Queues (chapter 6) -/

/-- A TAIL DOORBELL SETS THE TAIL, OR AN ERROR BIT (R9, R161, R162, R167). Of a host whose function is not fenced, on a submission queue of its own: a
value of depth or more leaves the tail and sets DB_ERR; any other value becomes the tail, lets a stopped fetch go on, and where it moves the tail its
time is kept. The admin tail doorbell does the same to the admin pair. A HEAD DOORBELL FREES SLOTS, OR SETS AN ERROR BIT (R162). On a completion queue
of its own, and on the admin pair: a value in the circular range from head to tail becomes the head; any other value leaves the head and sets DB_ERR.
Nothing else of the part changes, but that a set error bit is marked as set in this tick. A doorbell of another function's queue, of a queue that does
not exist, at any other offset, or of a fenced function is dropped. -/
def Obligations.DoorbellsMoveQueues : Prop :=
  (∀ (fn off : Nat) (v : W32) (s : State),
     (s.fnLive fn = false → exec (.sqTailDoorbell fn off v) s = .next s ∧ exec (.cqHeadDoorbell fn off v) s = .next s)
     ∧ (off ≠ 0xF0000 → (0x8000 ≤ off ∨ off % 8 ≠ 0) → exec (.sqTailDoorbell fn off v) s = .next s)
     ∧ (off ≠ 0xF0008 → (off < 0x80000 ∨ 0x84000 ≤ off ∨ off % 8 ≠ 0) → exec (.cqHeadDoorbell fn off v) s = .next s))
  ∧ (∀ (fn n : Nat) (v : W32) (s : State), s.fnLive fn = true → n < 0x1000 →
     (s.sq n = none → exec (.sqTailDoorbell fn (8 * n) v) s = .next s)
     ∧ (∀ q, s.sq n = some q →
         (q.fn ≠ fn → exec (.sqTailDoorbell fn (8 * n) v) s = .next s)
         ∧ (q.fn = fn → q.depth ≤ fld v 0 16 → ∃ t, exec (.sqTailDoorbell fn (8 * n) v) s = .next t ∧ t.sq n = some { q with dbErr := true }
             ∧ (∀ m, m ≠ n → t.sq m = s.sq m)
             ∧ t = { s with qe := { s.qe with sqs := t.qe.sqs }, top := { s.top with hot := (qeReg fn (0x20004 + 0x20 * n), 256) :: s.top.hot } })
         ∧ (q.fn = fn → fld v 0 16 < q.depth → ∃ t, exec (.sqTailDoorbell fn (8 * n) v) s = .next t
             ∧ t.sq n = some { q with tail := fld v 0 16, stopped := false,
                                      bells := if fld v 0 16 = q.tail then q.bells else q.bells ++ [(fld v 0 16, s.tick)] }
             ∧ (∀ m, m ≠ n → t.sq m = s.sq m) ∧ t = { s with qe := { s.qe with sqs := t.qe.sqs } })))
  ∧ (∀ (fn : Nat) (v : W32) (s : State), s.fnLive fn = true →
     (fld v 0 16 < (s.aq fn).sqDepth → ∃ t, exec (.sqTailDoorbell fn 0xF0000 v) s = .next t ∧ (∀ g, g ≠ fn → t.aq g = s.aq g)
         ∧ t.aq fn = { s.aq fn with sqTail := fld v 0 16, stopped := false } ∧ t = { s with qe := { s.qe with aqs := t.qe.aqs } })
     ∧ ((s.aq fn).sqDepth ≤ fld v 0 16 → ∃ t, exec (.sqTailDoorbell fn 0xF0000 v) s = .next t ∧ (∀ g, g ≠ fn → t.aq g = s.aq g)
         ∧ t.aq fn = { s.aq fn with dbErr := true }
         ∧ t = { s with qe := { s.qe with aqs := t.qe.aqs }, top := { s.top with hot := (qeReg fn 4, 256) :: s.top.hot } })
     ∧ (inRing (s.aq fn).cqHead (s.aq fn).cqTail (s.aq fn).cqDepth (fld v 0 16) = true → ∃ t, exec (.cqHeadDoorbell fn 0xF0008 v) s = .next t
         ∧ (∀ g, g ≠ fn → t.aq g = s.aq g) ∧ t.aq fn = { s.aq fn with cqHead := fld v 0 16 } ∧ t = { s with qe := { s.qe with aqs := t.qe.aqs } })
     ∧ (inRing (s.aq fn).cqHead (s.aq fn).cqTail (s.aq fn).cqDepth (fld v 0 16) = false → ∃ t, exec (.cqHeadDoorbell fn 0xF0008 v) s = .next t
         ∧ (∀ g, g ≠ fn → t.aq g = s.aq g) ∧ t.aq fn = { s.aq fn with dbErr := true }
         ∧ t = { s with qe := { s.qe with aqs := t.qe.aqs }, top := { s.top with hot := (qeReg fn 4, 256) :: s.top.hot } }))
  ∧ (∀ (fn m : Nat) (v : W32) (s : State), s.fnLive fn = true → m < 0x800 →
     (s.cq m = none → exec (.cqHeadDoorbell fn (0x80000 + 8 * m) v) s = .next s)
     ∧ (∀ q, s.cq m = some q →
         (q.fn ≠ fn → exec (.cqHeadDoorbell fn (0x80000 + 8 * m) v) s = .next s)
         ∧ (q.fn = fn → fld v 0 16 < q.depth → (fld v 0 16 + q.depth - q.head) % q.depth ≤ (q.tail + q.depth - q.head) % q.depth →
             ∃ t, exec (.cqHeadDoorbell fn (0x80000 + 8 * m) v) s = .next t ∧ (∀ k, k ≠ m → t.cq k = s.cq k) ∧ t = { s with qe := { s.qe with cqs := t.qe.cqs } }
               ∧ t.cq m = some { q with head := fld v 0 16, c0Full := q.c0Full && decide ((q.tail + 1) % q.depth = fld v 0 16) })
         ∧ (q.fn = fn → (q.depth ≤ fld v 0 16 ∨ (q.tail + q.depth - q.head) % q.depth < (fld v 0 16 + q.depth - q.head) % q.depth) →
             ∃ t, exec (.cqHeadDoorbell fn (0x80000 + 8 * m) v) s = .next t ∧ (∀ k, k ≠ m → t.cq k = s.cq k) ∧ t.cq m = some { q with dbErr := true }
               ∧ t = { s with qe := { s.qe with cqs := t.qe.cqs }, top := { s.top with hot := (qeReg fn (0x40004 + 0x20 * m), 256) :: s.top.hot } })))

/-- AN ENTRY IS TAKEN ONLY WITH THE MARK OF ITS LAP (R157, R159, R165 to R168, R182, R322). Of a queue, or an admin pair, that may be fetched and waits
for no slot: its head slot, from the copy held or from the block that the read returned, is taken where its OWN is the mark of this lap, and makes the
queue wait where it is not; a read that fails sets RD_ERR, is logged by AER, and makes the queue wait. An empty queue with SPEC reads the block of its
tail ahead. A waiting slot is read again, and taken where its OWN has come right. An entry that is taken joins the staged entries, and a packet the
Management Processor's; the head advances and the mark of the lap turns over at slot 0. An entry of the second group of Table 6.11 has an undefined
effect: the model stops. When OWN_WAIT_US has passed, OWN_ERR is set, fetching stops, and
the event SQ_OWN_TIMEOUT is posted. QUEUE CONTROL (R181, R189 to R191, Tables 6.14 and 6.15). A write of QE_SQ_CTRLn by the queue's function sets EN and
SPEC, and by another changes nothing; with HALT_ALL set and EN clear, every program of the queue is halted and every staged entry is to be answered HALTED. A write of QE_AQ_CTRL
clears the error bits that it writes 1 and no event sets in its tick; with EN set on a disabled pair it starts the pair with both rings empty; with EN
set on an enabled one it changes nothing else; with EN clear it stops the pair. -/
def Obligations.QueuesFetchAndStop : Prop :=
  (∀ (n : Nat) (r : Rd) (s : State) (q : Sq), s.sq n = some q → s.mayFetch n q = true →
     (q.ownWait = none → q.head ≠ q.tail →
       let held := (copyAt q.copy q.head).isSome
       let u := if held then s else s.readBlock q.fn q.base q.head q.depth
       let c := if held then q.copy else match r with | .data bs => some (blockCopy q.head q.depth bs) | .error => q.copy
       let v := u.updSq n (fun x => { x with copy := c })
       (∀ e, copyAt c q.head = some e →
           ((sqeOf e).own = q.phase → exec (.sqEntryFetch (.io n) r) s = v.stageSq n e)
           ∧ ((sqeOf e).own ≠ q.phase → exec (.sqEntryFetch (.io n) r) s =
               .next (v.updSq n (fun x => { x with copy := copyDrop x.copy x.head, ownWait := some u.tick }))))
       ∧ (copyAt c q.head = none → exec (.sqEntryFetch (.io n) r) s =
           .next (((u.updSq n (fun x => { x with rdErr := true, ownWait := some u.tick })).sqSets n 10).readFailed q.fn)))
     ∧ (q.ownWait = none → q.head = q.tail → q.spec = true → copyAt q.copy q.tail = none →
       let u := s.readBlock q.fn q.base q.tail q.depth
       (∀ bs, r = .data bs → exec (.sqEntryFetch (.io n) r) s = .next (u.updSq n (fun x => { x with copy := some (blockCopy x.tail x.depth bs) })))
       ∧ (r = .error → exec (.sqEntryFetch (.io n) r) s = .next (((u.updSq n (fun x => { x with rdErr := true })).sqSets n 10).readFailed q.fn)))
     ∧ (q.ownWait.isSome = true →
       let u := s.readRing q.fn q.base q.head 1
       (∀ e, r = .data e → e.length = 64 → (sqeOf e).own = q.phase → exec (.ownReread (.io n) r) s = u.stageSq n e)
       ∧ (∀ e, r = .data e → ¬ (e.length = 64 ∧ (sqeOf e).own = q.phase) → exec (.ownReread (.io n) r) s = .next u)
       ∧ (r = .error → exec (.ownReread (.io n) r) s = .next (((u.updSq n (fun x => { x with rdErr := true })).sqSets n 10).readFailed q.fn))))
  ∧ (∀ (n : Nat) (e : List Byte) (s : State) (q : Sq), s.sq n = some q →
     ((sqeOf e).undef = true → s.stageSq n e = .fault .reservedEntry)
     ∧ ((sqeOf e).undef = false → ∃ t st, s.stageSq n e = .next t ∧ st.sqe = sqeOf e ∧ st.waiting = false ∧ (∀ m, m ≠ n → t.sq m = s.sq m)
         ∧ t.sq n = some { q with
             staged := q.staged ++ [st], bells := (bellsAt q.head q.bells s.tick).2, copy := copyDrop q.copy q.head
             head := (q.head + 1) % q.depth, phase := if (q.head + 1) % q.depth = 0 then !q.phase else q.phase, ownWait := none }
         ∧ t = { s with qe := { s.qe with sqs := t.qe.sqs, nextStage := s.qe.nextStage + 1 } })
     ∧ (∀ k, q.ownWait = some k → s.passedUs k (s.aq q.fn).ownWaitUs = true → exec (.sqOwnTimeout (.io n)) s =
         .next (((s.updSq n (fun x => { x with ownErr := true, ownWait := none, stopped := true })).sqSets n 9).postEvent q.fn 0x0002 n (BitVec.ofNat 64 q.head))))
  ∧ (∀ (fn : Nat) (r : Rd) (s : State), s.mayFetchAq fn (s.aq fn) = true →
     let a := s.aq fn
     (a.ownWait = none → a.sqHead ≠ a.sqTail →
       let held := (copyAt a.copy a.sqHead).isSome
       let u := if held then s else s.readBlock fn a.sqBase a.sqHead a.sqDepth
       let c := if held then a.copy else match r with | .data bs => some (blockCopy a.sqHead a.sqDepth bs) | .error => a.copy
       let v := u.updAq fn (fun x => { x with copy := c })
       (∀ e, copyAt c a.sqHead = some e →
           ((sqeOf e).own = a.sqPhase → exec (.sqEntryFetch (.adm fn) r) s = .next (v.stageAq fn e))
           ∧ ((sqeOf e).own ≠ a.sqPhase → exec (.sqEntryFetch (.adm fn) r) s =
               .next (v.updAq fn (fun x => { x with copy := copyDrop x.copy x.sqHead, ownWait := some u.tick }))))
       ∧ (copyAt c a.sqHead = none → exec (.sqEntryFetch (.adm fn) r) s =
           .next (((u.updAq fn (fun x => { x with rdErr := true, ownWait := some u.tick })).aqSets fn 10).readFailed fn)))
     ∧ (a.ownWait.isSome = true →
       let u := s.readRing fn a.sqBase a.sqHead 1
       (∀ e, r = .data e → e.length = 64 → (sqeOf e).own = a.sqPhase → exec (.ownReread (.adm fn) r) s = .next (u.stageAq fn e))
       ∧ (∀ e, r = .data e → ¬ (e.length = 64 ∧ (sqeOf e).own = a.sqPhase) → exec (.ownReread (.adm fn) r) s = .next u)
       ∧ (r = .error → exec (.ownReread (.adm fn) r) s = .next (((u.updAq fn (fun x => { x with rdErr := true })).aqSets fn 10).readFailed fn))))
  ∧ (∀ (fn : Nat) (e : List Byte) (s : State),
     let h := ((s.aq fn).sqHead + 1) % (s.aq fn).sqDepth
     ∃ k, (s.stageAq fn e).mgp.staged = s.mgp.staged ++ [k] ∧ k.fn = fn ∧ k.bytes = e ∧ k.started = false
       ∧ (∀ g, g ≠ fn → (s.stageAq fn e).aq g = s.aq g)
       ∧ (s.stageAq fn e).aq fn = { s.aq fn with
           copy := copyDrop (s.aq fn).copy (s.aq fn).sqHead, sqHead := h, sqPhase := if h = 0 then !(s.aq fn).sqPhase else (s.aq fn).sqPhase
           ownWait := none })
  ∧ (∀ (fn k : Nat) (s : State), (s.aq fn).ownWait = some k → s.passedUs k (s.aq fn).ownWaitUs = true → exec (.sqOwnTimeout (.adm fn)) s =
       .next (((s.updAq fn (fun x => { x with ownErr := true, ownWait := none, stopped := true })).aqSets fn 9).postEvent fn 0x0002 0xFFFF
         (BitVec.ofNat 64 (s.aq fn).sqHead)))
  ∧ (∀ (fn n : Nat) (v : W32) (s : State), s.mayWrite (midOf fn) qeBlock = true →
     ((∀ q, s.sq n = some q → q.fn ≠ fn) → exec (.sqEnableWrite fn n v) s = .next s)
     ∧ (∀ q, s.sq n = some q → q.fn = fn →
       let u := s.updSq n (fun q => { q with en := v.getLsbD 0, spec := v.getLsbD 1 })
       ((v.getLsbD 2 = false ∨ v.getLsbD 0 = true) → exec (.sqEnableWrite fn n v) s = .next u)
       ∧ (v.getLsbD 2 = true → v.getLsbD 0 = false → exec (.sqEnableWrite fn n v) s = .next (u.haltQueue n) ∧ exec (.haltAll fn n v) s = .next (u.haltQueue n))
       ∧ (v.getLsbD 2 = true → v.getLsbD 0 = true → exec (.haltAll fn n v) s = .next u))
     ∧ (let w := s.clears (qeReg fn 4) v
        let b := { s.aq fn with dbErr := (s.aq fn).dbErr && !w.getLsbD 8, ownErr := (s.aq fn).ownErr && !w.getLsbD 9, rdErr := (s.aq fn).rdErr && !w.getLsbD 10 }
        ∃ t, exec (.aqEnable fn v) s = .next t ∧ (∀ g, g ≠ fn → t.aq g = s.aq g) ∧ t = { s with qe := { s.qe with aqs := t.qe.aqs } }
          ∧ (w.getLsbD 0 = true → (s.aq fn).en = false → t.aq fn = { b with
               en := true, rdy := true, sqHead := 0, sqTail := 0, sqPhase := true, cqHead := 0, cqTail := 0, cqPhase := true, ownWait := none
               stopped := false, copy := none })
          ∧ (w.getLsbD 0 = true → (s.aq fn).en = true → t.aq fn = b)
          ∧ (w.getLsbD 0 = false → t.aq fn = { b with en := false, rdy := false, ownWait := none, copy := none })))

/-- COMPLETIONS AND EVENTS ARE POSTED IN ORDER (R19, R171 to R178, R180, R183 to R185, R191, R196). Where the mode lets completions be posted: the oldest
ready completion of a queue goes to its ring where the ring has a free slot, the link a path and none is held before it, and is held otherwise, a
class-0 one that finds the ring full ending the posting bounds; a held one is posted once there is room; the oldest reply of an admin queue is posted
where the ring has room, the Management Processor runs and no event arose before it; a coalescing time that has passed sends the message; a stall that
has lasted CQ_STALL_US is reported; and the oldest admin event goes to an admin ring that has room. -/
def Obligations.CompletionsArePosted : Prop :=
  (∀ (m : Nat) (s : State) (q : Cq) (w : Waiting) (rest : List Waiting), s.cq m = some q → q.ready = w :: rest → s.postMode = true →
      let u := s.updCq m (fun x => { x with ready := rest })
      let h := u.updCq m (fun x => { x with held := x.held ++ [w] })
      (q.held = [] → q.full = false → u.canIssue q.fn = true → exec (.completionPost (.io m)) s = .next (u.postCqe m q w))
      ∧ ((q.held ≠ [] ∨ q.full = true ∨ u.canIssue q.fn = false) →
          exec (.completionPost (.io m)) s = .next ((if q.full && h.cqC0 m then h.c0RingFull m q else h).checkStall m)))
  ∧ (∀ (m : Nat) (s : State) (q : Cq) (w : Waiting), s.cq m = some q → minBy heldKey q.held = some w → s.canIssue q.fn = true → s.postMode = true →
      (q.full = false → exec (.heldCompletionPost m) s =
        .next (((s.updCq m (fun x => { x with held := x.held.erase w, stall := none, stalled := false })).postCqe m q w).checkStall m))
      ∧ (q.full = true → exec (.heldCompletionPost m) s = .next (s.c0StillFull m)))
  ∧ (∀ (fn n : Nat) (c : Cqe) (rest : List (Nat × Cqe)) (s : State), (s.aq fn).replies = (n, c) :: rest → s.admOpen fn = true → s.mgp.running = true →
      s.mgp.halted = false → ((s.aq fn).rdy = true → ∀ e l, (s.aq fn).events = e :: l → n ≤ e.no) →
      let u := if (s.aq fn).invalidates.contains n then s.dropLines (fun l => decide (l.fn = fn)) else s
      exec (.completionPost (.adm fn)) s = .next ((u.updAq fn (fun x => { x with replies := rest, invalidates := x.invalidates.erase n })).postAdm fn c))
  ∧ (∀ (m t : Nat) (s : State) (q : Cq), s.cq m = some q → q.ivEn = true → q.firstAt = some t → s.passedUs t q.itimeUs = true →
      exec (.msixCoalesceTimeout m) s = .next ((s.updCq m (fun x => { x with since := 0, firstAt := none })).sendMsix q.fn q.vector))
  ∧ (∀ (m t : Nat) (at_ : W64) (s : State) (q : Cq), s.cq m = some q → q.stall = some (t, at_) → q.stalled = false →
      s.passedUs t (s.aq q.fn).cqStallUs = true →
      exec (.cqStalled m) s = .next ((s.updCq m (fun x => { x with stalled := true, stalls := satAdd 32 x.stalls 1 })).postEvent q.fn 0x0001 m at_))
  ∧ (∀ (fn : Nat) (s : State) (e : AEvent) (rest : List AEvent), (s.aq fn).events = e :: rest → s.admOpen fn = true → (s.aq fn).rdy = true →
      exec (.adminEventPost fn) s = .next ((s.updAq fn (fun a => { a with events := rest })).postAdm fn (s.eventCqe e)))

/-- CONTROL ENTRIES ACT ON THEIR ONE TARGET (R119 to R123, Tables 4.4 and 4.6). A staged control entry that names exactly one live program: HALT with
HOLD = 0 halts it, and is answered BAD_PARAM where a halt is already pending; HALT with HOLD = 1 is answered NOT_PERMITTED at class 0 or 1, and
BAD_PARAM where a halt or a hold is pending or the program is suspended; it suspends a program that stands between words or waits, and one inside a word
at its next word boundary; RESUME continues a suspended program, with new seeds where SEED is 1, and is answered BAD_PARAM on any other. One that names
no program is answered BAD_PARAM, and one that names two has no stated effect (R119): the model stops. -/
def Obligations.ControlEntriesAct : Prop :=
  (∀ (n e : Nat) (s : State) (x : Staged) (p : Prog),
    let u := s.updSq n (fun q => { q with staged := q.staged.erase x })
    u.targets n x.sqe.tag = [e] → u.prog e = some p →
    (s.controlEntry n opcHalt false = some x →
      (p.haltPend = false → exec (.haltEntry n) s = .next (u.haltProg e))
      ∧ (p.haltPend = true → exec (.haltEntry n) s = .next (u.refuseEntry n x.sqe.tag Status.badParam)))
    ∧ (s.controlEntry n opcHalt true = some x →
      (p.cls ≤ 1 → exec (.haltHoldEntry n) s = .next (u.refuseEntry n x.sqe.tag Status.notPermitted))
      ∧ (2 ≤ p.cls → (p.haltPend = true ∨ p.holdPend = true ∨ ∃ k, p.phase = .susp k) →
          exec (.haltHoldEntry n) s = .next (u.refuseEntry n x.sqe.tag Status.badParam))
      ∧ (2 ≤ p.cls → p.haltPend = false → p.holdPend = false →
          ((p.phase = .boundary ∨ p.phase = .charge ∨ (∃ k, p.phase = .wait k) ∨ (∃ k, p.phase = .sync k)) →
              exec (.haltHoldEntry n) s = .next (u.suspendProg e .host p.pc))
          ∧ (p.phase = .noteHold → exec (.haltHoldEntry n) s = .next ((u.updProg e (fun q => { q with op := [] })).suspendProg e .host p.pc))
          ∧ ((p.phase = .fetched ∨ p.phase = .mbxFull ∨ p.phase = .bar) → exec (.haltHoldEntry n) s = .next (u.updProg e (fun q => { q with holdPend := true })))))
    ∧ (s.controlEntry n opcResume false = some x →
      (∀ k, p.phase = .susp k → exec (.resumeEntry n) s = .next ((if x.sqe.seed then u.updProg e (fun q => q.seed x.sqe.seeds) else u).resumeProg e k))
      ∧ ((∀ k, p.phase ≠ .susp k) → exec (.resumeEntry n) s = .next (u.refuseEntry n x.sqe.tag Status.badParam))))
  ∧ (∀ (n : Nat) (s : State) (x : Staged) (i : Instr) (opc : Nat) (hold : Bool),
    (i, opc, hold) ∈ [(Instr.haltEntry n, opcHalt, false), (.haltHoldEntry n, opcHalt, true), (.resumeEntry n, opcResume, false)] →
    s.controlEntry n opc hold = some x →
    let u := s.updSq n (fun q => { q with staged := q.staged.erase x })
    (u.targets n x.sqe.tag = [] → exec i s = .next (u.refuseEntry n x.sqe.tag Status.badParam))
    ∧ (2 ≤ (u.targets n x.sqe.tag).length → exec i s = .fault .sharedTag))

/-! ## Admission (chapter 7), fetching, and the start of a program (R110 to R114) -/

/-- A START IS ADMITTED, REFUSED OR HELD (R206 to R212, R214). The START that comes next in the order of R206: a failed check refuses it with its status
and takes it from its queue; where the checks pass and a seat is free, and at class 1 the proof holds, it is placed on that engine, at class 0 with
its media operations metered; without the proof it is refused; where no seat is free it waits. One whose first word has not come stays as it was; a
reserved part of an HDR has an undefined effect, and the model stops. When a seat has become free for one that waits, the other
class-1 STARTs of its crew are tested, and it is placed as above where its turn has come. -/
def Obligations.StartsAreAdmitted : Prop :=
  ∀ (n k g : Nat) (r : Rd) (s u : State) (q : Sq) (x : Crew) (e : Staged) (h : Option Hdr) (b : Ending),
    s.sq n = some q → q.headStart = some e → q.crew = some k → s.crew k = some x →
    (s.nextStart = some n →
        (s.checkStart x q e r = .refuse b u → exec (.admitStart n r) s = .next (u.refuseStart n k x.cls e b))
        ∧ (s.checkStart x q e r = .go h u → exec (.admitStart n r) s = .next (u.seatStart n k x q e h))
        ∧ (s.checkStart x q e r = .wait u → exec (.admitStart n r) s = .next u)
        ∧ (s.checkStart x q e r = .undef → exec (.admitStart n r) s = .fault .reservedWord))
    ∧ (u.seatFor k e.no e.sqe.hint (u.placement x h) = some g →
        (2 ≤ x.cls → u.seatStart n k x q e h = u.placeOn g n k x.cls q e h)
        ∧ (∀ hd, x.cls = 1 → h = some hd → u.proved hd e.sqe.deadline.toNat = true → u.seatStart n k x q e h = u.placeOn g n k 1 q e h)
        ∧ (∀ hd, x.cls = 1 → h = some hd → u.proved hd e.sqe.deadline.toNat = false →
            u.seatStart n k x q e h = u.refuseStart n k 1 e (refusal Status.admitRefused))
        ∧ (∀ hd, x.cls = 0 → h = some hd → u.seatStart n k x q e h = (u.meterC0 q.fn n (max 1 hd.maxOps)).placeOn g n k 0 q e h))
    ∧ (u.seatFor k e.no e.sqe.hint (u.placement x h) = none →
        u.seatStart n k x q e h = u.updSq n (fun y => { y with staged := y.staged.map (fun f => if f = e then { f with waiting := true, hdr := some h } else f) }))
    ∧ (e.waiting = true → s.queueMode q = true → s.fnLive q.fn = true → s.qeHolds n = false →
        (s.seatFor k e.no e.sqe.hint (s.placement x (e.hdr.getD none))).isSome = true →
        let v := ((s.crewQueues k).filter (fun m => decide (m ≠ n))).foldl State.retest s
        (v.crewTurn k x.cls = some n → exec (.seatFreedPlacement n) s = .next (v.seatStart n k x q e (e.hdr.getD none)))
        ∧ (v.crewTurn k x.cls ≠ some n → exec (.seatFreedPlacement n) s = .next (v.retest n)))

/-- A PROGRAM STARTS CLEAN (R111). The program that admission makes: the program counter holds PROGRAM, or the word after its HDR, which admission has
read; GP0 to GP3 hold the seeds, and GP4 to GP15 and the flags are 0; the call stack is empty; the counts are 0. WORDS ARE FETCHED AND DELIVERED
WHOLE (R109, R112 to R114, R132). Of a program at a word boundary: the words of the next operation that the fetch gave, stamped with the time of the
fetch, are delivered to its engine; a fetch that failed ends the program with LINK_FAULT from host memory and DATA_FAULT from the YARD; one at or beyond
the end of the YARD ends it with PROGRAM_FAULT; nothing happens while the fetch has not come; a word whose effect is undefined before anything of it is
checked stops the model. Delivered words that raise no notice and that no BRK suspends are ready to execute. -/
def Obligations.ProgramsStartAndFetch : Prop :=
  (∀ (pid n k cls : Nat) (q : Sq) (e : Staged) (h : Option Hdr),
     let p := newProg pid n k cls q e h
     p.pc = (if h.isSome then e.sqe.program + 16 else e.sqe.program)
     ∧ (∀ i, i < 4 → p.getGp i = e.sqe.seeds.getD i 0) ∧ (∀ i, 4 ≤ i → i < 16 → p.getGp i = 0)
     ∧ p.z = false ∧ p.n = false ∧ p.c = false ∧ p.s = false ∧ p.stack = [] ∧ p.steps = 0 ∧ p.bytes = 0 ∧ p.ops = 0)
  ∧ (∀ (e i : Nat) (host : List (Nat × Rd)) (s u : State) (p : Prog) (op : List Ccw), Stands s e p .boundary →
     (State.fetchOp e p host 256 p.pc.toNat [] s = .words op u → op.head?.any wordUndef = false →
         exec (.ccwFetch e host) s = .next ((u.updProg e (fun q => { q with op := op, fetchedAt := u.tmr.time })).deliver e))
     ∧ (State.fetchOp e p host 256 p.pc.toNat [] s = .words op u → op.head?.any wordUndef = true → exec (.ccwFetch e host) s = .fault .reservedWord)
     ∧ (State.fetchOp e p host 256 p.pc.toNat [] s = .absent → exec (.ccwFetch e host) s = .next s)
     ∧ (State.fetchOp e p host 256 p.pc.toNat [] s = .error i u →
         exec (.ccwFetch e host) s = .next ((u.updProg e (fun q => { q with op := [] })).endAtWord e (if p.yard then Ending.dataFault else Ending.linkFault) i))
     ∧ (State.fetchOp e p host 256 p.pc.toNat [] s = .beyond i u → exec (.ccwFetch e host) s =
         .next (if i = 0 then u.endAtLast e Ending.programFault else u.endAtWord e Ending.programFault (i - 1))))
  ∧ (∀ (e : Nat) (s : State) (p : Prog) (w : Ccw) (ws : List Ccw), s.prog e = some p → p.op = w :: ws → w.nof = false → w.brk = false →
     (∀ v, v ∈ w :: ws → v.bad = false) → w.opc ≠ 0x3F → w.opc ≠ 0x40 →
     ∃ t, s.deliver e = t ∧ OnlyProg s t e { p with
       phase := .fetched, execAt := s.tick, residual := if dataOpc w.opc.toNat then opLen p.op else p.residual })

/-! ## Clusters, barriers, broadcast, snapshot (chapter 5) -/

/-- THE ROTATING SELF-TEST (R136 to R139). A turn begins with its handover window where the cluster runs and 40 µs have passed since the last; inside
the window the engine of the turn is taken as soon as it may be. At the window's end an engine that is taken is tested; one that is fenced takes no
part; one that could not be taken is passed over, and reported as class 0x0B where it was passed over before; in both cases the sequencer goes on. The
end of a test of 36 µs frees the engine, marks it tested or not, and the sequencer goes on to the next slot; a failure is reported as class 0x0A. -/
def Obligations.SelfTestTurns : Prop :=
  ∀ (c : Nat) (s : State),
    ((s.cluster c).bist = .idle → (s.cluster c).ready = true → (s.cluster c).gated = false → (s.cluster c).waking = none → (s.cluster c).fenced = false →
        (∀ t, (s.cluster c).turnAt = some t → s.passedUs t turnUs = true) → (s.nextSlot c (s.cluster c).bistSlot).isSome = true →
        exec (.selftestTurn c) s =
          .next (((s.gotoSlot c (s.cluster c).bistSlot).updCluster c (fun k => { k with bist := .window s.tick, turnAt := some s.tick })).takeForTest c))
    ∧ (∀ t, (s.cluster c).bist = .window t → s.passedUs t windowUs = false → exec (.selftestTurn c) s = .next (s.takeForTest c))
    ∧ (∀ t, (s.cluster c).bist = .window t → s.passedUs t windowUs = true →
        let u := s.takeForTest c
        let e := u.bistEngine c
        ((u.engine e).testing = true → exec (.handoverWindowEnd c) s = .next (u.updCluster c (fun k => { k with bist := .test u.tick })))
        ∧ ((u.engine e).testing = false → (u.engine e).fenced = true → exec (.handoverWindowEnd c) s =
            .next ((u.updCluster c (fun k => { k with bist := .idle })).gotoSlot c ((u.cluster c).bistSlot + 1)))
        ∧ ((u.engine e).testing = false → (u.engine e).fenced = false →
            let v := if (u.engine e).passed then u.report 0x0B 0 kindEng e 0 else u
            let w := (v.updEngine e (fun g => { g with due := false, passed := true })).updCluster c (fun k => { k with bist := .idle, passedOver := k.passedOver + 1 })
            exec (.handoverWindowEnd c) s = .next (w.gotoSlot c ((w.cluster c).bistSlot + 1))))
    ∧ (∀ t pass, (s.cluster c).bist = .test t → s.passedUs t testUs = true →
        ∃ u : State, (u.engine (s.bistEngine c)) = { s.engine (s.bistEngine c) with testing := false, passed := false, tested := pass, store := [] }
          ∧ (∀ e, e ≠ s.bistEngine c → u.engine e = s.engine e) ∧ (u.cluster c) = { s.cluster c with bist := .idle } ∧ (∀ d, d ≠ c → u.cluster d = s.cluster d)
          ∧ u = { s with eng := { s.eng with engines := u.eng.engines, clusters := u.eng.clusters } }
          ∧ exec (.selftestComplete c pass) s = .next (if pass = false ∧ (s.engine (s.bistEngine c)).fenced = false
              then (u.gotoSlot c ((u.cluster c).bistSlot + 1)).report 0x0A 0 kindEng (s.bistEngine c) 0 else u.gotoSlot c ((u.cluster c).bistSlot + 1)))

/-- A CLUSTER GATES WHEN IDLE AND WAKES ON AN EVENT (R151, R154, R155). Where the conditions of R154 have held for GATE_IDLE_US the cluster gates, and
nothing but the cluster and the engine of its self-test changes; a gated cluster that an event has reached, and that is not fenced, begins to wake; 8 µs
later it runs again, its sweep restarts at slot 0, and the orders that it missed are applied. A CLUSTER RESET CLEARS IT AND ITS READINESS FOLLOWS (R153,
R448, R452). An ordered reset of a cluster that runs, or the cluster's turn of the array reset, resets it; 42 µs after that every engine of it is
seated as R135 says, with 64 seats, and tested unless its test failed or it was fenced; a failed engine is fenced and passes its seat on. Outside the
array reset the cluster is then ready; in it all clusters become ready with the last. -/
def Obligations.ClustersGateAndReset : Prop :=
  (∀ (c : Nat) (s : State),
     (s.mayGate c = true → s.passedUs (s.cluster c).idleSince (s.cluster c).gateIdleUs = true →
         ∃ t, exec (.clusterGate c) s = .next t ∧ (t.cluster c).gated = true ∧ (t.cluster c).bist = .idle ∧ (∀ d, d ≠ c → t.cluster d = s.cluster d)
           ∧ (∀ e, e ≠ s.bistEngine c → t.engine e = s.engine e)
           ∧ t = { s with eng := { s.eng with engines := t.eng.engines, clusters := t.eng.clusters } })
     ∧ ((s.cluster c).gated = true → (s.cluster c).wakeReq = true → (s.cluster c).fenced = false →
         ∃ t, exec (.clusterWake c) s = .next t ∧ (∀ d, d ≠ c → t.cluster d = s.cluster d) ∧ t = { s with eng := { s.eng with clusters := t.eng.clusters } }
           ∧ t.cluster c = { s.cluster c with gated := false, wakeReq := false, waking := some s.tick, gateCount := satAdd 32 (s.cluster c).gateCount 1 })
     ∧ (∀ k, (s.cluster c).waking = some k → s.passedUs k 8 = true →
         ∃ t, exec (.clusterWakeReady c) s = .next ((s.cluster c).orders.foldl (fun u o => u.applyOrder c o) t) ∧ (∀ d, d ≠ c → t.cluster d = s.cluster d)
           ∧ t = { s with eng := { s.eng with clusters := t.eng.clusters } }
           ∧ t.cluster c = { s.cluster c with waking := none, bistSlot := 0, passedOver := 0, turnAt := none, idleSince := s.tick, orders := [] }))
  ∧ (∀ (c : Nat) (s : State),
     (c < 16 → (s.cluster c).resetAt = none → (s.cluster c).gated = false → (s.cluster c).waking = none → ((s.cluster c).resetReq = true ∨ s.arrayTurn c = true) →
         exec (.clusterReset c) s = .next (s.resetCluster c))
     ∧ (∀ k failed, (s.cluster c).resetAt = some k → s.passedUs k 42 = true →
         ∃ t : State, exec (.clusterReady c failed) s = .next (((clusterEngines c).filter (fun e => (t.engine e).fenced && (t.engine e).seated)).foldl State.passSeat t)
           ∧ (t.cluster c).done = true ∧ (t.cluster c).seats = 64 ∧ (t.cluster c).lost = [] ∧ (t.cluster c).resetAt = none
           ∧ (∀ e, e ∈ clusterEngines c → t.engine e = { s.engine e with
               seated := decide (e % engPerCluster < 64), tested := !(failed.contains (e % engPerCluster) || (s.engine e).fenced)
               fenced := failed.contains (e % engPerCluster) || (s.engine e).fenced })
           ∧ (∀ e, e ∉ clusterEngines c → t.engine e = s.engine e)
           ∧ (s.inMode [.load] = false → (t.cluster c).ready = true ∧ ∀ d, d ≠ c → t.cluster d = s.cluster d)
           ∧ (s.inMode [.load] = true → c < 16 → (s.cluster c).ready = false → (∀ d, d < 16 → d ≠ c → (s.cluster d).done = true) →
               ∀ d, d < 16 → (t.cluster d).ready = true)))

/-- BARRIERS ARE CONFIGURED BY A WRITE THAT STARTS A NEW GENERATION (R148, R150). With the right over the register, a COUNT of 1 to 1,024 is taken with
the owner and the enable, the generation advances, no arrival stands, and no program counts as having made one that the write discards; nothing else
changes. A COUNT of 0 or beyond 1,024 is reserved (R150), and the model stops. BROADCASTS AND SNAPSHOTS REACH THEIR CLUSTERS (R151, R152). A broadcast
of a defined order sends it to the clusters of its mask, and of any other does nothing; where every engine that it waits for has acknowledged it or is fenced, the oldest broadcast
acts on each cluster it reached, and until then it keeps the engines that have not. A write of ENG_SNAP_CTRL with GO, while no snapshot is running,
latches the records of the engines of the chosen clusters, and of all where none is chosen, and writes them to the snapshot buffer; while one is running
it does nothing. -/
def Obligations.BarriersAndBroadcasts : Prop :=
  (∀ (mid b : Nat) (v : W32) (s : State), s.mayWrite mid engBlock = true →
     (1 ≤ fld v 0 11 → fld v 0 11 ≤ 1024 → ∃ t, exec (.barrierCfgWrite mid b v) s = .next t
       ∧ t.bar b = { s.bar b with count := fld v 0 11, owner := fld v 16 6, enable := v.getLsbD 31, gen := wrapAdd 16 (s.bar b).gen 1, arrived := 0 }
       ∧ (∀ d, d ≠ b → t.bar d = s.bar d) ∧ (∀ e, (s.prog e = none → t.prog e = none)
           ∧ (∀ p, s.prog e = some p → t.prog e = some (if p.arrivals.find b = some (s.bar b).done then { p with arrivals := p.arrivals.del b } else p)))
       ∧ t = { s with eng := { s.eng with bars := t.eng.bars, engines := t.eng.engines } })
     ∧ ((fld v 0 11 = 0 ∨ 1024 < fld v 0 11) → exec (.barrierCfgWrite mid b v) s = .fault .reservedValue))
  ∧ ((∀ (k : Nat) (m : BitVec 16) (s : State) (o : Order), (orderCode k = some o → s.powered = true → exec (.broadcast k m) s = .next (s.sendOrder o m))
       ∧ (orderCode k = none → exec (.broadcast k m) s = .next s))
   ∧ (∀ (s : State) (b : Bcast) (rest : List Bcast), s.eng.bcast = b :: rest →
       let left := b.left.filter (fun e => !(s.engine e).fenced)
       (left = [] → exec .broadcastComplete s =
         .next ((maskClusters b.mask).foldl (fun u c => u.applyOrder c b.order) { s with eng := { s.eng with bcast := rest } }))
       ∧ (left ≠ [] → exec .broadcastComplete s = .next { s with eng := { s.eng with bcast := { b with left := left } :: rest } }))
   ∧ (∀ (mid : Nat) (v : W32) (s : State), s.mayWrite mid engBlock = true → v.getLsbD 0 = true →
       let m := if fld v 16 16 = 0 then 0xFFFF else BitVec.ofNat 16 (fld v 16 16)
       (s.tick < s.eng.snapBusy → exec (.snapshotGo mid v) s = .next s)
       ∧ (s.eng.snapBusy ≤ s.tick → ∃ t : State, exec (.snapshotGo mid v) s = .next ((maskClusters m).foldl State.writeSnaps t)
           ∧ (∀ e, e < engCount → (t.engine e) = { s.engine e with snap := if m.getLsbD (e / engPerCluster) then s.snapOf e else (s.engine e).snap })
           ∧ t.eng.snapTime = s.tmr.time ∧ (∀ c, t.cluster c = s.cluster c))))

/-! ## Movers (chapter 10) -/

/-- DESCRIPTORS RUN ON THEIR CHANNEL (R15, R298, R300 to R303, R305, R320, R341, Table 10.4). A defined descriptor of a requester that may use the
channel, written to a mover in descriptor mode with a free set of the channel, becomes active or the shadow; one with a reserved part has no stated
effect, and the model stops. A running descriptor whose lanes are granted moves its bytes, or, paced, those of its burst: it ends with the status of its
transfer where that is not OK; when all have moved it ends, or with WB waits for the acknowledgement of its host writes; a burst that is over waits for
the next request. A wait for the acknowledgement ends with OK, and with LINK where the link failed; where the part can issue no request for its
function a descriptor ends with LINK. One that has moved nothing for STALL_US ends with TIMEOUT, and so does the engine word that it carries. -/
def Obligations.DescriptorsRun : Prop :=
  (∀ (m ch : Nat) (b : List Byte) (s : State), s.descMode m = true → ch < 16 → b.length = 32 → (Desc.read b).mayUse ch = true → s.spaceOk (Desc.read b) = true →
    (descUndef b = false → ((s.mvCh m ch)).active = none →
        exec (.descriptorWrite m ch b) s = .next ((s.updMvCh m ch (fun k => { k with active := some (Desc.read b), moved := 0 })).enter m ch))
    ∧ (descUndef b = false → (s.mvCh m ch).active.isSome = true → (s.mvCh m ch).shadow = none →
        exec (.descriptorWrite m ch b) s = .next (s.updMvCh m ch (fun k => { k with shadow := some (Desc.read b) })))
    ∧ (descUndef b = true → ((s.mvCh m ch).active = none ∨ (s.mvCh m ch).shadow = none) → exec (.descriptorWrite m ch b) s = .fault .reservedDescriptor))
  ∧ (∀ (m ch : Nat) (x : Xfer) (s : State) (d : Desc), s.descMode m = true → (s.mvCh m ch).active = some d →
    (s.chanEngine m ch = none → x.status ≠ .timeout →
        (s.mvHost d = false → ((s.mvCh m ch).st = .running ∨ (s.mvCh m ch).st = .barrier) → exec (.descriptorComplete m ch x) s = .next (s.descEnd m ch dsLink))
        ∧ (s.mvHost d = true → (s.mvCh m ch).st = .barrier →
            exec (.descriptorComplete m ch x) s = .next (s.descEnd m ch (if x.status = .link then dsLink else dsOk)))
        ∧ (s.mvHost d = true → (s.mvCh m ch).st = .running → s.codecReady m ch = true →
            let k := s.mvCh m ch
            let n := d.piece (if d.paced then min (d.length - k.moved) (d.burst * 64) else d.length - k.moved) x
            let r := s.mvMoveBytes d (if d.fixSrc then d.src else d.src + BitVec.ofNat 64 k.moved) (if d.fixDst then d.dst else d.dst + BitVec.ofNat 64 k.moved) n x
            let t := if d.paced && k.bound then (r.2.2.moverBytes m ch r.1).acknowledge k.line else r.2.2.moverBytes m ch r.1
            (r.2.1 ≠ dsOk → exec (.descriptorComplete m ch x) s = .next (t.descEnd m ch r.2.1))
            ∧ (r.2.1 = dsOk → d.length ≤ k.moved + r.1 →
                ((d.wb = true ∧ d.dstSpace = spHost) → exec (.descriptorComplete m ch x) s =
                    .next ((t.updMvCh m ch (fun k => { k with st := .barrier })).drive (.hostFlush ((fnOf d.mid).getD 0))))
                ∧ ((d.wb = false ∨ d.dstSpace ≠ spHost) → exec (.descriptorComplete m ch x) s = .next (t.descEnd m ch dsOk)))
            ∧ (r.2.1 = dsOk → k.moved + r.1 < d.length →
                exec (.descriptorComplete m ch x) s = .next (if d.paced then t.burstOver m ch else t.preempt m))))
    ∧ (((s.mvCh m ch).st = .running ∨ (s.mvCh m ch).st = .barrier) → s.passedUs (s.mvCh m ch).movedAt (fld s.mv.cfg 0 16) = true →
        (s.chanEngine m ch = none → exec (.moverStallTimeout m ch) s = .next (s.descEnd m ch dsTimeout))
        ∧ (∀ e, s.chanEngine m ch = some e → exec (.moverStallTimeout m ch) s = .next ((s.dropChan e dsTimeout).endAtWord e
            (if [d.srcSpace, d.dstSpace].any (fun x => decide (x = spHost) || decide (x = spPort)) then Ending.linkFault else Ending.dataFault) 0))))

/-- A MOVER'S OWN PROGRAM RUNS INSTRUCTION BY INSTRUCTION (R83, R307, R308, Tables 10.5 and 10.6). On a mover whose program runs: MOVE moves its bytes,
advances the A registers that it names and goes on where the transfer was OK, and stops the mover where it was not; one with a reserved part has no
stated effect, and the model stops; LOOP counts down and branches until the count is used up; SIGNAL marks a unit as moved, starts its page program,
raises a mover's event, or only goes on; END stops the program with its code; a reserved opcode, SIGNAL kind, WAIT source or index stops the mover. A
WAIT takes its event where it is there, and waits where it is not: a unit queued for the mover, or the closed and empty queue; a pending request; a
delay that has passed; the mover's own event; a ready NOR. One whose limit passes goes on at ALT. A STOPPED QUENCH MOVER'S UNITS PASS ON (R309). The
units of a mover that is fenced, or has taken none for LQ_REASSIGN_US, that have not moved pass to the next unfenced mover. -/
def Obligations.MoverProgramsRun : Prop :=
  (∀ (m : Nat) (s : State), s.prgOn m = true →
     let i := (s.mover m).insn
     let c := (s.mover m).k.get (leAt i 1 1 % 4) 0
     let unit := ((s.mover m).k.get 1 0).toNat
     ((s.mover m).wait = none →
       (∀ x, leAt i 0 1 = 1 → s.prgUndef (s.prgDesc m) = true → exec (.mvMove m x) s = .fault .reservedDescriptor)
       ∧ (∀ x, leAt i 0 1 = 1 → s.prgUndef (s.prgDesc m) = false →
           let r := s.mvMoveBytes (s.prgDesc m) (s.prgDesc m).src (s.prgDesc m).dst (s.prgDesc m).length x
           let u := r.2.2.updMover m (fun y => { y with bytes := y.bytes + BitVec.ofNat 64 r.1 })
           (r.2.1 = dsOk → exec (.mvMove m x) s = .next ((u.updMover m (fun y => { y with a := advanceA i (s.prgDesc m).length y.a })).prgNext m))
           ∧ (r.2.1 ≠ dsOk → exec (.mvMove m x) s = .next (u.prgStop m r.2.1)))
       ∧ (∀ x, leAt i 0 1 = 0 ∨ 5 < leAt i 0 1 → exec (.mvMove m x) s = .next (s.prgStop m 0))
       ∧ (leAt i 0 1 = 2 →
           let u := s.updMover m (fun y => { y with k := y.k.put (leAt i 1 1 % 4) (c - 1) })
           (256 ≤ leAt i 4 2 → exec (.mvLoop m) s = .next (s.prgStop m 0))
           ∧ (leAt i 4 2 < 256 → c = 0 → exec (.mvLoop m) s = .next (s.prgNext m))
           ∧ (leAt i 4 2 < 256 → c = 1 → exec (.mvLoop m) s = .next (u.prgNext m))
           ∧ (leAt i 4 2 < 256 → c ≠ 0 → c ≠ 1 → exec (.mvLoop m) s = .next (u.prgGo m (leAt i 4 2))))
       ∧ (leAt i 0 1 = 4 →
           (leAt i 1 1 = 1 → exec (.mvSignal m) s = .next ((s.updUnit unit (fun x => { x with moved := true })).prgNext m))
           ∧ (leAt i 1 1 = 2 → exec (.mvSignal m) s = .next ((s.programUnit unit).prgNext m))
           ∧ (leAt i 1 1 = 3 → exec (.mvSignal m) s = .next ((s.updMover (leAt i 8 1 % 64) (fun y => { y with event := true })).prgNext m))
           ∧ (leAt i 1 1 = 4 → exec (.mvSignal m) s = .next (s.prgNext m))
           ∧ (leAt i 1 1 = 0 ∨ 4 < leAt i 1 1 → exec (.mvSignal m) s = .next (s.prgStop m 0)))
       ∧ (leAt i 0 1 = 5 → ∃ t, exec (.mvEnd m) s = .next t ∧ (∀ k, k ≠ m → t.mover k = s.mover k) ∧ t = { s with mv := { s.mv with movers := t.mv.movers } }
           ∧ t.mover m = { s.mover m with prgRun := false, prgDone := true, prgEnd := leAt i 1 1, prgMode := !s.inMode [.diagnostic] }))
     ∧ (∀ nor, leAt i 0 1 = 3 →
         let w := (s.mover m).wait.getD { source := leAt i 1 1, operand := BitVec.ofNat 64 (leAt i 8 8), alt := leAt i 2 2, startTick := s.tick, limitUs := leAt i 4 4 }
         ((leAt i 1 1 = 0 ∨ 5 < leAt i 1 1 ∨ 256 ≤ w.alt) → exec (.mvWait m nor) s = .next (s.prgStop m 0))
         ∧ (leAt i 1 1 ≠ 0 → leAt i 1 1 ≤ 5 → w.alt < 256 →
             (∀ t, s.prgEvent m w nor = some t → exec (.mvWait m nor) s = .next t)
             ∧ (s.prgEvent m w nor = none → ∃ t, exec (.mvWait m nor) s = .next t ∧ (∀ k, k ≠ m → t.mover k = s.mover k)
                 ∧ t.mover m = { s.mover m with wait := some w } ∧ t = { s with mv := { s.mv with movers := t.mv.movers } })))
     ∧ (∀ w, (s.mover m).wait = some w → w.limitUs ≠ 0 → s.passedUs w.startTick w.limitUs = true →
         exec (.mvWaitExpiry m) s = .next (s.prgWaitEnd m 2 w.alt)))
  ∧ (∀ (m : Nat) (s : State) (w : MvWait) (nor : Bool),
     (w.source = 1 → s.nextUnit m = none → s.unitsClosed = true → s.prgEvent m w nor = some (s.prgWaitEnd m 1 w.alt))
     ∧ (∀ u x, w.source = 1 → s.nextUnit m = some (u, x) → ∃ t, s.prgEvent m w nor = some (State.prgWaitEnd t m 0 w.alt)
         ∧ t.lq.units = s.lq.units.mapIdx (fun j y => if j = u then { y with taken := true } else y))
     ∧ (∀ t, w.source = 2 → s.takeDreq (w.operand.toNat % 16) = some t → s.prgEvent m w nor = some (t.prgWaitEnd m 0 w.alt))
     ∧ (w.source = 3 → fld w.operand 0 32 ≤ s.sinceNs w.startTick → s.prgEvent m w nor = some (s.prgWaitEnd m 0 w.alt))
     ∧ (w.source = 4 → (s.mover m).event = true → s.prgEvent m w nor = some ((s.updMover m (fun y => { y with event := false })).prgWaitEnd m 0 w.alt))
     ∧ (w.source = 5 → s.prgEvent m w nor = if nor then some (s.prgWaitEnd m 0 w.alt) else none))
  ∧ (∀ (m : Nat) (s : State), s.inMode [.quench] = true → s.lq.units.any (fun u => decide (u.mover = some m) && !u.taken && !u.programmed) = true →
     ((s.mover m).fenced = true ∨ s.passedUs (s.mover m).tookAt (fld s.mv.cfg 16 16) = true) →
     ∃ t, exec (.lqReassign m) s = .next t ∧ t = { s with lq := { s.lq with units := t.lq.units } }
       ∧ (s.nextMover m = none → t = s)
       ∧ (∀ k, s.nextMover m = some k → t.lq.units = s.lq.units.map (fun u =>
           if u.mover = some m && !u.moved && !u.programmed then { u with mover := some k, taken := false } else u)))

/-! ## The Cell Pool (chapter 10), mailboxes, timers and captures (chapter 15) -/

/-- THE CELL POOL COMMITS, REMOVES, FLUSHES AND RESERVES (R311, R313, R317). A write of a push register by an identity with both rights commits the held
payload with its SOP and EOP, and does nothing with NV set; a committed word joins the visible words of an enabled queue without PKT that is not full, and
nothing joins a disabled one. A read of a pop register by an identity with both rights removes the oldest visible word of an enabled queue, returns its
payload and shows its SOP and EOP; it removes nothing, returns 0 and shows NV where the queue is disabled or shows no word, and to an identity without the
right on the queue. A flush of a disabled queue empties it, and one of an enabled queue does nothing. A reserve is taken where the sum of all reserves
still fits the pool, and sets RSV_ERR where it does not. A removal, a flush and a reserve change no other queue. Without the right on the registers
nothing happens. -/
def Obligations.CellPoolAccess : Prop :=
  ∀ (mid q : Nat) (v : W32) (s : State),
    ((s.holds mid 7 q 1 = false ∨ s.mayWrite mid (blockOf 0x800000) = false ∨ v.getLsbD 31 = true) → exec (.cplPush mid q v) s = .next s)
    ∧ (s.holds mid 7 q 1 = true → s.mayWrite mid (blockOf 0x800000) = true → v.getLsbD 31 = false →
        exec (.cplPush mid q v) s = .next (s.cpPush q { payload := s.cpl.pushLo.get (cpKey mid q) 0, sop := v.getLsbD 0, eop := v.getLsbD 1 }))
    ∧ (∀ w, ((s.cpq q).en = false → s.cpPush q w = s)
        ∧ ((s.cpq q).en = true → (s.cpq q).pkt = false → s.cpFull q = false →
            let u := s.updCpq q (fun c => { c with words := c.words ++ [w], pktOpen := !w.eop })
            (u.cpq q).words = (s.cpq q).words ++ [w] ∧ s.cpPush q w = (if w.eop then u.cpNotice q else u).cpWake q))
    ∧ (s.mayRead mid (blockOf 0x800000) false = false → exec (.cplPop mid q) s = .next s)
    ∧ (s.mayRead mid (blockOf 0x800000) false = true →
        ((s.holds mid 7 q 0 = false ∨ (s.cpq q).en = false ∨ (s.cpq q).words = []) → exec (.cplPop mid q) s = .next (s.cpShow mid q 0 0x80000000))
        ∧ (s.holds mid 7 q 0 = true → (s.cpq q).en = true → ∀ w rest, (s.cpq q).words = w :: rest →
            ∃ t : State, exec (.cplPop mid q) s = .next (t.cpShow mid q w.payload (BitVec.ofNat 32 (bitN w.sop 0 + bitN w.eop 1)))
              ∧ (t.cpq q).words = rest ∧ (∀ k, k ≠ q → t.cpq k = s.cpq k) ∧ t = { s with cpl := { s.cpl with queues := t.cpl.queues } })
        ∧ (∀ lo hi, (s.cpShow mid q lo hi).cpl.popHi.get (cpKey mid q) 0 = hi ∧ (s.cpShow mid q lo hi).out = s.out ++ [.cell mid q lo]))
    ∧ ((s.mayWrite mid (blockOf 0x81C000) = false ∨ (s.cpq q).en = true) → exec (.cplFlush mid q) s = .next s)
    ∧ (s.mayWrite mid (blockOf 0x81C000) = true → (s.cpq q).en = false →
        ∃ t, exec (.cplFlush mid q) s = .next t ∧ (t.cpq q).words = [] ∧ (t.cpq q).opened = [] ∧ (∀ k, k ≠ q → t.cpq k = s.cpq k)
          ∧ t = { s with cpl := { s.cpl with queues := t.cpl.queues } })
    ∧ (s.mayWrite mid (blockOf 0x800000) = false → exec (.cplReserveWrite mid q v) s = .next s)
    ∧ (s.mayWrite mid (blockOf 0x800000) = true →
        (s.cpl.rsvTotal - (s.cpq q).reserve + fld v 0 19 ≤ poolCells → ∃ t, exec (.cplReserveWrite mid q v) s = .next t
          ∧ t.cpq q = { s.cpq q with reserve := fld v 0 19 } ∧ (∀ k, k ≠ q → t.cpq k = s.cpq k) ∧ t = { s with cpl := { s.cpl with queues := t.cpl.queues } })
        ∧ (poolCells < s.cpl.rsvTotal - (s.cpq q).reserve + fld v 0 19 →
          exec (.cplReserveWrite mid q v) s = .next { s with cpl := { s.cpl with rsvErr := true } }))

/-- MAILBOXES DELIVER STAMPED WORDS IN ORDER (R395, R420, R422 to R424, R427, R428). A host end of an enabled channel, of a function that is not fenced: a
word whose stamps agree is queued where its direction has room, and is lost and counted with OVERRUN where it has none; one whose stamps do not agree is
dropped and counted, and on a native channel reported as class 0x26. A word that is queued stands last in its direction, stamped with its sender, when
it goes to a host end and no program waits on the channel. A read removes and shows the oldest inbound word, and shows that there is none where there is none. An identity that is no end, is
fenced, or sends into a disabled channel or from another kind of end changes nothing. A channel that is not enabled takes its fields from a write that
keeps the rules of R420, and opens empty where EN is set; a write that breaks them, or any write of a compatibility channel, sets CFG_ERR; an enabled one
keeps its fields, and a write without EN clears it, tells both ends and disables it. A full direction that has waited RX_TIMEOUT_MS is flushed and its
sender told. -/
def Obligations.MailboxesDeliver : Prop :=
  (∀ (mid ch : Nat) (v : W32) (a : Bool) (s : State),
     ((s.mchan ch).windowEnd mid = none → exec (.mbxTxCommit mid ch v a) s = .next s ∧ exec (.mbxRxRead mid ch) s = .next s)
     ∧ (∀ fn, fnOf mid = some fn → s.fcs.fencedFns.contains fn = true → exec (.mbxTxCommit mid ch v a) s = .next s ∧ exec (.mbxRxRead mid ch) s = .next s)
     ∧ (∀ i, (s.mchan ch).windowEnd mid = some i → ((s.mchan ch).en = false ∨ ((s.mchan ch).side i).kind ≠ kindHost) → exec (.mbxTxCommit mid ch v a) s = .next s))
  ∧ (∀ (mid ch fn : Nat) (v : W32) (s : State) (i : Bool), fnOf mid = some fn → s.fcs.fencedFns.contains fn = false → (s.mchan ch).windowEnd mid = some i →
     ((s.mchan ch).en = true → ((s.mchan ch).side i).kind = kindHost →
       (((s.mchan ch).outq i).length < mbxDepth → exec (.mbxTxCommit mid ch v true) s =
         .next (s.mbxQueue ch i (BitVec.ofNat 64 ((s.mbx.txLo.get (mbxKey mid ch) 0).toNat + v.toNat * 2 ^ 32))))
       ∧ (mbxDepth ≤ ((s.mchan ch).outq i).length → ∃ t, exec (.mbxTxCommit mid ch v true) s = .next t
           ∧ (t.mchan ch).outq i = (s.mchan ch).outq i ∧ ((t.mchan ch).side i).overrun = true ∧ (t.mchan ch).drops = satAdd 32 (s.mchan ch).drops 1
           ∧ (∀ k, k ≠ ch → t.mchan k = s.mchan k))
       ∧ (exec (.mbxTxCommit mid ch v false) s = .next (s.mbxForeign mid ch)
           ∧ let u := s.updMchan ch (fun c => { c with drops := satAdd 32 c.drops 1 })
             ((s.mchan ch).compat = false → s.mbxForeign mid ch = u.report 0x26 0 kindFunction mid 0)
             ∧ ((s.mchan ch).compat = true → s.mbxForeign mid ch = u)))
     ∧ ((((s.mchan ch).side i).kind ≠ kindHost ∨ (s.mchan ch).inq i = []) → exec (.mbxRxRead mid ch) s = .next (s.mbxEmpty mid ch))
     ∧ (((s.mchan ch).side i).kind = kindHost → ∀ w rest, (s.mchan ch).inq i = w :: rest →
         let u := s.updMchan ch (fun c => c.setOut (!i) rest s.tick)
         (u.mchan ch).inq i = rest ∧ exec (.mbxRxRead mid ch) s =
           .next (((if (w :: rest).length = mbxDepth then u.mbxIrq ((s.mchan ch).side (!i)) 1 else u).mbxLatch mid ch w).mbxRoom ch (!i))))
  ∧ (∀ (mid ch : Nat) (v : W32) (s : State), s.mayWrite mid (blockOf 0xD80000) = true →
     let ok := fld v 0 6 ≠ fld v 8 6 ∧ endFits (fld v 0 6) (fld v 6 2) = true ∧ endFits (fld v 8 6) (fld v 14 2) = true
       ∧ (isHostMid mid = true → fld v 6 2 ≠ kindNode ∧ fld v 14 2 ≠ kindNode)
     let refused := ({ s with mbx := { s.mbx with cfgErr := true } } : State).sets 0xD80004 1
     ((s.mchan ch).compat = true → exec (.mbxChannelCfg mid ch v) s = .next refused)
     ∧ ((s.mchan ch).compat = false → (s.mchan ch).en = false → ¬ ok → exec (.mbxChannelCfg mid ch v) s = .next refused)
     ∧ ((s.mchan ch).compat = false → (s.mchan ch).en = false → ok →
         ∃ t, exec (.mbxChannelCfg mid ch v) s = .next t ∧ (t.mchan ch).en = v.getLsbD 31 ∧ (t.mchan ch).sameConfig v = true ∧ (t.mchan ch).q01 = []
           ∧ (t.mchan ch).q10 = [] ∧ (∀ k, k ≠ ch → t.mchan k = s.mchan k) ∧ t = { s with mbx := { s.mbx with chans := t.mbx.chans } })
     ∧ ((s.mchan ch).compat = false → (s.mchan ch).en = true →
         (v.getLsbD 31 = true → exec (.mbxChannelCfg mid ch v) s = .next s)
         ∧ (v.getLsbD 31 = false → exec (.mbxChannelCfg mid ch v) s =
             .next ((((s.mbxClear ch).mbxAbort ch false false).mbxAbort ch true false).updMchan ch (fun c => { c with en := false })))))
  ∧ (∀ (mid ch : Nat) (v : W32) (dir : Bool) (s : State),
     (s.mayWrite mid (blockOf 0xD80000) = false → exec (.mbxChannelCfg mid ch v) s = .next s)
     ∧ ((s.mchan ch).en = true → fld s.mbx.cfg 0 16 ≠ 0 → ((s.mchan ch).outq dir).length = mbxDepth →
         s.passedMs ((s.mchan ch).outAt dir) (fld s.mbx.cfg 0 16) = true →
         exec (.mbxRxTimeout ch dir) s = .next ((s.updMchan ch (fun c => { c.setOut dir [] s.tick with cleared := mbxDepth })).mbxAbort ch dir true)))
  ∧ (∀ (ch : Nat) (i : Bool) (x : W64) (s : State), ((s.mchan ch).side (!i)).kind = kindHost →
     s.waiters (fun k => match k with | .mbx c _ => decide (c = ch) | _ => false) = [] →
     ((s.mbxQueue ch i x).mchan ch).outq i = (s.mchan ch).outq i ++ [{ value := x, mid := if (s.mchan ch).compat then 0 else ((s.mchan ch).side i).mid }])

/-- TIMERS MATCH, AND THEIR COMMITS ARE WHOLE (R433, R435, R459, R460). A due timer fires, and nothing happens where it is not due. A write of the high half
by an identity with the right: TMR_CMP_HIt commits the pair, arms the timer and clears MISSED; TMR_INT_HIt commits the interval; a match that falls in
the same tick is taken first. Where there is none, only that timer and the held half change. Without the right nothing happens. CAPTURES AND
DISCIPLINE (R345, R432, R438). An edge of an enabled capture channel copies device time and counts, at most once a tick, and sends its message where one
is enabled; a second edge in the tick is only marked lost; a disabled channel takes no edge. A Sync or PPS sample of the source in force is taken, and
one of another source is not; without one for 3 s a discipline that acquires or is locked enters holdover, and does nothing before. -/
def Obligations.TimersAndCaptures : Prop :=
  (∀ (mid t : Nat) (v : W32) (s : State),
     (s.tmrDue t = true → exec (.tmrMatch t) s = .next (s.tmrFire t))
     ∧ (s.tmrDue t = false → exec (.tmrMatch t) s = .next s)
     ∧ (s.mayWrite mid tmrBlock = false → exec (.tmrCmpCommit mid t v) s = .next s ∧ exec (.tmrIntCommit mid t v) s = .next s)
     ∧ (s.mayWrite mid tmrBlock = true → s.tmrDue t = true →
         (∃ u, exec (.tmrCmpCommit mid t v) s = .next u ∧ (u.timer t).cmp = pair (s.held mid (tmrRec t + 8) (s.timer t).cmp) v ∧ (u.timer t).armed = true
           ∧ (u.timer t).missed = 0 ∧ (∀ k, k ≠ t → u.timer k = (s.tmrFire t).timer k))
         ∧ (∃ u, exec (.tmrIntCommit mid t v) s = .next u ∧ u.timer t = { (s.tmrFire t).timer t with int := pair (s.held mid (tmrRec t + 0x10) (s.timer t).int) v }
           ∧ (∀ k, k ≠ t → u.timer k = (s.tmrFire t).timer k)))
     ∧ (s.mayWrite mid tmrBlock = true → s.tmrDue t = false →
         (∃ u, exec (.tmrCmpCommit mid t v) s = .next u ∧ (∀ k, k ≠ t → u.timer k = s.timer k)
           ∧ u.timer t = { s.timer t with cmp := pair (s.held mid (tmrRec t + 8) (s.timer t).cmp) v, armed := true, missed := 0, behind := false, matchTick := some s.tick }
           ∧ u = { s with tmr := { s.tmr with timers := u.tmr.timers }, top := { s.top with loHold := s.top.loHold.del (halfKey mid (tmrRec t + 8)) } })
         ∧ (∃ u, exec (.tmrIntCommit mid t v) s = .next u ∧ (∀ k, k ≠ t → u.timer k = s.timer k)
           ∧ u.timer t = { s.timer t with int := pair (s.held mid (tmrRec t + 0x10) (s.timer t).int) v }
           ∧ u = { s with tmr := { s.tmr with timers := u.tmr.timers }, top := { s.top with loHold := s.top.loHold.del (halfKey mid (tmrRec t + 0x10)) } })))
  ∧ (∀ (k : Nat) (s : State),
     ((s.capture k).ctrl.getLsbD 0 = false → exec (.captureEdge k) s = .next s)
     ∧ ((s.capture k).ctrl.getLsbD 0 = true → (s.capture k).lastTick = some s.tick → ∃ t, exec (.captureEdge k) s = .next t ∧ (∀ j, t.capture j = s.capture j)
         ∧ t.tmr.capLost = s.tmr.capLost ||| BitVec.ofNat 32 (2 ^ (k % 16)))
     ∧ ((s.capture k).ctrl.getLsbD 0 = true → (s.capture k).lastTick ≠ some s.tick →
         ∃ t, (∀ j, j ≠ k → t.capture j = s.capture j)
           ∧ t.capture k = { s.capture k with value := s.tmr.time, seq := wrapAdd 16 (s.capture k).seq 1, lastTick := some s.tick }
           ∧ t = { s with tmr := { s.tmr with caps := t.tmr.caps } }
           ∧ exec (.captureEdge k) s = .next (if (s.capture k).ctrl.getLsbD 1 then t.sendMsix (fld (s.capture k).ctrl 16 3) (fld (s.capture k).ctrl 8 8) else t)))
  ∧ (∀ (port : Nat) (off : W64) (s : State),
     (s.tmr.discSrc = 2 → exec (.disciplineSample 2 port off) s = .next (s.discSample (ppsOffset s.tmr.time)))
     ∧ (s.tmr.discSrc = 1 → s.tmr.discPort = port → (s.fport port).cfg.getLsbD 2 = true → (s.fport port).gptp = gptpSlave →
         exec (.disciplineSample 1 port off) s = .next (s.discSample off.toInt))
     ∧ (∀ src, s.tmr.discSrc ≠ src → exec (.disciplineSample src port off) s = .next s))
  ∧ (∀ (s : State),
     ((s.tmr.disc = discAcquiring ∨ s.tmr.disc = discLocked) → s.passedMs s.tmr.sampleTick 3000 = true →
         exec .holdoverEntry s = .next (({ s with tmr := { s.tmr with inLock := 0 } } : State).setDisc discHoldover))
     ∧ (s.passedMs s.tmr.sampleTick 3000 = false → exec .holdoverEntry s = .next s))

/-! ## Media and the Scheduler (chapters 7 and 8) -/

/-- A NAND OPERATION THAT ENDS FREES ITS LUN (R217, R243, R244, R248, R393). The program that runs in a LUN's array passes or fails as its status says; a
LUN with no class-0 page waiting is then idle, and the LUN of a page over a suspended operation keeps the operation and waits for no page. An erase
ends so too, one whose suspend has not taken hold among them. A page read whose array time ends waits for its bursts. An operation beyond twice its
vendor maximum has its LUN reset and is reported as class 0x1A; a program has then failed, and so has an erase, and a read gives nothing. A LUN that runs
none of these, or whose operation is within its limit, is left as it is. -/
def Obligations.NandOperationsEnd : Prop :=
  ∀ (l : Nat) (pass : Bool) (s : State),
    (s.progJob l = none → exec (.pageProgramComplete l pass) s = .next s)
    ∧ (∀ id j, s.progJob l = some (id, j) →
        exec (.pageProgramComplete l pass) s = .next (if pass then (s.releaseLun l id).jobPassed id j else (s.releaseLun l id).jobFailed id j))
    ∧ (∀ id, ((s.lun l).above = none → (s.releaseLun l id).lun l = { s.lun l with op := .idle, suspends := 0 })
        ∧ ((s.lun l).above = some id → (s.releaseLun l id).lun l = { s.lun l with above := none }))
    ∧ (∀ b p, (s.lun l).op = .erase b p → exec (.blockEraseComplete l pass) s = .next ((s.underDone l).eraseDone l b p pass))
    ∧ (∀ b p id j, (s.lun l).op = .eraseSusp b p → (s.lun l).above = some id → s.mm.jobs.find id = some j →
        exec (.blockEraseComplete l pass) s = if j.issued then .next s else .next ((s.underDone l).eraseDone l b p pass))
    ∧ ((∀ b p, (s.lun l).op ≠ .erase b p ∧ (s.lun l).op ≠ .eraseSusp b p) → exec (.blockEraseComplete l pass) s = .next s)
    ∧ (∀ id j, (s.lun l).op = .read id → s.mm.jobs.find id = some j → j.issued = true → j.ready = false →
        ∃ t, exec (.pageReadComplete l) s = .next t ∧ t = { s with mm := { s.mm with jobs := t.mm.jobs } }
          ∧ t.mm.jobs.find id = some { j with ready := true, askedAt := s.tick, units := s.bursts l }
          ∧ (∀ k, k ≠ id → t.mm.jobs.find k = s.mm.jobs.find k))
    ∧ ((∀ id, (s.lun l).op ≠ .read id) → exec (.pageReadComplete l) s = .next s)
    ∧ (s.opLimitUs l = none → exec (.nandOpTimeout l) s = .next s)
    ∧ (∀ us, s.opLimitUs l = some us → s.passedUs (s.lun l).opAt us = false → exec (.nandOpTimeout l) s = .next s)
    ∧ (∀ us, s.opLimitUs l = some us → s.passedUs (s.lun l).opAt us = true →
        let u := (s.drive (.nandReset l)).report 0x1A 0 kindLun l 0
        (∀ id j, u.progJob l = some (id, j) → exec (.nandOpTimeout l) s = .next ((u.releaseLun l id).jobFailed id j))
        ∧ (∀ b p, u.progJob l = none → (u.lun l).op = .erase b p → exec (.nandOpTimeout l) s = .next ((u.underDone l).eraseDone l b p false))
        ∧ (∀ id, u.progJob l = none → (u.lun l).op = .read id →
            exec (.nandOpTimeout l) s = .next ((u.updLun l (fun x => { x with op := .idle })).dropJob id)))

/-- MEDIA UPKEEP HAPPENS WHEN IT IS DUE (R50, R238, R243, R250, R252, R253, R261). When the oldest page of an open row, of a segment or of a fast-lane set,
is older than ROW_CLOSE_MS, the row is padded; when the scrub period or the weighted age of a segment has passed, its task is queued, once; Anneal, where
it may run, starts the pending task of the highest rank, gives way to one that ranks above the running one, and goes on with the running one otherwise; a
checkpoint that is due is written. None of these happens before. RETENTION RELEASES FROM THE OLDEST END (R50, R55). While the oldest segment of a stream
that holds retained records is beyond its retention, it is released, or hidden while a READ_STREAM reads it, and the test repeats; where it is not,
nothing more is released. -/
def Obligations.MediaUpkeep : Prop :=
  (∀ (n : Nat) (s : State), n < segKeys →
     (s.mm.segs.find n = none → exec (.rowCloseTimeout n) s = .next s)
     ∧ (∀ g, s.mm.segs.find n = some g →
         (g.rowAt = none → exec (.rowCloseTimeout n) s = .next s)
         ∧ (∀ t, g.rowAt = some t → exec (.rowCloseTimeout n) s = .next (if s.passedMs t (fld s.mm.rowCfg 0 16) then s.padRow n else s))))
  ∧ (∀ (n k : Nat) (x : StripeSet) (s : State), segKeys ≤ n → s.flSets.find? (fun p => decide ((s.flRow p.1).seg = n)) = some (k, x) →
     ((s.flRow k).openAt = none → exec (.rowCloseTimeout n) s = .next s)
     ∧ (∀ t, (s.flRow k).openAt = some t → exec (.rowCloseTimeout n) s = .next (if s.passedMs t (fld s.mm.rowCfg 0 16) then s.closeFlRow k x else s)))
  ∧ (∀ (n : Nat) (s : State), s.mm.segs.find n = none → exec (.scrubPeriod n) s = .next s ∧ exec (.retentionRefreshDue n) s = .next s)
  ∧ (∀ (n : Nat) (s : State) (g : Segment), s.mm.segs.find n = some g →
     (s.mm.retClock - g.scrubAt < fld s.mm.retCfg 12 8 * dayNs → exec (.scrubPeriod n) s = .next s)
     ∧ (fld s.mm.retCfg 12 8 * dayNs ≤ s.mm.retClock - g.scrubAt →
         (s.mm.tasks.contains (Task.fresh 8 n 0 0) = true → exec (.scrubPeriod n) s = .next s)
         ∧ (s.mm.tasks.contains (Task.fresh 8 n 0 0) = false →
             exec (.scrubPeriod n) s = .next { s with mm := { s.mm with tasks := s.mm.tasks ++ [Task.fresh 8 n 0 0] } }))
     ∧ (s.retAge g < s.retDays g * dayNs → exec (.retentionRefreshDue n) s = .next s)
     ∧ (s.retDays g * dayNs ≤ s.retAge g →
         (s.mm.tasks.contains (Task.fresh 4 n 0 0) = true → exec (.retentionRefreshDue n) s = .next s)
         ∧ (s.mm.tasks.contains (Task.fresh 4 n 0 0) = false →
             exec (.retentionRefreshDue n) s = .next { s with mm := { s.mm with tasks := s.mm.tasks ++ [Task.fresh 4 n 0 0] } })))
  ∧ (∀ (s : State),
     (s.annealOn = false → exec .annealTask s = .next s)
     ∧ (s.annealOn = true →
         (∀ t, s.mm.running = none → s.nextTask = some t → exec .annealTask s = .next (s.startTask t))
         ∧ (s.mm.running = none → s.nextTask = none → exec .annealTask s = .next s)
         ∧ (∀ r t, s.mm.running = some r → s.nextTask = some t → t.rank < r.rank →
             exec .annealTask s = .next (({ s with mm := { s.mm with tasks := r :: s.mm.tasks } } : State).startTask t))
         ∧ (∀ r, s.mm.running = some r → (∀ t, s.nextTask = some t → r.rank ≤ t.rank) →
             exec .annealTask s = .next (if r.jobs = [] then (s.taskUnit r).flEval else s)))
     ∧ (s.mmWrites = true → s.ckptDue = true → exec .checkpointWrite s = .next s.checkpointNow)
     ∧ ((s.mmWrites = false ∨ s.ckptDue = false) → exec .checkpointWrite s = .next s))
  ∧ (∀ (st : Nat) (s : State),
     (s.stream st = none → exec (.retentionRelease st) s = .next s)
     ∧ (∀ x, s.stream st = some x → exec (.retentionRelease st) s = .next ((State.retainLoop st x.segs.length s).releaseGone st)))
  ∧ (∀ (st fuel : Nat) (s : State) (x : Stream), s.stream st = some x →
     (∀ g, x.segs.find? (fun g => x.live.any (fun r => decide (r.seg = some g))) = some g →
       (s.overRetained x g = true →
         State.retainLoop st (fuel + 1) s = State.retainLoop st fuel (if s.readingSeg st g then s.hideSeg st g else s.releaseSeg st g))
       ∧ (s.overRetained x g = false → State.retainLoop st (fuel + 1) s = s))
     ∧ (x.segs.find? (fun g => x.live.any (fun r => decide (r.seg = some g))) = none → State.retainLoop st (fuel + 1) s = s))

/-- SLOTS AND FRAMES START ON TIME, AND HOLDS ARE WATCHED (R202, R219, R220, R226, R229, R232, R243). A due slot of a table starts, its patch of that entry
taken and a late start counted; at the drain path's class-0 slot a class-0 page is programmed where one can be; a due frame starts; neither starts
before. A grant held beyond its arbiter's limit is counted, reported by the kind of its holder and blocks its resource; any other is no event. BOUND_VOID
ends once 2.5 ms have passed without a unit over the contract. A write of a window's selector by an identity with the right latches a copy for it and
for no other: of a stream, and of the counters and credit of a requester at a listed arbiter; another selection has no stated effect. CLASS-0 BOUNDS ARE
JUDGED ONCE (R4, R388). The records of a class-0 group accepted more than 20 µs after its doorbell are judged late once, and so are the records that are
not media-durable 2 ms after it, and a program not yet posted after 40 µs. -/
def Obligations.SchedulerEvents : Prop :=
  (∀ (s : State),
    (∀ t k a, s.slotDue t = some (k, a) → exec (.slotStart t) s = .next (s.startSlot t k a))
    ∧ (∀ t, s.slotDue t = none → exec (.slotStart t) s = .next s)
    ∧ (∀ t k a, t < 16 → ((s.slotTable t).patched k a).owner k = 0 →
        let u := s.startSlot t k a
        u.slotTable t = { (s.slotTable t).patched k a with
            last := some a, busyUntil := s.tick + unitTicks
            overruns := if a < (s.slotTable t).busyUntil then wrapAdd 32 (s.slotTable t).overruns 1 else (s.slotTable t).overruns }
        ∧ (∀ j, j ≠ t → u.slotTable j = s.slotTable j) ∧ u = { s with sch := { s.sch with tables := u.sch.tables } })
    ∧ (∀ k a, s.slotDue 16 = some (k, a) → ((s.slotTable 16).patched k a).owner k = 1 → (drainC0Turn s).isSome = true →
        exec .fastLanePageProgram s = .next (s.startSlot 16 k a))
    ∧ (∀ k a, s.slotDue 16 = some (k, a) → (((s.slotTable 16).patched k a).owner k ≠ 1 ∨ drainC0Turn s = none) → exec .fastLanePageProgram s = .next s)
    ∧ (s.slotDue 16 = none → exec .fastLanePageProgram s = .next s)
    ∧ (∀ f, s.frameDue = some f → exec .frameStart s = .next (s.startFrame f))
    ∧ (s.frameDue = none → exec .frameStart s = .next s)
    ∧ (∀ a kind unit held, s.holdLimit a = none → exec (.arbiterHold a kind unit held) s = .next s)
    ∧ (∀ a us kind unit held, s.holdLimit a = some us →
        let kinds := kind = kindEng ∨ kind = kindMover ∨ kind = kindChan ∨ kind = kindLane ∨ kind = kindTru
        (us < held → kinds → exec (.arbiterHold a kind unit held) s =
            .next (({ s with sch := { s.sch with holdEvents := satAdd 32 s.sch.holdEvents 1, holds := s.sch.holds.put a (kind, unit) } } : State).report (holdClass kind) 0
              kind unit (BitVec.ofNat 64 a)))
        ∧ (held ≤ us ∨ ¬ kinds → exec (.arbiterHold a kind unit held) s = .next s))
    ∧ (∀ t, s.sch.voidAt = some t → s.boundVoid = false → exec .boundVoidExpiry s = .next { s with sch := { s.sch with voidAt := none } })
    ∧ (s.boundVoid = true → exec .boundVoidExpiry s = .next s)
    ∧ (∀ mid v, s.mayWrite mid mmBlock = true → ∃ t, exec (.streamSnapshot mid v) s = .next t ∧ t = { s with mm := { s.mm with win := t.mm.win } }
        ∧ t.mm.win.find mid = some (s.streamWindow mid (fld v 0 16)) ∧ (∀ k, k ≠ mid → t.mm.win.find k = s.mm.win.find k))
    ∧ (∀ mid v, s.mayWrite mid mmBlock = false → exec (.streamSnapshot mid v) s = .next s)
    ∧ (∀ mid v, s.mayWrite mid (blockOf 0x600000) = true → fld v 0 9 ≤ 256 → arbiterListed (fld v 16 7) = true →
        ∃ t, exec (.tallyLatch mid v) s = .next t ∧ t = { s with sch := { s.sch with win := t.sch.win } } ∧ (∀ k, k ≠ mid → t.sch.win.find k = s.sch.win.find k)
          ∧ (t.sch.win.get mid TallyWin.zero).grants = BitVec.ofNat 32 (s.reqr (fld v 16 7) (fld v 0 9)).grants
          ∧ (t.sch.win.get mid TallyWin.zero).waits = BitVec.ofNat 32 (s.reqr (fld v 16 7) (fld v 0 9)).lost
          ∧ (t.sch.win.get mid TallyWin.zero).maxWait = BitVec.ofNat 32 (s.reqr (fld v 16 7) (fld v 0 9)).maxWaitNs)
    ∧ (∀ mid v, s.mayWrite mid (blockOf 0x600000) = false → exec (.tallyLatch mid v) s = .next s)
    ∧ (∀ mid v, s.mayWrite mid (blockOf 0x600000) = true → (256 < fld v 0 9 ∨ arbiterListed (fld v 16 7) = false) → exec (.tallyLatch mid v) s = .fault .reservedValue))
  ∧ (∀ (gid : Nat) (g : Group) (s : State), s.group gid = some g → g.cls = 0 →
    (g.sealed = false → g.late < g.records → 20000 < s.sinceBell g.bell →
        exec (.c0BoundMiss 1 gid) s = .next ((s.updGroup gid (fun g => { g with late := g.records })).boundMiss 1 g.fn (g.records - g.late)))
    ∧ (g.records ≤ g.late → exec (.c0BoundMiss 1 gid) s = .next s)
    ∧ (g.sealed = true → g.missed = false → 0 < g.records → g.durable = false → 2000000 < s.sinceBell g.bell →
        let late := countP (fun w => (match w.kind with | .record _ _ _ _ => true | _ => false) && !w.durable) g.writes
        let u := (s.updGroup gid (fun g => { g with missed := true })).updChan (s.missChannel gid) (fun c => { c with c0Misses := satAdd 32 c.c0Misses late })
        exec (.c0BoundMiss 3 gid) s = .next (({ u with free := u.free + 1 } : State).boundMiss 3 g.fn late))
    ∧ (g.missed = true → exec (.c0BoundMiss 3 gid) s = .next s))
  ∧ (∀ (pid e : Nat) (es : List Nat) (p : Prog) (s : State), s.prog e = some p →
    s.engsWith (fun p => decide (p.pid = pid) && decide (p.cls = 0) && decide (p.phase ≠ .postwait) && (match p.timedBell with
      | some b => decide (40000 < s.sinceBell b) | none => false)) = e :: es →
    exec (.c0BoundMiss 2 pid) s = .next ((s.updProg e (fun p => { p with judged := true })).boundMiss 2 p.fn 1))

/-- THE DEFAULT SLOT TABLE AT RESET (R224). Tables 0 to 16 hold it in both banks, with bank A active: the owner of entry s is class 0 where s mod 16 =
0, Quench reserve where s mod 16 = 8, class 1 where s mod 64 = 4, Anneal where s mod 64 = 36, and the credit pool otherwise: 32, 32, 8, 8 and 432
entries. Table 17 holds the built-in values of Table 7.3. -/
def Obligations.DefaultSlotTable : Prop :=
  (∀ (t : Nat), t ≤ 16 →
    let x := State.reset.slotTable t
    x.activeB = false
    ∧ (∀ k, k < 512 → x.bankA.get k (defaultOwner k) = x.bankB.get k (defaultOwner k)
      ∧ x.owner k = (if k % 16 = 0 then 1 else if k % 16 = 8 then 5 else if k % 64 = 4 then 2 else if k % 64 = 36 then 4 else 3))
    ∧ [1, 5, 2, 4, 3].map (fun o => ((List.range 512).filter (fun k => decide (x.owner k = o))).length) = [32, 32, 8, 8, 432])
  ∧ State.reset.cost = { stepNs := 20, rateMbps := 1000, mediaUs := 600, latencyUs := 128, opsPerFrame := 16, marginUs := 100 }

/-! ## Power, Quench, Hold and boot (chapters 9 and 16) -/

/-- THE BANK IS MEASURED (R41, R42, R268 to R272, R274). In the modes that measure it: once each ms the Landing limit follows from the bank as sampled, and
where no charge waits it is the limit of R41; the trip level is computed, 0 while unprovisioned. A pulse that is due begins where the bytes held are
covered at 300 mV less, or where no capacitance is published, and is put off 1 s where they are not. One that has dropped the bank by 250 mV, or lasted
20 ms, ends: it fails where the bank fell by less than 50 mV, where no capacitance can be fitted, and where that is under a quarter of the nominal one,
and waits for the bank's recovery otherwise. One whose bank recovers within 1 s on a provisioned part publishes the lesser of the fitted and the nominal
capacitance, with the event where it is less than 0.9 of the last; one whose bank does not recover fails; 48 h without a success is reported, once.
Before its time, each of these changes nothing. THE QUENCH PROGRAMS ARE CHECKED, AND ARMING IS WATCHED (R280). A check disarms the movers named and no
other; it loads the program again where it is to, and REARM reads 1 where it found one and loaded none. An array that has not been armed for 2 ms is
reported as class 0x2B, once, and the guarantee is evaluated again. -/
def Obligations.BankIsMeasuredAndArmed : Prop :=
  (∀ (v : Nat) (s : State),
     (s.measures = true → s.passedUs s.lq.lastCalc 1000 = true → exec (.landingLimitRecompute v) s = .next (s.sampleBank v).relimit)
     ∧ ((s.measures = false ∨ s.passedUs s.lq.lastCalc 1000 = false) → exec (.landingLimitRecompute v) s = .next s)
     ∧ (s.lq.c0Queue = [] → s.lq.shQueue = [] →
         let ok := s.psv.provisioned && decide (s.psv.cPub ≠ 0)
         s.relimit.lq.limitValid = ok ∧ s.relimit.lq.limitMib = (if ok then limitMibAt s.psv s.lq.capMib s.flLive.length s.psv.vbankMv else 0)
           ∧ s.relimit.lq.lastCalc = s.tick)
     ∧ (s.measures = true → exec .tripRecompute s = .next { s with psv := { s.psv with tripEff := if s.psv.provisioned then s.tripMv else 0 } })
     ∧ (s.measures = false → exec .tripRecompute s = .next s))
  ∧ (∀ (v : Nat) (s : State),
     ((s.pulseReady = false ∨ (s.sampleBank v).pulseDue = false) → exec (.pulseStart v) s = .next s)
     ∧ (s.pulseReady = true → (s.sampleBank v).pulseDue = true →
         (((s.sampleBank v).psv.cPub = 0 ∨ (s.sampleBank v).pulseCovered v = true) → exec (.pulseStart v) s = .next ((s.sampleBank v).beginPulse v false))
         ∧ ((s.sampleBank v).psv.cPub ≠ 0 → (s.sampleBank v).pulseCovered v = false → exec (.pulseStart v) s =
             .next { s.sampleBank v with psv := { (s.sampleBank v).psv with retryAt := some (s.tick + ticksOfMs 1000) } }))
     ∧ (∀ x l, s.psv.pulse = some x → x.fitted = none →
         let end_ := l.getLastD x.startMv
         let u := (s.sampleBank end_).pulseLine false
         ((x.startMv - end_ < 250 → l.length < 20000 → exec (.pulseEnd l) s = .next s)
         ∧ (s.passedUs x.startTick l.length = false → exec (.pulseEnd l) s = .next s)
         ∧ ((250 ≤ x.startMv - end_ ∨ 20000 ≤ l.length) → s.passedUs x.startTick l.length = true →
             (x.startMv - end_ < 50 → exec (.pulseEnd l) s = .next (u.failPulse 1))
             ∧ (50 ≤ x.startMv - end_ → fitCap (fld s.psv.pulseCfg 16 16) l = none → exec (.pulseEnd l) s = .next (u.failPulse 2))
             ∧ (∀ c, 50 ≤ x.startMv - end_ → fitCap (fld s.psv.pulseCfg 16 16) l = some c →
                 let w := ({ u with psv := { u.psv with pulse := some { x with fitted := some c, endTick := s.tick } } } : State)
                 exec (.pulseEnd l) s = .next (if 4 * c < s.psv.nom then w.failPulse 2 else w)))))
     ∧ (∀ x c, s.psv.pulse = some x → x.fitted = some c → s.psv.provisioned = true → x.startMv ≤ v → s.sinceNs x.endTick ≤ 1000 * msNs →
         let new := min c s.psv.nom
         ∃ t : State, t.psv.cap = BitVec.ofNat 32 new ∧ t.psv.pulse = none ∧ t.psv.lastCap = new ∧ t.psv.lastOk = some s.tick ∧ t.psv.stale = false
           ∧ t = { s with psv := t.psv }
           ∧ (s.psv.lastCap * 9 ≤ new * 10 → exec (.capPublish v) s = .next ((t.sampleBank v).relimit))
           ∧ (new * 10 < s.psv.lastCap * 9 → t.psv.degraded = true ∧ exec (.capPublish v) s = .next ((((t.sets 0xC00000 9).postEventAll psvBlock 0x0040 0xFFFF
               (BitVec.ofNat 64 (new + s.psv.lastCap * 2 ^ 32))).sampleBank v).relimit)))
     ∧ (∀ x c, s.psv.pulse = some x → x.fitted = some c → (s.psv.provisioned = false ∨ v < x.startMv ∨ 1000 * msNs < s.sinceNs x.endTick) →
         exec (.capPublish v) s = .next s)
     ∧ (∀ x c, s.psv.pulse = some x → x.fitted = some c →
         (v < x.startMv → s.passedMs x.endTick 1000 = true → exec (.pulseRecoveryTimeout v) s = .next ((s.sampleBank v).failPulse 3))
         ∧ ((x.startMv ≤ v ∨ s.passedMs x.endTick 1000 = false) → exec (.pulseRecoveryTimeout v) s = .next s))
     ∧ (∀ l, s.psv.pulse = none → exec (.pulseEnd l) s = .next s ∧ exec (.capPublish v) s = .next s ∧ exec (.pulseRecoveryTimeout v) s = .next s)
     ∧ (∀ x l, s.psv.pulse = some x → (x.fitted.isSome = true → exec (.pulseEnd l) s = .next s)
         ∧ (x.fitted = none → exec (.capPublish v) s = .next s ∧ exec (.pulseRecoveryTimeout v) s = .next s))
     ∧ (∀ t, s.psv.lastOk = some t →
         (s.measures = true → s.psv.stale = false → s.passedMs t (48 * 3600 * 1000) = true →
           exec .bankStale s = .next (({ s with psv := { s.psv with stale := true } } : State).report 0x2A 0 0 0 0))
         ∧ ((s.measures = false ∨ s.psv.stale = true ∨ s.passedMs t (48 * 3600 * 1000) = false) → exec .bankStale s = .next s)))
  ∧ (∀ (bad : List Nat) (reloaded : Bool) (s : State),
     ((s.measures = false ∨ s.mgp.running = false) → exec (.quenchArmCheck bad reloaded) s = .next s)
     ∧ (s.measures = true → s.mgp.running = true →
         let u := if reloaded then (s.disarm bad).loadMovers false else s.disarm bad
         exec (.quenchArmCheck bad reloaded) s = .next (({ u with lq := { u.lq with rearm := !bad.isEmpty && !reloaded } } : State).setArmed))
     ∧ (∀ m, m < 64 → (s.disarm bad).mover m = (if bad.contains m then { s.mover m with armed := false } else s.mover m)
         ∧ (s.loadMovers false).mover m = (if (s.mover m).fenced || (s.mover m).armed then s.mover m else (s.mover m).loadQuench)))
  ∧ (∀ (t : Nat) (s : State), s.lq.unarmedAt = some t →
     (s.evaluates = true → s.fcs.causes.testBit 4 = false → s.lq.armed = false → s.passedUs t 2000 = true →
         exec .armingTimeout s = .next ((({ s with fcs := { s.fcs with causes := s.fcs.causes + 16 } } : State).report 0x2B 0 0 0 0).evalGuarantee))
     ∧ ((s.fcs.causes.testBit 4 = true ∨ s.lq.armed = true ∨ s.passedUs t 2000 = false) → exec .armingTimeout s = .next s))

/-- POWER LOSS, HOLD AND POWER-UP (R273, R275, R281, R282, R284, R286, R292 to R295, R440, R453). PFAIL_N low, or a bank below the trip level of a
provisioned part, starts the power-loss sequence from every powered mode but Quench and Hold, and nothing else does. When every page of the sequence is
done with, its seal record is written: it stands where every copy has passed, and does not where one has not or no LUN is left; the sequence ends, and a
commanded one ends in the device reset. From its end with good input the part enters Hold; there the loss of input starts the 50 ms again, and 50 ms of
good input are a device reset. The supplies' collapse takes the part to Backup where VBAT stands, and to Off with the backup domain lost where it does
not. Their return begins Boot, counted in MC2, with the counters restored first where the backup domain was lost. VBAT takes Off to Backup, and its
removal takes Backup to Off with the backup domain lost and the OTP as it was. -/
def Obligations.PowerLossAndReturn : Prop :=
  (∀ (low : Bool) (v : Nat) (s : State),
     let trip := s.psv.provisioned && decide (v < s.psv.tripEff)
     (s.powered = true → s.inMode [.quench, .hold] = false → (low = true ∨ trip = true) → exec (.quenchTrigger low v) s =
         .next (({ s.sampleBank v with psv := { (s.sampleBank v).psv with pfailHigh := !low } } : State).powerLoss low trip false))
     ∧ ((s.powered = false ∨ s.inMode [.quench, .hold] = true ∨ (low = false ∧ trip = false)) → exec (.quenchTrigger low v) s = .next s))
  ∧ (∀ (pass : Bool) (t0 : Nat) (s : State), s.psv.phase = .running t0 →
     let after := fun (u : State) => if u.psv.commanded then u.enterBoot causeCommanded else u
     (s.inMode [.quench] = true → s.lq.quenchSet ≠ [] → s.unitsClosed = true →
         (pass = true → exec (.quenchSeal pass) s = .next (after ((s.writeSeal.sealQuench t0 s.sealRecord).endSequence true)))
         ∧ (pass = false → exec (.quenchSeal pass) s = .next (after (s.writeSeal.indexQuench.endSequence false))))
     ∧ (s.inMode [.quench] = true → s.lq.quenchSet = [] → exec (.quenchSeal pass) s = .next (after (s.indexQuench.endSequence false)))
     ∧ ((s.inMode [.quench] = false ∨ (s.lq.quenchSet ≠ [] ∧ s.unitsClosed = false)) → exec (.quenchSeal pass) s = .next s))
  ∧ (∀ (t0 : Nat) (r : Seal) (done : Bool) (s : State),
     (s.sealQuench t0 r).mm.sealed = some r ∧ (s.sealQuench t0 r).lq.groups = [] ∧ (s.sealQuench t0 r).lq.quenchGen = r.gen
     ∧ (s.endSequence done).psv.phase = .done ∧ (s.endSequence done).psv.quenchDone = done ∧ (s.endSequence done).fcs.iwdgHalted = true)
  ∧ (∀ (b : Bool) (v : Nat) (s : State),
     (s.inMode [.quench] = true → s.psv.phase = .done → s.inputGood b v = true → ∃ t, exec (.holdEntry b v) s = .next t ∧ t.top.mode = .hold ∧ t.psv.holdAt = some s.tick)
     ∧ ((s.inMode [.quench] = false ∨ s.psv.phase ≠ .done ∨ s.inputGood b v = false) → exec (.holdEntry b v) s = .next s)
     ∧ (s.inMode [.hold] = true → s.inputGood b v = false → ∃ t, exec (.holdInputLoss b v) s = .next t ∧ t = { s with psv := t.psv }
         ∧ t.psv.holdAt = some s.tick ∧ t.psv.pfailHigh = b ∧ t.psv.vbankMv = s.psv.reading v)
     ∧ ((s.inMode [.hold] = false ∨ s.inputGood b v = true) → exec (.holdInputLoss b v) s = .next s)
     ∧ (∀ t, s.psv.holdAt = some t → exec .holdExitReset s = .next (if s.inMode [.hold] && s.passedMs t 50 then s.enterBoot causeHoldExit else s))
     ∧ (s.psv.holdAt = none → exec .holdExitReset s = .next s))
  ∧ (∀ (b : Bool) (s : State),
     (s.inMode [.quench, .hold] = true → ∃ t, exec (.supplyCollapse b) s = .next t ∧ t.top.mode = (if b then .backup else .off) ∧ t.top.vbat = b ∧ t.psv.lost = !b)
     ∧ (s.inMode [.quench, .hold] = false → exec (.supplyCollapse b) s = .next s)
     ∧ (s.inMode [.off, .backup] = true →
         let u := if s.psv.lost then s.restoreMc else s
         ∃ t : State, exec (.powerUp b) s = .next (t.enterBoot causePowerUp) ∧ t.psv.mc.find 2 = some (satAdd 32 (u.psv.mc.get 2 0) 1)
           ∧ t.psv.xtalOk = b ∧ t = { u with psv := t.psv, mm := { u.mm with retClock := t.mm.retClock, segs := t.mm.segs } })
     ∧ (s.inMode [.off, .backup] = false → exec (.powerUp b) s = .next s)
     ∧ (∀ bit, (s.enterBoot bit).top.mode = .boot ∧ (s.enterBoot bit).top.cause = 2 ^ bit)
     ∧ (s.inMode [.off] = true → exec .vbatApplied s = .next { s with top := { s.top with mode := .backup, vbat := true }, psv := { s.psv with xtalOk := true } })
     ∧ (s.inMode [.off] = false → exec .vbatApplied s = .next s)
     ∧ (s.inMode [.backup] = true → ∃ t, exec .vbatRemoved s = .next t ∧ t.top.mode = .off ∧ t.top.vbat = false ∧ t.psv.lost = true ∧ t.psv.mc = [] ∧ t.otp = s.otp)
     ∧ (s.inMode [.backup] = false → exec .vbatRemoved s = .next s))

/-- BOOT, LOAD AND REBUILD LEAD TO SERVICE OR PROVISION (R287 to R291, R443 to R448). Boot boots the image of XH0 where its firmware and microcode verify,
else that of XH1 where its do, and fails and stays where neither does: the image that boots is the part's image, its NOR and area are named, and the
Management Processor runs its firmware. A Load of an image whose locked-register entries can be written, with all clusters ready, ends in Rebuild on a
part whose metadata can be read, and in Provision on any other; a reserved value among the entries stops the model. A Rebuild keeps its report, uses up the manifest, counts every record as posted, closes
with a checkpoint and ends in the entry to Service. None of these happens in another mode, nor a Load before the clusters are ready. -/
def Obligations.BootLoadRebuild : Prop :=
  (∀ (a b : Option NorImage) (s : State), s.inMode [.boot] = true → s.top.bootFail = false →
     let u := s.noteNors a b
     let v := (u.tryImage a).2
     (∀ x, a = some x → (u.tryImage a).1 = true → exec (.bootComplete a b) s = .next (v.bootFrom false x))
     ∧ ((u.tryImage a).1 = false → (∀ x, b = some x → (v.tryImage b).1 = true → exec (.bootComplete a b) s = .next ((v.tryImage b).2.bootFrom true x))
         ∧ ((v.tryImage b).1 = false → ∃ t, exec (.bootComplete a b) s = .next t ∧ t.top.bootFail = true ∧ t.top.mode = s.top.mode)))
  ∧ (∀ (x : NorImage) (s : State), (s.tryImage none).1 = false
     ∧ ((s.tryImage (some x)).1 = true ↔ s.imageCode x = (0, 0))
     ∧ (s.tryImage (some x)).2.top.image = x.img)
  ∧ (∀ (a b : Option NorImage) (s : State), (s.inMode [.boot] = false ∨ s.top.bootFail = true) → exec (.bootComplete a b) s = .next s)
  ∧ (∀ (h : Bool) (x : NorImage) (s : State), (s.bootFrom h x).top.mode = .load ∧ (s.bootFrom h x).top.bootNor = h ∧ (s.bootFrom h x).top.bootArea = x.area
     ∧ (s.bootFrom h x).mgp.running = true ∧ (s.bootFrom h x).mgp.fwVersion = leAt x.img.config 20 4)
  ∧ (∀ (luns : List (Nat × List Byte)) (failed : List Nat) (s : State), s.inMode [.load] = true → (∀ c, c < 16 → (s.cluster c).ready = true) →
     let u := s.loadImage
     ∀ v, (if u.otp.locked then some u else u.writeRwl (rwlEntries s.top.image.config)) = some v →
       let w := v.finishLoad luns failed
       exec (.loadComplete luns failed) s = .next (w.setMode (if w.mm.current.isSome && w.areasRead then .rebuild else .provision)))
  ∧ (∀ (luns : List (Nat × List Byte)) (failed : List Nat) (s : State), s.inMode [.load] = true → (∀ c, c < 16 → (s.cluster c).ready = true) →
     s.loadImage.otp.locked = false → s.loadImage.writeRwl (rwlEntries s.top.image.config) = none → exec (.loadComplete luns failed) s = .fault .reservedValue)
  ∧ (∀ (luns : List (Nat × List Byte)) (failed : List Nat) (s : State), (s.inMode [.load] = false ∨ ∃ c, c < 16 ∧ (s.cluster c).ready = false) →
     exec (.loadComplete luns failed) s = .next s)
  ∧ (∀ (lost : List (Nat × Nat)) (man : Bool) (weak : List Nat) (s : State),
     (s.inMode [.rebuild] = true →
       let u := s.takeLoss lost weak
       let w := u.noteLoss s lost man
       exec (.rebuildComplete lost man weak) s = .next ((w.closeRebuild s.usedGen).endUpdateAtReset.enterService)
       ∧ w.mm.loss = some (u.lossReport s s.rebuildCause (if s.rebuildCause = .clean ∨ man then u.mm.manifest else none) lost) ∧ w.mm.manifest = none
       ∧ (∀ id x, w.stream id = some x → ∀ r, r ∈ x.recs → r.posted = true)
       ∧ (s.rebuildCause ≠ .unclean → s.psv.lost = false → u = s))
     ∧ (s.inMode [.rebuild] = false → exec (.rebuildComplete lost man weak) s = .next s))
  ∧ (∀ (m : Mode) (s : State), (s.setMode m).top.mode = m)

/-! ## Faults (chapter 13) -/

/-- SOURCES ARE COLLECTED IN THEIR ORDER (R155, R367, R368, R371 to R373, R394, R451, R470). On a powered part: what the units have reported, and listed
sources from outside, are collected, lowest code first; an engine's error line is latched and reported, and in a handling window it waits for the window's
close; engines that are asked for a heartbeat, every 100 µs, and do not answer are reported as class 0x09, outside a window; a listed pair fault, a rail
out of range and a clock fault are reported for as long as they stand. Each ms the Landing words that a scrub corrects are reported as class 0x02, and
those that it cannot correct as class 0x03, and are bad from then on; a bad word of a pinned window, read every 8 ms, stops its port. None of these
happens on an unpowered part, and no scrub before its time. -/
def Obligations.SourcesAreCollected : Prop :=
  (∀ (s : State), s.powered = true →
    (∀ ext, exec (.sourceCollected ext) s = .next (((ext.filter (fun x => (extToReport x).listed)).foldl State.takeExt s).collectAll))
    ∧ s.collectAll = (orderReports s.fcs.inbox).foldl State.collectOne { s with fcs := { s.fcs with inbox := [] } }
    ∧ (∀ e, e < 1152 → s.lineDead e = false →
        let r : Report := { cls := 0x08, detail := 0, kind := kindEng, unit := e, info := 0 }
        (s.fcs.window = true → exec (.engineErrorLine e) s = .next (s.reportHeld r))
        ∧ (s.fcs.window = false → exec (.engineErrorLine e) s = .next ((s.latchLine e).reportHeld r)))
    ∧ (∀ e, (1152 ≤ e ∨ s.lineDead e = true) → exec (.engineErrorLine e) s = .next s)
    ∧ (∀ r : Report, (s.fcs.window = false → s.reportHeld r = { s with fcs := { s.fcs with inbox := s.fcs.inbox ++ [r] } })
        ∧ (s.fcs.window = true → s.fcs.asserted.contains r = false → s.reportHeld r = { s with fcs := { s.fcs with asserted := s.fcs.asserted ++ [r] } })
        ∧ (s.fcs.window = true → s.fcs.asserted.contains r = true → s.reportHeld r = s))
    ∧ (∀ es, s.passedUs s.fcs.hbAt 100 = true →
        let u := ({ s with fcs := { s.fcs with hbAt := s.tick } } : State)
        exec (.heartbeatRequest es) s = .next (if s.fcs.window then u else (es.filter u.asked).foldl State.silent u))
    ∧ (∀ es, s.passedUs s.fcs.hbAt 100 = false → exec (.heartbeatRequest es) s = .next s)
    ∧ (∀ e, s.fcs.window = false → s.fcs.hbFail.contains e = false → ∃ t, s.silent e = t ∧ t.fcs.hbFail = e :: s.fcs.hbFail
        ∧ t.fcs.inbox = s.fcs.inbox ++ [{ cls := 0x09, detail := 0, kind := kindEng, unit := e, info := 0 }])
    ∧ (∀ cls kind unit,
        let r : Report := { cls := cls, detail := 0xF, kind := kind, unit := unit, info := 0 }
        exec (.pairFault cls kind unit) s = .next (if r.listed then s.reportHeld r else s))
    ∧ (∀ rail, 0x10 ≤ rail → rail ≤ 0x16 → exec (.railOutOfRange rail) s = .next (s.reportHeld { cls := 0x28, detail := 0, kind := kindRail, unit := rail, info := 0 }))
    ∧ (∀ clk, clk < 7 → exec (.clockFault clk) s =
        .next ((({ s with top := { s.top with clkFaults := s.top.clkFaults ||| 2 ^ clk } } : State).sets 0x18 (8 + clk)).reportHeld
          { cls := 0x29, detail := 0, kind := kindRail, unit := clk, info := 0 }))
    ∧ (∀ good bad, s.passedUs s.fcs.scrubAt 1000 = true →
        let inside := fun (a : Nat) => s.meetsPart 0 a 1
        exec (.landingScrub good bad) s = .next ((bad.filter inside).foldl State.scrubBad
          ((good.filter inside).foldl State.scrubFixed ({ s with fcs := { s.fcs with scrubAt := s.tick } } : State))))
    ∧ (∀ good bad, s.passedUs s.fcs.scrubAt 1000 = false → exec (.landingScrub good bad) s = .next s)
    ∧ (∀ a, (s.markBad a).yard.bad.contains (a / 8 * 8) = true)
    ∧ (∀ x bad, (s.xt x).win.isSome = true → (s.xt x).loaded = true → s.passedMs (s.fcs.pinScrubAt.get x 0) 8 = true →
        let u := ({ s with fcs := { s.fcs with pinScrubAt := s.fcs.pinScrubAt.put x s.tick } } : State)
        exec (.vaultPinScrub x bad) s = .next (if bad then u.pinError x else u))
    ∧ (∀ x bad, ((s.xt x).win = none ∨ (s.xt x).loaded = false ∨ s.passedMs (s.fcs.pinScrubAt.get x 0) 8 = false) →
        exec (.vaultPinScrub x bad) s = .next s))
  ∧ (∀ (s : State) (ext : List ExtReport) (l : List Nat) (a b c : Nat) (x : Bool), s.powered = false →
    exec (.sourceCollected ext) s = .next s ∧ exec (.engineErrorLine a) s = .next s ∧ exec (.heartbeatRequest l) s = .next s
    ∧ exec (.pairFault a b c) s = .next s ∧ exec (.railOutOfRange a) s = .next s ∧ exec (.clockFault a) s = .next s
    ∧ exec (.landingScrub l l) s = .next s ∧ exec (.vaultPinScrub a x) s = .next s)

/-- WINDOWS CLOSE, QUIET PERIODS END, AND THE FIRST FAULT IS CLEARED (R371, R373, R389). A handling window closes: WINDOWS advances by one, the error lines
still asserted are latched, and the sources still asserted are collected as new. Where no fault has come for QUIET_MS, FAULT is cleared, MC1 is counted,
and the event 0x0072 carries it. A write of FCS_CTRL with CLEAR_FIRST by an identity with the right clears the first fault and OVF, and a source of its
own tick is the first from then on. THE MANAGEMENT PROCESSOR AND THE WATCHDOGS ARE WATCHED (R391, R392). On a powered part: a running Management Processor
that has not serviced the collector for TIMEOUT_MS is collected as class 0x31, one whose lockstep fails as class 0x30, and a restart that is not ready 500
ms after it began as class 0x32; the independent watchdog is serviced each ms after a passed self-check, and 2 ms without service is its expiry, once. What
has not come about changes nothing. -/
def Obligations.WindowsAndWatchdogs : Prop :=
  (∀ (s : State),
     (s.fcs.window = true → exec .windowClose s = .next s.closeWindow.collectAll)
     ∧ (s.fcs.window = false → exec .windowClose s = .next s)
     ∧ (∃ t : State, s.closeWindow = (s.fcs.asserted.filterMap Report.line).foldl State.latchLine t ∧ t = { s with fcs := t.fcs } ∧ t.fcs.window = false
         ∧ t.fcs.windows = wrapAdd 8 s.fcs.windows 1 ∧ t.fcs.quietAt = s.tick ∧ t.fcs.inbox = s.fcs.inbox ++ s.fcs.asserted ∧ t.fcs.asserted = [])
     ∧ (let quiet := s.fcs.fault && !s.fcs.window && !s.fcs.safeState && s.fcs.inbox.isEmpty && s.passedMs s.fcs.quietAt (fld s.fcs.quiet 0 16)
        let n := satAdd 32 (s.psv.mc.get 1 0) 1
        (quiet = true → exec .quietPeriodEnd s = .next (({ s with fcs := { s.fcs with fault := false }, psv := { s.psv with mc := s.psv.mc.put 1 n } } : State).postEventAll
           fcsBlock 0x0072 0xFFFF (BitVec.ofNat 64 n)))
        ∧ (quiet = false → exec .quietPeriodEnd s = .next s))
     ∧ (∀ mid v, (s.mayWrite mid fcsBlock = false ∨ v.getLsbD 0 = false) → exec (.fcsClearFirst mid v) s = .next s)
     ∧ (∀ mid v, s.mayWrite mid fcsBlock = true → v.getLsbD 0 = true →
         let u := ({ s with fcs := { s.fcs with first := none, firstUnit := (0, 0), firstTime := 0, ovf := false } } : State)
         (s.fcs.fresh = none → exec (.fcsClearFirst mid v) s = .next u)
         ∧ (∀ r k, s.fcs.fresh = some (r, k) → exec (.fcsClearFirst mid v) s = .next (u.latchFirst r k) ∧ (u.latchFirst r k).fcs.first = some (r.code, k)
             ∧ (u.latchFirst r k).fcs.ovf = false)))
  ∧ (∀ (s : State), s.powered = true →
     (s.mgp.running = true → exec .mgpWatchdogExpiry s = .next (if s.passedMs s.mgp.servedAt (fld s.fcs.mgpWd 0 16) then s.mgpSource 0x31 else s)
         ∧ exec .lockstepMismatch s = .next (s.mgpSource 0x30))
     ∧ (s.mgp.running = false → exec .mgpWatchdogExpiry s = .next s ∧ exec .lockstepMismatch s = .next s)
     ∧ (∀ t, s.fcs.mgpRestart = some t → s.mgp.restartAt.isSome = true → exec .mgpRestartTimeout s =
         .next (if s.passedMs t 500 then ({ s with mgp := { s.mgp with restartAt := none } } : State).mgpSource 0x32 else s))
     ∧ ((s.fcs.mgpRestart = none ∨ s.mgp.restartAt = none) → exec .mgpRestartTimeout s = .next s)
     ∧ (s.fcs.iwdgHalted = false → s.passedUs s.fcs.iwdgServed 1000 = true →
         exec (.wdogService true) s = .next { s with fcs := { s.fcs with iwdgServed := s.tick, kick := !s.fcs.kick } })
     ∧ (exec (.wdogService false) s = .next s)
     ∧ (∀ b, (s.fcs.iwdgHalted = true ∨ s.passedUs s.fcs.iwdgServed 1000 = false) → exec (.wdogService b) s = .next s)
     ∧ (s.fcs.iwdgHalted = false → s.fcs.iwdgExpired = false → s.passedUs s.fcs.iwdgServed 2000 = true →
         exec .iwdgExpiry s = .next (({ s with fcs := { s.fcs with iwdgExpired := true } } : State).evalGuarantee))
     ∧ ((s.fcs.iwdgHalted = true ∨ s.fcs.iwdgExpired = true ∨ s.passedUs s.fcs.iwdgServed 2000 = false) → exec .iwdgExpiry s = .next s))

/-! ## Command packets (chapter 12, with the commands of chapters 5 to 8, 13, 14 and 16) -/

/-- THE CHECKS OF A PACKET DECIDE, AND A COMMAND THAT PASSES THEM TAKES EFFECT (R348 to R354). When it is the turn of a packet that a row of the
catalogue takes: a version other than 1 is answered BAD_PARAM and a malformed packet has no stated effect; the first check that fails is answered
with its status; a second background command of its kind is answered BUSY; DRY_RUN answers SUCCESS and does nothing, save for the command that DRY_RUN
verifies; on a locked part a protected command is answered CONSENT_PENDING; any other has its effect, or starts in the background. Every row of
`packetRows` is named. Where it is no packet's turn, or the packet in turn is of another function or another command, the row does nothing; a packet
whose opcode the catalogue does not list is answered BAD_OPCODE. An answer joins the replies of its function, and the packet is done with. -/
def Obligations.PacketsRunTheirCommands : Prop :=
  (∀ (fn : Nat) (d di : Rd) (img : Image) (probes : List LunProbe) (fast : Nat) (i : Instr) (c : Cmd) (s : State) (p : Packet),
    (i, c, di) ∈ packetRows fn d img probes fast → s.turn = some p → p.fn = fn → c.is p = true →
    let u := s.afterTurn p
    let data := if c.data = .input ∧ c.long = false then dataOf di p.len else some []
    let r := p.req (data.getD [])
    (r.version ≠ 1 → exec i s = .next (u.replyTo p Status.badParam [] []))
    ∧ (r.version = 1 → c.malformed r = true → exec i s = .fault .reservedPacket)
    ∧ (r.version = 1 → c.malformed r = false →
        (∀ st, u.verdict c r data.isSome = some st → exec i s = .next (u.replyTo p st [] []))
        ∧ (u.verdict c r data.isSome = none →
            (u.longBusy c p = true → exec i s = .next (u.replyTo p Status.busy [] []))
            ∧ (u.longBusy c p = false →
                (r.dry = true → c.verifies = false → exec i s = .next (u.replyTo p Status.success [] []))
                ∧ (r.dry = false → u.otp.locked = true → c.prot u r = true → exec i s = .next (u.replyTo p Status.consentPending [] []))
                ∧ ((r.dry = true → c.verifies = true) → (r.dry = false → u.otp.locked = true → c.prot u r = false) →
                    exec i s = .next (if c.long then u.startLong c p r else State.finish p (c.apply r true [] u)))))))
  ∧ (∀ (fn : Nat) (d di : Rd) (img : Image) (probes : List LunProbe) (fast : Nat) (i : Instr) (c : Cmd) (s : State),
      (i, c, di) ∈ packetRows fn d img probes fast →
      (s.turn = none ∨ ∃ p, s.turn = some p ∧ (p.fn ≠ fn ∨ (c.is p = false ∧ catalogue.contains p.opc = true))) → exec i s = .next s)
  ∧ (∀ (fn : Nat) (s : State) (p : Packet), s.turn = some p → p.fn = fn → catalogue.contains p.opc = false →
      exec (.createSq fn) s = .next ((s.afterTurn p).replyTo p Status.badOpcode [] []))
  ∧ (∀ (st : BitVec 16) (body out : List Byte) (s : State) (p : Packet), p.mute = false →
      ((s.replyTo p st body out).aq p.fn).replies = (s.aq p.fn).replies ++ [(p.no, s.replyCqe (leAt p.bytes 4 4) st body)]
      ∧ (s.replyTo p st body out).mgp.staged = s.mgp.staged.filter (fun q => decide (q.no ≠ p.no)))

/-- BACKGROUND COMMANDS TAKE EFFECT AT THEIR COMMIT POINT (R350, R351, R363). A started background command that is in hand, with its input data read: at
its commit point it has its effect, or its next step, with what its work found; a DRY_RUN only answers; one whose input data cannot be read is undone and
answered BAD_PARAM. Where no such command is in hand nothing happens. Every row of `commitRows` is named; and UPDATE_ADVANCE step 0x00 ends with the new
firmware where it reports ready within 500 ms, and with the old one where it does not. -/
def Obligations.BackgroundCommandsCommit : Prop :=
  (∀ (fn : Nat) (d di : Rd) (pass : Bool) (result : List Byte) (img : Image) (probes : List LunProbe) (fast : Nat) (i : Instr) (c : Cmd) (s : State) (p : Packet),
      (i, c, di) ∈ commitRows fn d pass result img probes fast → s.inHand c fn = some p →
      let input := if c.data = .input then dataOf di p.len else some []
      (input = none → exec i s = .next ((s.undoCmd p).replyTo p Status.badParam [] []))
      ∧ (∀ data, input = some data →
          ((p.req data).dry = false → exec i s = .next (State.finish p (c.apply (p.req data) pass result s)))
          ∧ ((p.req data).dry = true → exec i s = .next (s.replyTo p (c.apply (p.req data) pass result s).status [] []))))
  ∧ (∀ (fn : Nat) (d di : Rd) (pass : Bool) (result : List Byte) (img : Image) (probes : List LunProbe) (fast : Nat) (i : Instr) (c : Cmd) (s : State),
      (i, c, di) ∈ commitRows fn d pass result img probes fast → s.inHand c fn = none → exec i s = .next s)
  ∧ (∀ (fn : Nat) (result : List Byte) (s : State), s.restarting fn = none → ∀ ready, exec (.updateFirmwareRestart fn (.commit ready result)) s = .next s)
  ∧ (∀ (fn : Nat) (result : List Byte) (s : State) (p : Packet), s.restarting fn = some p →
      (s.passedMs p.begun 500 = false → exec (.updateFirmwareRestart fn (.commit true result)) s = .next (s.newFirmware p)
          ∧ exec (.updateFirmwareRestart fn (.commit false result)) s = .next s)
      ∧ (s.passedMs p.begun 500 = true → exec (.updateFirmwareRestart fn (.commit false result)) s = .next (s.oldFirmware p)
          ∧ exec (.updateFirmwareRestart fn (.commit true result)) s = .next s))

/-- CONSENT, CHALLENGES AND LIMITS RUN OUT (R351, R414, R417). The proposals of a number that have waited 10 s are ended with outcome 3, and no other is;
before that nothing happens. The first command of a function and tag that is beyond its limit and not past its commit point is undone and answered BUSY,
while the Management Processor acts. A debug challenge ends without effect 60 s after it was issued, and before that with a signature: a valid one by a
programmed owner ECDSA slot that is not revoked unlocks its level, and any other leaves the level as it was. -/
def Obligations.ConsentAndDebugEnd : Prop :=
  (∀ (id : Nat) (s : State),
      (s.tru.props.any (fun x => decide (x.id = id) && s.passedMs x.tick 10000) = true →
        exec (.consentExpiry id) s = .next (s.endProps (fun y => decide (y.id = id)) 3 0x3F)
        ∧ (s.endProps (fun y => decide (y.id = id)) 3 0x3F).tru.props = s.tru.props.filter (fun y => decide (y.id ≠ id)))
      ∧ (s.tru.props.any (fun x => decide (x.id = id) && s.passedMs x.tick 10000) = false → exec (.consentExpiry id) s = .next s))
  ∧ (∀ (fn : Nat) (tag : W32) (s : State),
      let late := s.mgp.staged.find? (fun p => decide (p.fn = fn) && decide (leAt p.bytes 4 4 = tag.toNat) && s.overdue p)
      (∀ p, s.mgpActs = true → late = some p → exec (.commandLimitExpiry fn tag) s = .next ((s.undoCmd p).replyTo p Status.busy [] []))
      ∧ ((s.mgpActs = false ∨ late = none) → exec (.commandLimitExpiry fn tag) s = .next s))
  ∧ (∀ (slot : Nat) (valid : Bool) (s : State), s.tru.challenge = none →
      exec .debugChallengeExpiry s = .next s ∧ exec (.debugUnlockSignature slot valid) s = .next s)
  ∧ (∀ (slot level at_ : Nat) (valid : Bool) (ch : List Byte) (s : State), s.tru.challenge = some (level, ch, at_) →
      (s.passedMs at_ 60000 = true → exec (.debugUnlockSignature slot valid) s = .next s
          ∧ ∃ t, exec .debugChallengeExpiry s = .next t ∧ t.tru.challenge = none ∧ t.tru.debugLevel = s.tru.debugLevel)
      ∧ (s.passedMs at_ 60000 = false → exec .debugChallengeExpiry s = .next s
          ∧ let good := valid = true ∧ (slot = 2 ∨ slot = 3) ∧ (s.rootAt (rootKey 0 slot)).programmed = true ∧ (s.rootAt (rootKey 0 slot)).revoked = false
            (good → ∃ t, exec (.debugUnlockSignature slot valid) s = .next t ∧ t = (s.unlockDebug level).endChallenge ∧ t.tru.challenge = none
                ∧ t.tru.debugLevel = max level s.tru.debugLevel)
            ∧ (¬ good → ∃ t, exec (.debugUnlockSignature slot valid) s = .next t ∧ t = s.endChallenge ∧ t.tru.challenge = none
                ∧ t.tru.debugLevel = s.tru.debugLevel)))

/-- A PROPOSAL WAITS FOR A SECOND KEYHOLDER, WHO RATIFIES IT (R409, R411 to R413). A PROPOSE whose own checks pass, and whose carried packet is not
malformed, stores the proposal under the next number and answers CONSENT_PENDING, or only answers SUCCESS with DRY_RUN; a malformed carried packet has
no stated effect. A RATIFY whose checks pass: with no such proposal pending it answers CONSENT_EXPIRED; by the proposer itself NOT_PERMITTED; with another
digest BAD_PARAM, which ends the proposal; with the digest, and the command's checks passed under its proposer, the command takes effect or starts. The
commit of a command that a RATIFY started has its effect. Where it is no packet's turn, or nothing was started, nothing happens. -/
def Obligations.ProposalsAreRatified : Prop :=
  (∀ (fn : Nat) (d : Rd) (s : State) (p : Packet), s.turn = some p → p.fn = fn → cmdPropose.is p = true →
      (s.proposeUndef p d = true → exec (.propose fn d) s = .fault .reservedPacket)
      ∧ (s.proposeUndef p d = false → ∀ data, dataOf d p.len = some data → (p.req data).version = 1 → cmdPropose.malformed (p.req data) = false →
          (s.afterTurn p).verdict cmdPropose (p.req data) true = none →
          ((p.req data).dry = false → exec (.propose fn d) s = .next (State.finish p ((s.afterTurn p).propose (p.req data))))
          ∧ ((p.req data).dry = true → exec (.propose fn d) s = .next ((s.afterTurn p).replyTo p Status.success [] []))))
  ∧ (∀ (r : Req) (s : State),
      let x : Proposal := { id := s.tru.propNext, mid := r.mid, packet := (proposed r).pkt, data := (proposed r).data
                            digest := sha384 ((proposed r).pkt ++ (proposed r).data), tick := s.tick }
      (s.propose r).status = Status.consentPending ∧ (s.propose r).st.tru.props = s.tru.props ++ [x] ∧ (s.propose r).st.tru.propNext = s.tru.propNext + 1)
  ∧ (∀ (r : Req) (s : State),
      (s.pendingProp (r.w 8) = none → s.ratify r = Res.fail s Status.consentExpired)
      ∧ (∀ x, s.pendingProp (r.w 8) = some x → r.mid = x.mid → s.ratify r = Res.fail s Status.notPermitted)
      ∧ (∀ x, s.pendingProp (r.w 8) = some x → r.mid ≠ x.mid → r.data.take 48 ≠ x.digest →
          s.ratify r = Res.fail (if r.dry then s else s.endProps (fun y => decide (y.id = x.id)) 5 r.mid) Status.badParam)
      ∧ (∀ x c, s.pendingProp (r.w 8) = some x → r.mid ≠ x.mid → r.data.take 48 = x.digest → cmdOf (x.req r.fn r.no r.tag) = some c →
          (∀ st, s.verdict c (x.req r.fn r.no r.tag) true = some st →
            s.ratify r = Res.fail (if r.dry then s else s.endProps (fun y => decide (y.id = x.id)) 2 r.mid) st)
          ∧ (s.verdict c (x.req r.fn r.no r.tag) true = none → c.long = false →
            s.ratify r = if r.dry then Res.ok s else (c.apply (x.req r.fn r.no r.tag) true [] (s.dropProp x)).resolve x r.mid)))
  ∧ (∀ (fn : Nat) (d : Rd) (data : List Byte) (s : State) (p : Packet), s.turn = some p → p.fn = fn → cmdRatify.is p = true → dataOf d p.len = some data →
      (p.req data).version = 1 → cmdRatify.malformed (p.req data) = false → (s.afterTurn p).verdict cmdRatify (p.req data) true = none →
      exec (.ratify fn d .start) s = .next (State.finish p ((s.afterTurn p).ratify (p.req data))))
  ∧ (∀ (fn : Nat) (d : Rd) (pass : Bool) (result : List Byte) (s : State) (p : Packet) (x : Proposal), s.ratifying fn = some (p, x) →
      exec (.ratify fn d (.commit pass result)) s = .next (s.commitRatified p x pass result))
  ∧ (∀ (fn : Nat) (d : Rd) (pass : Bool) (result : List Byte) (s : State), s.ratifying fn = none → exec (.ratify fn d (.commit pass result)) s = .next s)
  ∧ (∀ (fn : Nat) (d : Rd) (s : State), s.turn = none → exec (.propose fn d) s = .next s ∧ exec (.ratify fn d .start) s = .next s)

/-- WHAT PACKETS CREATE, BIND AND DELETE (R142 to R144, R187, R188). CREATE_SQ and CREATE_CQ put their new queue at its number, DELETE_SQ and DELETE_CQ
take theirs away, and no other queue and nothing else changes; a new queue is empty, its phase 1, and a new submission queue bound to no crew. CREATE_CREW
puts its new crew at its number, and BIND_SQ binds a queue to a crew; no other crew and no other queue changes. -/
def Obligations.QueuesAreCreatedAndDeleted : Prop :=
  ∀ (r : Req) (s : State),
    (∃ t, (cmdCreateSq.apply r true [] s) = Res.ok t ∧ t = { s with qe := { s.qe with sqs := t.qe.sqs } } ∧ (∀ n, n ≠ r.h 8 → t.sq n = s.sq n)
      ∧ t.sq (r.h 8) = some (newSq r) ∧ (newSq r).head = 0 ∧ (newSq r).tail = 0 ∧ (newSq r).phase = true ∧ (newSq r).crew = none ∧ (newSq r).depth = r.w 12
      ∧ (newSq r).cqid = r.h 10)
    ∧ (∃ t, (cmdCreateCq.apply r true [] s) = Res.ok t ∧ t = { s with qe := { s.qe with cqs := t.qe.cqs } } ∧ (∀ n, n ≠ r.h 8 → t.cq n = s.cq n)
      ∧ t.cq (r.h 8) = some (newCq r) ∧ (newCq r).head = 0 ∧ (newCq r).tail = 0 ∧ (newCq r).phase = true ∧ (newCq r).ready = [] ∧ (newCq r).held = [])
    ∧ (∃ t, (cmdDeleteSq.apply r true [] s) = Res.ok t ∧ t = { s with qe := { s.qe with sqs := t.qe.sqs } } ∧ (∀ n, n ≠ r.h 8 → t.sq n = s.sq n)
      ∧ t.sq (r.h 8) = none)
    ∧ (∃ t, (cmdDeleteCq.apply r true [] s) = Res.ok t ∧ t = { s with qe := { s.qe with cqs := t.qe.cqs } } ∧ (∀ n, n ≠ r.h 8 → t.cq n = s.cq n)
      ∧ t.cq (r.h 8) = none)
    ∧ (∃ t, (cmdCreateCrew.apply r true [] s) = Res.ok t ∧ t.crew (r.b 8) = some (newCrew (s.clearWeights (r.b 8)) r)
      ∧ (∀ k, k ≠ r.b 8 → t.crew k = s.crew k))
    ∧ (∀ q, s.sq (r.h 8) = some q → ∃ t, (cmdBindSq.apply r true [] s) = Res.ok t ∧ t.sq (r.h 8) = some { q with crew := some (r.b 10) }
      ∧ (∀ n, n ≠ r.h 8 → t.sq n = s.sq n))

/-- KEYHOLDERS WRITE THE OTP (R403, R405 to R407). ROOT_HASH programs one owner slot that is not yet programmed with the 48 bytes given; ROOT_REVOKE
revokes one; ROLLBACK_FLOOR raises MC0, and VAULT_FLOOR one floor. No other slot, no other floor and nothing else changes, but that the time of the raise
is kept: its fuses follow from there, one after each ms, until they stand at the floor. -/
def Obligations.KeyholdersWriteOtp : Prop :=
  ∀ (r : Req) (s : State),
    (s.verdict cmdRootHash r true = none → ∃ t, (cmdRootHash.apply r true [] s) = Res.ok t ∧ t = { s with otp := { s.otp with roots := t.otp.roots } }
      ∧ (s.rootAt (rootKey (r.b 9) (r.b 10))).programmed = false ∧ 2 ≤ r.b 10 ∧ r.b 10 ≤ 3
      ∧ (t.rootAt (rootKey (r.b 9) (r.b 10))).hash = r.data.take 48 ∧ (t.rootAt (rootKey (r.b 9) (r.b 10))).programmed = true
      ∧ (∀ k, k ≠ rootKey (r.b 9) (r.b 10) → t.rootAt k = s.rootAt k))
    ∧ (∃ t, (cmdRootRevoke.apply r true [] s) = Res.ok t ∧ t = { s with otp := { s.otp with roots := t.otp.roots } }
      ∧ (t.rootAt (rootKey (r.b 9) (r.b 10))) = { s.rootAt (rootKey (r.b 9) (r.b 10)) with revoked := true }
      ∧ (∀ k, k ≠ rootKey (r.b 9) (r.b 10) → t.rootAt k = s.rootAt k))
    ∧ (s.verdict cmdRollbackFloor r true = none → ∃ t, (cmdRollbackFloor.apply r true [] s) = Res.ok t ∧ s.rollbackFloor ≤ r.w 12 ∧ r.w 12 ≤ 64
      ∧ t.rollbackFloor = r.w 12 ∧ t.psv.mc.get 0 0 = r.w 12 ∧ (∀ k, k ≠ 0 → t.psv.mc.find k = s.psv.mc.find k) ∧ t.tru.fuseAt = s.tick
      ∧ t = { s with psv := { s.psv with mc := t.psv.mc }, tru := { s.tru with fuseAt := s.tick } })
    ∧ (s.otp.fuses < s.rollbackFloor → s.passedMs s.tru.fuseAt 1 = true →
        s.blowFuse = { s with otp := { s.otp with fuses := s.otp.fuses + 1 }, tru := { s.tru with fuseAt := s.tick } })
    ∧ ((s.otp.fuses = s.rollbackFloor ∨ s.passedMs s.tru.fuseAt 1 = false) → s.blowFuse = s)
    ∧ (s.verdict cmdVaultFloor r true = none → ∃ t, (cmdVaultFloor.apply r true [] s) = Res.ok t ∧ s.otp.vaultFloors.get (r.b 9) 0 ≤ t.otp.vaultFloors.get (r.b 9) 0
      ∧ t.otp.vaultFloors.get (r.b 9) 0 = r.w 12 ∧ (∀ k, k ≠ r.b 9 → t.otp.vaultFloors.find k = s.otp.vaultFloors.find k)
      ∧ t = { s with otp := { s.otp with vaultFloors := t.otp.vaultFloors } })

/-! ## Host ports, resets, the sideband and registers (chapters 11, 12, 16 and 17) -/

/-- LINKS AND RESETS OF THE HOST PORTS (R321, R323, R382, R452, R454, R456). In a powered mode that can be reset, a function reset resets its function,
and of a fenced one waits for its REINTEGRATE; in any other mode, and of a function that does not exist, it does nothing. A port reset of a powered part
loses the port's link, keeps its configuration and resets its four functions. A link that goes down ends the requests in flight over it with LINK and is
down; where there are none, that is all. A link that comes up is up, within its configured generation and width, and no other port changes. An unmasked
vector without a pending bit is unmasked, and one with it sends its message and has it no more, where messages can be sent. THE DEBUGGER HALTS THE PART
AND LETS IT GO ON (R151, R417, R436). At the full debug level, on a powered part that is not halted, a debug halt stops the Management Processor and sends
the debug-halt order to every cluster, and does nothing otherwise; its end lets the Management Processor go on, leaves no debug-halt order, and moves the
compare values of frozen timers by the length of the halt. -/
def Obligations.HostPortsResetAndHalt : Prop :=
  (∀ (k : Nat) (s : State),
     (k < 8 → s.powered = true → s.inMode [.quench, .hold] = false →
         (s.fcs.fencedFns.contains k = false → exec (.flr k) s = .next (s.resetFunction k))
         ∧ (s.fcs.fencedFns.contains k = true → exec (.flr k) s = .next (s.updHfn k (fun f => { f with resetting := true }))))
     ∧ ((8 ≤ k ∨ s.powered = false ∨ s.inMode [.quench, .hold] = true) → exec (.flr k) s = .next s)
     ∧ (k < 2 → s.powered = true → exec (.portReset k) s = .next (((((s.updHport k (fun p => { HPort.reset with linkCfg := p.linkCfg, perst := true })).functionReset
         (4 * k)).functionReset (4 * k + 1)).functionReset (4 * k + 2)).functionReset (4 * k + 3)))
     ∧ ((2 ≤ k ∨ s.powered = false) → exec (.portReset k) s = .next s)
     ∧ (exec (.dlDown k) s = .next ((s.linkLost k).updHport k (fun p => { p with dlUp := false })))
     ∧ (s.onLink k = [] → s.engsWith (fun p => decide (p.phase = .bar) && decide (portOf p.fn = k)) = [] → s.linkLost k = s)
     ∧ (∃ t, exec (.dlUp k) s = .next t ∧ (t.hport k).dlUp = true ∧ (t.hport k).perst = false ∧ (t.hport k).gen ≤ fld (s.hport k).linkCfg 0 4
         ∧ (t.hport k).width ≤ fld (s.hport k).linkCfg 8 4 ∧ (∀ j, j ≠ k → t.hport j = s.hport j)
         ∧ t = { s with hpc := { s.hpc with ports := t.hpc.ports }, free := t.free })
     ∧ (∀ v, (s.hfn k).pba.contains v = false → ∃ t, exec (.msixUnmask k v) s = .next t ∧ (t.hfn k).masked v = false ∧ (∀ j, j ≠ k → t.hfn j = s.hfn j)
         ∧ (∀ j, j ≠ v → (t.hfn k).masked j = (s.hfn k).masked j) ∧ t = { s with hpc := { s.hpc with fns := t.hpc.fns } })
     ∧ (∀ v, (s.hfn k).pba.contains v = true → (s.hfn k).msixEn = true → (s.hfn k).fmask = false → s.canIssue k = true →
         ∃ t, exec (.msixUnmask k v) s = .next t ∧ t.out = (s.drive (.msix k v)).out ∧ (t.hfn k).pba = (s.hfn k).pba.erase v ∧ (∀ j, j ≠ k → t.hfn j = s.hfn j)))
  ∧ (∀ (s : State),
     (s.tru.debugLevel = 2 → s.powered = true → s.mgp.halted = false → exec .debugHalt s = .next
         (({ s with mgp := { s.mgp with halted := true }, tmr := { s.tmr with haltAt := some s.tick } } : State).sendOrder .debugHalt 0xFFFF))
     ∧ ((s.tru.debugLevel ≠ 2 ∨ s.powered = false ∨ s.mgp.halted = true) → exec .debugHalt s = .next s)
     ∧ (s.tmr.haltAt = none → exec .debugHaltEnd s = .next s)
     ∧ (∀ t0, s.tmr.haltAt = some t0 → ∃ t, exec .debugHaltEnd s = .next t ∧ t.mgp.halted = false ∧ t.tmr.haltAt = none
         ∧ (∀ k, (t.timer k).cmp = if k < 64 ∧ (s.timer k).ctrl.getLsbD 2 = false then (s.timer k).cmp + BitVec.ofNat 64 (s.sinceNs t0) else (s.timer k).cmp)
         ∧ (∀ b, b ∈ t.eng.bcast → b.order ≠ Order.debugHalt)))

/-- THE SIDEBAND ANSWERS ITS SUBSET (R344, R355, R453). A frame that carries a packet of 64 bytes to a sideband port of a powered part: in a failed Boot
every opcode but IDENTIFY is answered MODE_WRONG, and in a Boot that goes on none is answered; with the Management Processor free, an opcode outside the
subset is answered NOT_PERMITTED, another version BAD_PARAM, a check that fails with its status, a DRY_RUN with SUCCESS alone, and a command of the subset
whose checks pass has its effect, a malformed packet of it no stated one; while a packet of the port is held, a second is answered BUSY; while the Management Processor is not free but runs or
restarts, a packet is held. What carries no packet reads a reply or data. A port that is no sideband, and an unpowered part, do nothing. -/
def Obligations.SidebandAnswers : Prop :=
  (∀ (port : Nat) (wire : List Byte) (s : State), (s.isSideband port = false ∨ s.powered = false) → exec (.sidebandPacket port wire) s = .next s)
  ∧ (∀ (port : Nat) (wire : List Byte) (s : State), s.isSideband port = true → s.powered = true → sidebandPkt port wire = none →
    exec (.sidebandPacket port wire) s = .next (s.sidebandRead port wire))
  ∧ (∀ (port : Nat) (wire pkt : List Byte) (s : State), s.isSideband port = true → s.powered = true → sidebandPkt port wire = some pkt →
    let r := sidebandReq port pkt
    (s.inMode [.boot] = true → s.top.bootFail = true → r.opc ≠ cmdIdentify.opc → exec (.sidebandPacket port wire) s = .next (s.sidebandReply port r Status.modeWrong [] []))
    ∧ (s.inMode [.boot] = true → s.top.bootFail = true → r.opc = cmdIdentify.opc → exec (.sidebandPacket port wire) s = s.sidebandRun port pkt)
    ∧ (s.inMode [.boot] = true → s.top.bootFail = false → exec (.sidebandPacket port wire) s = .next s)
    ∧ (s.inMode [.boot] = false → (s.mgp.sideband.find port).isSome = true → exec (.sidebandPacket port wire) s = .next (s.sidebandReply port r Status.busy [] []))
    ∧ (s.inMode [.boot] = false → s.mgp.sideband.find port = none →
        (s.sidebandFree = true → exec (.sidebandPacket port wire) s = s.sidebandRun port pkt)
        ∧ (s.sidebandFree = false → (s.mgp.running = true ∨ s.mgp.restartAt.isSome = true) → (∃ t, s.sidebandRun port pkt = .next t) →
            exec (.sidebandPacket port wire) s = .next { s with mgp := { s.mgp with sideband := s.mgp.sideband.put port (heldPacket s pkt) } })
        ∧ (s.mgp.running = false → s.mgp.restartAt = none → exec (.sidebandPacket port wire) s = .next s)))
  ∧ (∀ (port : Nat) (pkt : List Byte) (s : State),
    let r := sidebandReq port pkt
    (sidebandRow r = none → s.sidebandRun port pkt = .next (s.sidebandReply port r Status.notPermitted [] []))
    ∧ (∀ c, sidebandRow r = some c →
        (r.version ≠ 1 → s.sidebandRun port pkt = .next (s.sidebandReply port r Status.badParam [] []))
        ∧ (r.version = 1 → c.malformed r = true → s.sidebandRun port pkt = .fault .reservedPacket)
        ∧ (r.version = 1 → c.malformed r = false →
            (∀ st, s.sidebandVerdict c r = some st → s.sidebandRun port pkt = .next (s.sidebandReply port r st [] []))
            ∧ (s.sidebandVerdict c r = none → r.dry = true → s.sidebandRun port pkt = .next (s.sidebandReply port r Status.success [] []))
            ∧ (s.sidebandVerdict c r = none → r.dry = false → s.sidebandRun port pkt = .next ((c.apply r true [] s).st.sidebandReply port r (c.apply r true [] s).status
                (c.apply r true [] s).body (c.apply r true [] s).out)))))

/-- REGISTER WRITES FOLLOW THEIR ACCESS CODES (R6 to R9, R18, R382, R416, R447, R457 to R461). While the configuration is frozen, at an offset that is
not a multiple of 4, without the right over its block, and in a BAR that holds no register, a write changes nothing; with the right it has the effect of
its register, and a reserved encoding has no stated effect. A W1C register loses the bits written 1, save those that an event has set in the same tick,
and no other; an RW register takes the value; a lock-protected one takes it before the provisioning lock and never after. A write of an identity's
mailbox window, of its function's MSI-X table and of its function's configuration space reaches the register that they name: a vector's data changes in
that function alone, and its masks stand; the window and the table of a fenced function, or of an identity without one, are not written. -/
def Obligations.RegisterWritesFollowCodes : Prop :=
  (∀ (mid bar off : Nat) (v : W32) (s : State),
    (s.frozen = true → exec (.registerWrite mid bar off v) s = .next s)
    ∧ (off % 4 ≠ 0 → bar ≠ 7 → exec (.registerWrite mid bar off v) s = .next s)
    ∧ (bar ≠ 0 → bar ≠ 4 → bar ≠ 7 → exec (.registerWrite mid bar off v) s = .next s)
    ∧ ((s.mayWrite mid (blockOf off) = false ∨ 0x1000000 ≤ off) → exec (.registerWrite mid 0 off v) s = .next s)
    ∧ (off % 4 = 0 → off < 0x1000000 → s.mayWrite mid (blockOf off) = true →
        let u := s.clears (bar0Reg mid off) v
        (∀ t, s.regBar0 mid off u = some t → exec (.registerWrite mid 0 off v) s = .next t)
        ∧ (s.regBar0 mid off u = none → exec (.registerWrite mid 0 off v) s = .fault .reservedValue))
    ∧ s.clears off v &&& ~~~ v = 0 ∧ (∀ h ∈ s.top.hot, h.1 = off → s.clears off v &&& h.2 = 0)
    ∧ s.regBar0 mid 0x00000C v = some { s with top := { s.top with cause := (BitVec.ofNat 4 s.top.cause &&& ~~~ (v.truncate 4)).toNat } }
    ∧ s.regBar0 mid 0xF82004 v = some { s with lpc := { s.lpc with gpioOut := (s.lpc.gpioOut &&& ~~~ s.gpioFree) ||| (v &&& s.gpioFree) } }
    ∧ s.regBar0 mid 0xF82014 v = some { s with lpc := { s.lpc with gpioStatus := s.lpc.gpioStatus &&& ~~~ v } }
    ∧ (s.otp.locked = true → s.regBar0 mid 0xE00020 v = some s)
    ∧ (s.otp.locked = false →
        (10 ≤ fld v 0 16 → fld v 0 16 ≤ 10000 → s.regBar0 mid 0xE00020 v = some { s with fcs := { s.fcs with quiet := v &&& 0xFFFF } })
        ∧ ((fld v 0 16 < 10 ∨ 10000 < fld v 0 16) → s.regBar0 mid 0xE00020 v = none)))
  ∧ (∀ (mid off : Nat) (v : W32) (s : State), s.frozen = false →
    (s.liveFn mid = none → exec (.registerWrite mid 4 off v) s = .next s)
    ∧ (∀ fn, s.liveFn mid = some fn → off % 4 = 0 →
        (off < 0x4000 → exec (.registerWrite mid 4 off v) s = .next (s.regWindow mid off (s.clears (windowReg mid off) v)))
        ∧ (0x4000 ≤ off → off < 0x5000 → exec (.registerWrite mid 4 off v) s = .next (s.regMsix fn off v))
        ∧ (0x5000 ≤ off → exec (.registerWrite mid 4 off v) s = .next s)
        ∧ (off % 16 = 8 → (∀ j, j ≠ fn → (s.regMsix fn off v).hfn j = s.hfn j) ∧ s.regMsix fn off v = { s with hpc := { s.hpc with fns := (s.regMsix fn off v).hpc.fns } }
            ∧ (∀ j, ((s.regMsix fn off v).hfn fn).masked j = (s.hfn fn).masked j)))
    ∧ (fnOf mid = none → exec (.registerWrite mid 7 off v) s = .next s)
    ∧ (∀ fn, fnOf mid = some fn → exec (.registerWrite mid 7 off v) s = .next (s.regConfig fn off v)
        ∧ ((s.hfn fn).pba = [] → (s.regConfig fn 4 v).hfn fn = { s.hfn fn with bme := v.getLsbD 2 } ∧ (∀ j, j ≠ fn → (s.regConfig fn 4 v).hfn j = s.hfn j))))

/-! ## Field Ports and the local port complex (chapter 11) -/

/-- FIELD PORTS CARRY FRAMES AND TIME (R325 to R329, R347, R383). On a port that carries frames: a frame with a bad FCS or a length outside 64 to 9,216
is counted and dropped, one that its filter does not accept is dropped, one that no rule takes is counted and dropped, and any other is counted and its
words enter the queue of its rule, a frame not taken whole being counted as a drop; the next frame leaves the wire with its FCS, counted, and with its
timestamp where asked; where none may go nothing happens. A committed gate list takes effect at its time, and no earlier; its entries follow one
another, and a new cycle begins where the last one ends. An Announce is kept, a delay request answered, a measured delay kept, Sync and Follow_Up of the
slave port relayed, and other messages change nothing; at an interval a port sends its delay request, a master its Sync with Follow_Up or its Announce,
and another port without Announces forgets the one it kept. A link change of an enabled port is kept, and the link of one disabled, held down or fenced
goes down. On a port that carries none, frames and messages change nothing. -/
def Obligations.FieldPortsCarryFrames : Prop :=
  (∀ (k : Nat) (bs : List Byte) (s : State), s.fpUp k = true →
    let body := bs.take (bs.length - 4)
    let whole := 64 ≤ bs.length ∧ bs.length ≤ 9216 ∧ fcsOk bs = true
    ((bs.length < 64 ∨ 9216 < bs.length ∨ fcsOk bs = false) → ∃ t, exec (.frameReceive k bs) s = .next t
        ∧ t.fport k = { s.fport k with fcsDrops := wrapAdd 32 (s.fport k).fcsDrops 1 } ∧ (∀ j, j ≠ k → t.fport j = s.fport j)
        ∧ t = { s with field := { s.field with ports := t.field.ports } })
    ∧ (whole → s.fpAccepts k body = false → exec (.frameReceive k bs) s = .next s)
    ∧ (whole → s.fpAccepts k body = true →
        ((s.fport k).route body = none → ∃ t, exec (.frameReceive k bs) s = .next t
          ∧ t.fport k = { s.fport k with noruleDrops := wrapAdd 32 (s.fport k).noruleDrops 1 } ∧ (∀ j, j ≠ k → t.fport j = s.fport j)
          ∧ t = { s with field := { s.field with ports := t.field.ports } })
        ∧ (∀ q r, (s.fport k).route body = some (q, r) →
            let all := ((frameHead k r s.tmr.time body).map (fun w => leBytes 4 w)).flatten ++ body
            let u := State.cpPushBytes q (all.length + 1) true all (s.updFport k (fun x => { x with rxFrames := wrapAdd 32 x.rxFrames 1 }))
            let taken := (u.cpq q).words.length = (s.cpq q).words.length + (all.length + 3) / 4
            (((u.cpq q).en = false ∨ taken) → exec (.frameReceive k bs) s = .next u)
            ∧ ((u.cpq q).en = true → ¬ taken → exec (.frameReceive k bs) s = .next (u.updFport k (fun x => { x with cplDrops := wrapAdd 32 x.cplDrops 1 }))))))
  ∧ (∀ (k : Nat) (s : State),
    (s.nextFrame k = none → exec (.frameTransmit k) s = .next s)
    ∧ (∀ f, s.nextFrame k = some f → s.fpUp k = true → ∃ t, exec (.frameTransmit k) s = .next t ∧ (t.fport k).tx = (s.fport k).tx.erase f
        ∧ (t.fport k).txFrames = wrapAdd 32 (s.fport k).txFrames 1 ∧ (t.fport k).txTs = (if f.stamp then s.tmr.time else (s.fport k).txTs)
        ∧ (∀ j, j ≠ k → t.fport j = s.fport j) ∧ t.out = (s.drive (.frame k (f.bytes ++ leBytes 4 (fcs32 f.bytes).toNat))).out)
    ∧ (((s.fport k).committed = none ∨ ∃ g, (s.fport k).committed = some g ∧ s.now < g.base.toNat) → exec (.gateListTakeEffect k) s = .next s)
    ∧ (∀ g, (s.fport k).committed = some g → g.base.toNat ≤ s.now → ∃ t, exec (.gateListTakeEffect k) s = .next t
        ∧ t.fport k = { s.fport k with oper := g, committed := none, opIdx := 0, opAt := g.base.toNat, opCycle := g.base.toNat }
        ∧ (∀ j, j ≠ k → t.fport j = s.fport j) ∧ t = { s with field := { s.field with ports := t.field.ports } })
    ∧ (((s.fport k).oper.entries = [] ∨ s.now < (s.fport k).entryEnd) → exec (.gclIntervalEnd k) s = .next s)
    ∧ ((s.fport k).oper.entries ≠ [] → (s.fport k).entryEnd ≤ s.now →
        let x := s.fport k
        let inside := x.opIdx + 1 < x.oper.entries.length ∧ x.entryEnd < x.opCycle + x.oper.cycle
        ∃ t, exec (.gclIntervalEnd k) s = .next t ∧ (∀ j, j ≠ k → t.fport j = s.fport j) ∧ t = { s with field := { s.field with ports := t.field.ports } }
          ∧ (inside → t.fport k = { x with opIdx := x.opIdx + 1, opAt := x.entryEnd })
          ∧ (¬ inside → t.fport k = { x with opIdx := 0, opAt := x.entryEnd, opCycle := x.entryEnd }))
    ∧ (∀ up, exec (.fpLinkChange k up) s = .next (s.fpLink k (up && (s.fport k).cfg.getLsbD 2 && !(s.fport k).down && !s.fcs.fencedPorts.contains k))))
  ∧ (∀ (k kind : Nat) (v : W64) (s : State), s.fpUp k = true →
    let e := exec (.gptpMessageReceive k kind v) s
    (kind = gptpAnnounce → e = .next ((s.updFport k (fun x => { x with announce := some v })).gptpStates))
    ∧ (kind = gptpPdelayReq → e = .next ((s.drive (.gptp k gptpPdelayResp)).drive (.gptp k gptpPdelayFollow)))
    ∧ (kind = gptpPdelayFollow → e = .next (s.updFport k (fun x => { x with pdelay := v })))
    ∧ ((kind = gptpSync ∨ kind = gptpFollowUp) → (s.fport k).gptp = 1 → e = .next (s.gptpRelay k kind))
    ∧ ((kind = gptpSync ∨ kind = gptpFollowUp) → (s.fport k).gptp ≠ 1 → e = .next s)
    ∧ ((kind = gptpPdelayResp ∨ 5 < kind) → e = .next s))
  ∧ (∀ (k kind : Nat) (s : State), s.fpUp k = true →
    let e := exec (.gptpIntervalTimeout k kind) s
    (kind = gptpPdelayReq → e = .next (s.drive (.gptp k gptpPdelayReq)))
    ∧ ((s.fport k).gptp = 2 →
        (kind = gptpSync → e = .next ((s.drive (.gptp k gptpSync)).drive (.gptp k gptpFollowUp)))
        ∧ (kind = gptpAnnounce → e = .next (s.drive (.gptp k gptpAnnounce)))
        ∧ (kind ≠ gptpPdelayReq → kind ≠ gptpSync → kind ≠ gptpAnnounce → e = .next s))
    ∧ ((s.fport k).gptp ≠ 2 →
        (kind = gptpAnnounce → e = .next ((s.updFport k (fun x => { x with announce := none })).gptpStates))
        ∧ (kind ≠ gptpPdelayReq → kind ≠ gptpAnnounce → e = .next s)))
  ∧ (∀ (k kind : Nat) (v : W64) (bs : List Byte) (s : State), s.fpUp k = false →
      ∀ i ∈ [.frameReceive k bs, .frameTransmit k, .gptpMessageReceive k kind v, .gptpIntervalTimeout k kind], exec i s = .next s)

/-- xSPI TARGETS SERVE THEIR CLIENTS (R331 to R338). To a client out of reset on an enabled port: a read of a verified window gives its bytes, 0xFF
beyond it and in the write window, a bad word in it stops the port with a fault, and one clocked too fast gives open bytes with LATE; Read ID the three
bytes of XT_ID; the status WIP, WEL and P_ERR; SFDP its tables; the latch commands set and clear WEL; a configuration write selects the mode; with WEL
and no WIP a page program within one page of the write window, with the right, keeps a record and is busy, and any other is an error, WEL clearing;
without them it is ignored; an erase does nothing inside the write window and is an error elsewhere. No other client changes anything. RESETS, RECORDS AND
FAULTS (R334, R336 to R338, R347). A cycle whose window is read and verified ends with its bytes in the vault-pin partition and the window loaded, once
the least assertion has passed or a hold withholds the release; one that fails leaves the line low with an attention. An error in a loaded window runs a
reset cycle. The least assertion's end releases the line where nothing withholds it. A record whose stream is gone, may not be appended to or can never
hold it is an error of the write, and so is one beyond a PINNED stream's limit, which is then full; one with room is accepted as a sealed group, and its
port counts it; one without room waits. -/
def Obligations.XspiTargetsServe : Prop :=
  (∀ (n addr len : Nat) (bs : List Byte) (v : Byte) (s : State), s.xtClient n = false →
      ∀ i ∈ [.xtRead n addr len, .xtReadId n, .xtReadStatus n, .xtReadSfdp n addr len, .xtWriteEnable n, .xtWriteDisable n,
        .xtVolatileConfigWrite n v, .xtErase n addr, .xtPageProgram n addr bs], exec i s = .next s)
  ∧ (∀ (n addr : Nat) (s : State), s.xtClient n = true →
     let x := s.xt n
     let a := x.at_ addr
     ((s.xt n).verified = false → ∀ len, exec (.xtRead n addr len) s = .next s)
     ∧ ((s.xt n).verified = true → ∀ len,
         (∀ b, s.xtBad n a len = some b → exec (.xtRead n addr len) s = .next (s.xtFault n b))
         ∧ (s.xtBad n a len = none → Config.clientLate n s.tick = false →
             exec (.xtRead n addr len) s = .next (s.drive (.xspi n ((List.range len).map (fun k => s.xtByte n (a + k))))))
         ∧ (s.xtBad n a len = none → Config.clientLate n s.tick = true → ∃ t, exec (.xtRead n addr len) s = .next t ∧ t.xt n = { x with late := true }
             ∧ (∀ j, j ≠ n → t.xt j = s.xt j) ∧ t.yard = s.yard))
     ∧ (∀ k, (x.inWrite k 1 = true ∨ x.size ≤ k → s.xtByte n k = 0xFF) ∧ (x.inWrite k 1 = false → k < x.size → s.xtByte n k = s.yard.byte (x.pinAt k)))
     ∧ exec (.xtReadId n) s = .next (s.drive (.xspi n (leBytes 3 (fld x.id 0 24))))
     ∧ exec (.xtReadStatus n) s = .next (s.drive (.xspi n [BitVec.ofNat 8 (bitN x.wip 0 + bitN x.wel 1 + bitN x.perr 5)]))
     ∧ (∀ len, exec (.xtReadSfdp n addr len) s =
         .next (s.drive (.xspi n ((List.range len).map (fun k => Config.sfdp x.density (fld x.cfg 8 6) (addr % 2 ^ 24 + k))))))
     ∧ exec (.xtWriteEnable n) s = .next (s.updXt n (fun x => { x with wel := true, perr := false }))
     ∧ exec (.xtWriteDisable n) s = .next (s.updXt n (fun x => { x with wel := false }))
     ∧ (∀ v, exec (.xtVolatileConfigWrite n v) s = .next (s.updXt n (fun x => { x with octal := decide (v ≠ 0xFF) })))
     ∧ (x.inWrite (a / 4096 * 4096) 4096 = true → exec (.xtErase n addr) s = .next s)
     ∧ (x.inWrite (a / 4096 * 4096) 4096 = false → exec (.xtErase n addr) s =
         .next ((s.updXt n (fun x => { x with perr := true, perrSeen := true })).sets (0xF80004 + 0x100 * n) 11))
     ∧ (∀ bs, (x.wip = true ∨ x.wel = false) → exec (.xtPageProgram n addr bs) s = .next s)
     ∧ (∀ bs, x.wip = false → x.wel = true →
         let good := 1 ≤ bs.length ∧ bs.length ≤ 256 ∧ a / 256 = (a + bs.length - 1) / 256 ∧ x.inWrite a bs.length = true
           ∧ (s.stream (fld x.stream 0 16)).isSome = true ∧ s.holds (fld x.stream 24 6) 3 (fld x.stream 0 16) 1 = true
         (good → exec (.xtPageProgram n addr bs) s = .next (s.updXt n (fun y => { y with
             wel := false, wip := true, record := some (leBytes 4 (a - x.writeWindow.1) ++ leBytes 2 bs.length ++ leBytes 1 n ++ [0] ++ bs) })))
         ∧ (¬ good → exec (.xtPageProgram n addr bs) s = .next ((s.xtWriteError n).updXt n (fun y => { y with wel := false })))))
  ∧ (∀ (n : Nat) (pass : Bool) (s : State),
     ((s.xt n).win = none → exec (.xtCycleDone n pass) s = .next s)
     ∧ ((s.xt n).cycling = false → exec (.xtCycleDone n pass) s = .next s)
     ∧ (∀ w, (s.xt n).win = some w → (s.xt n).cycling = true →
         (∀ bs, s.windowBytes w = some bs → ((s.xt n).hold = true ∨ s.xtMinPassed n = true) → exec (.xtCycleDone n true) s =
             .next ((((s.pinWindow n bs).updXt n (fun x => { x with
               cycling := false, loaded := true, verified := true, attention := true, win := some (s.activeSlot w.1, w.2) })).xtTryRelease n).lpcEvent 0x0051 n s.tmr.time))
         ∧ (∀ bs, s.windowBytes w = some bs → (s.xt n).hold = false → s.xtMinPassed n = false → exec (.xtCycleDone n true) s = .next s)
         ∧ ((pass = false ∨ s.windowBytes w = none) → exec (.xtCycleDone n pass) s =
             .next (((s.updXt n (fun x => { x with cycling := false, loadFail := true, attention := true })).sets (0xF80004 + 0x100 * n) 9).lpcEvent 0x0052 n 1)))
     ∧ ((s.xt n).loaded = true → exec (.xtWindowFault n) s = .next (s.pinError n))
     ∧ ((s.xt n).loaded = false → exec (.xtWindowFault n) s = .next s)
     ∧ ((s.xt n).rst = true → s.xtMayRelease n = true → ∃ t, exec (.clientRstMinElapsed n) s = .next t
         ∧ t.xt n = { s.xt n with rst := false, octal := (s.xt n).cfg.getLsbD 1 }
         ∧ (∀ j, j ≠ n → t.xt j = s.xt j) ∧ t = { s with lpc := { s.lpc with xts := t.lpc.xts } })
     ∧ (((s.xt n).rst = false ∨ s.xtMayRelease n = false) → exec (.clientRstMinElapsed n) s = .next s))
  ∧ (∀ (n : Nat) (s : State),
     let id := fld (s.xt n).stream 0 16
     let cls := fld (s.xt n).stream 16 2
     let may := s.holds (fld (s.xt n).stream 24 6) 3 id 1
     ((s.xt n).record = none → exec (.xtRecordAccepted n) s = .next s)
     ∧ (∀ d, (s.xt n).record = some d →
         let never := s.neverFits cls (chargeAppend d.length) none
         let room := s.chargeOpen cls = true ∧ s.standsBehind cls = false ∧ chargeAppend d.length ≤ s.freeRoom cls
         (s.stream id = none → exec (.xtRecordAccepted n) s = .next (s.xtWriteError n))
         ∧ ((may = false ∨ never = true) → exec (.xtRecordAccepted n) s = .next (s.xtWriteError n))
         ∧ (∀ st, s.stream id = some st → may = true → never = false →
             ((s.pinnedFull (.append id) d.length).isSome = true → exec (.xtRecordAccepted n) s =
                 .next ((s.updStream id (fun st => { st with full := true })).xtWriteError n))
             ∧ (s.pinnedFull (.append id) d.length = none →
                 (¬ room → exec (.xtRecordAccepted n) s = .next s)
                 ∧ (room → exec (.xtRecordAccepted n) s =
                       .next ((s.takeRecord n st d).updXt n (fun x => { x with wip := false, record := none, records := wrapAdd 32 x.records 1 }))
                     ∧ (s.takeRecord n st d).lq.nextGroup = s.lq.nextGroup + 1 ∧ (s.takeRecord n st d).lq.nextSeal = s.lq.nextSeal + 1)))))

/-- REQUEST LINES, GPIO, UARTS AND THE PPS OUTPUT (R116, R303, R330, R340 to R345). A request on a bound line starts a burst, and one beyond 15 pending is
dropped and counted; on an unbound one it completes the WAIT that began first, or is kept, up to 15. A deasserted line is low. A byte received by a UART
joins its FIFO, or is lost with OVERRUN and an attention where 256 are held; on a sideband port it changes nothing here. A change of a GPIO line is seen,
and an enabled selected edge of an input is noted and raises its vector; a line that stays as it is changes nothing. Within 10 ns of a full second the PPS
output rises, once, where enabled; otherwise it falls after its width, and before that, or with no pulse, nothing happens. -/
def Obligations.LocalPortEvents : Prop :=
  (∀ (n : Nat) (s : State),
    let u := s.updDreq n (fun d => { d with level := true })
    let m := (s.dreq n).mover
    let c := (s.dreq n).channel
    ((s.dreq n).bound = true →
        ((u.mvCh m c).pending < 15 → exec (.dreqRequest n) s = .next ((u.updMvCh m c (fun c => { c with pending := c.pending + 1 })).startBurst m c))
        ∧ (15 ≤ (u.mvCh m c).pending → exec (.dreqRequest n) s = .next (((u.sets (0x500100 + 0x2000 * m + 0x80 * c) 20).updMvCh m c (fun c => { c with
            reqOvr := true, drops := satAdd 32 c.drops 1 })).startBurst m c)))
    ∧ ((s.dreq n).bound = false → (∀ e, u.firstWaiter (fun k => decide (k = .dreq n)) = some e → exec (.dreqRequest n) s = .next (u.finishWait e true))
        ∧ (u.firstWaiter (fun k => decide (k = .dreq n)) = none → ∃ t, exec (.dreqRequest n) s = .next t
            ∧ t.dreq n = { s.dreq n with level := true, pending := min 15 ((s.dreq n).pending + 1) } ∧ (∀ j, j ≠ n → t.dreq j = s.dreq j)
            ∧ t = { s with lpc := { s.lpc with dreqs := t.lpc.dreqs } }))
    ∧ (∃ t, exec (.dreqDeassert n) s = .next t ∧ t.dreq n = { s.dreq n with level := false } ∧ (∀ j, j ≠ n → t.dreq j = s.dreq j)
        ∧ t = { s with lpc := { s.lpc with dreqs := t.lpc.dreqs } }))
  ∧ (∀ (n : Nat) (b : Byte) (s : State),
    (s.lpc.sbCfg.getLsbD n = true → exec (.uartRxByte n b) s = .next s)
    ∧ (s.lpc.sbCfg.getLsbD n = false → ∃ t, exec (.uartRxByte n b) s = .next t ∧ (∀ j, j ≠ n → t.uart j = s.uart j)
        ∧ t = { s with lpc := { s.lpc with uarts := t.lpc.uarts } }
        ∧ ((s.uart n).rx.length < 256 → t.uart n = { s.uart n with rx := (s.uart n).rx ++ [b], lastAt := s.tick })
        ∧ (256 ≤ (s.uart n).rx.length → t.uart n = { s.uart n with overrun := true, attention := true, lastAt := s.tick })))
  ∧ (∀ (line : Nat) (high : Bool) (s : State),
    let k := line % 32
    let bit : W32 := BitVec.ofNat 32 (2 ^ k)
    let u := { s with lpc := { s.lpc with gpioIn := if high then s.lpc.gpioIn ||| bit else s.lpc.gpioIn &&& ~~~ bit } }
    let noted := s.lpc.gpioDir.getLsbD k = false ∧ s.lpc.gpioIrqEn.getLsbD k = true ∧ edgeSelected (fld s.lpc.gpioCfg 16 2) high = true
    (s.lpc.gpioIn.getLsbD k = high → exec (.gpioEdge line high) s = .next s)
    ∧ (s.lpc.gpioIn.getLsbD k ≠ high →
        (¬ noted → exec (.gpioEdge line high) s = .next u)
        ∧ (noted → exec (.gpioEdge line high) s =
            .next ((({ u with lpc := { u.lpc with gpioStatus := s.lpc.gpioStatus ||| bit, gpioAttention := true } } : State).sets 0xF82014 k).sendMsix
              (fld s.lpc.gpioCfg 8 3) (fld s.lpc.gpioCfg 0 8)))))
  ∧ (∀ (s : State),
    let rises := s.lpc.ppsCfg.getLsbD 16 = true ∧ s.now % 1000000000 < 11 ∧ s.lpc.ppsAt ≠ some (s.now / 1000000000)
    (rises → exec .ppsOutPulse s = .next (({ s with lpc := { s.lpc with ppsAt := some (s.now / 1000000000), ppsUp := some s.tick } } : State).drive (.pps true)))
    ∧ (¬ rises → (s.lpc.ppsUp = none → exec .ppsOutPulse s = .next s)
        ∧ (∀ t, s.lpc.ppsUp = some t →
            (s.passedMs t (fld s.lpc.ppsCfg 0 16) = true → exec .ppsOutPulse s = .next (({ s with lpc := { s.lpc with ppsUp := none } } : State).drive (.pps false)))
            ∧ (s.passedMs t (fld s.lpc.ppsCfg 0 16) = false → exec .ppsOutPulse s = .next s))))

/-- CONTROL ORDERS ACT ON THEIR PORT (R99, R101, R328, R336, R337, R340, R342, R343, Table 11.9). A delivered CONTROL word of a listed order whose checks
find nothing: the order has its effect, the word counts as completed, and DEVSTAT shows DEV_END with the port's attention, and UNIT_CHECK where the
release of a window that is not verified is asked; on a busy port, on a Field Port whose commit waits, and on an xSPI port in a reset cycle, it shows
BUSY and the order has no effect. -/
def Obligations.ControlOrdersAct : Prop :=
  ∀ (e n : Nat) (x : Xfer) (s : State) (p : Prog) (w : Ccw), Delivered s e p [w] → w.opc = 0x40 → w.space.toNat = spPort →
    let plain := s.orderChecks p w false = none
    let att : Byte := if s.attention w.port then 0x08 else 0
    let busy : Answer := .next (s.orderDone e (0x10 ||| att))
    (fpOf w.port = some n → plain →
      (w.sub = 1 → x.busy = false → (s.fport n).committed = none → exec (.fpCommitGateList e x) s = .next ((s.updFport n (fun q => { q with
          committed := some { q.admin with base := BitVec.ofNat 64 (gateStart s.now q.admin), entries := trimEntries q.admin.entries } })).orderDone e att))
      ∧ (w.sub = 1 → (x.busy = true ∨ (s.fport n).committed.isSome = true) → exec (.fpCommitGateList e x) s = busy)
      ∧ (w.sub = 2 → exec (.fpLinkDownOrder e x) s = if x.busy then busy
          else .next (((s.updFport n (fun q => { q with down := true })).fpLink n false).orderDone e att))
      ∧ (w.sub = 3 → exec (.fpLinkUpOrder e x) s = if x.busy then busy
          else .next ((s.updFport n (fun q => { q with down := false })).orderDone e att)))
    ∧ (dreqOf w.port = some n → plain → w.sub = 1 → exec (.dreqClearPending e x) s = if x.busy then busy
          else .next (if (s.dreq n).bound then ((s.updDreq n (fun d => { d with pending := 0 })).updMvCh (s.dreq n).mover (s.dreq n).channel (fun c => { c with
            pending := 0, reqOvr := false })).orderDone e att
          else (s.updDreq n (fun d => { d with pending := 0 })).orderDone e att))
    ∧ (xtOf w.port = some n → plain → x.busy = false → (s.xt n).cycling = false →
      (w.sub = 1 → exec (.xtAssertHold e x) s = .next (((s.xtAssert n).updXt n (fun q => { q with hold := true })).orderDone e att))
      ∧ (w.sub = 2 → (s.xt n).verified = true → exec (.xtRelease e x) s = .next (((s.updXt n (fun q => { q with hold := false })).xtTryRelease n).orderDone e att))
      ∧ (w.sub = 2 → (s.xt n).verified = false → exec (.xtRelease e x) s = .next (s.orderDone e (0x02 ||| att)))
      ∧ (w.sub = 3 → exec (.xtResetCycle e x) s = .next ((s.xtStartCycle n).orderDone e att)))
    ∧ (xtOf w.port = some n → plain → (x.busy = true ∨ (s.xt n).cycling = true) →
      (w.sub = 1 → exec (.xtAssertHold e x) s = busy) ∧ (w.sub = 2 → exec (.xtRelease e x) s = busy) ∧ (w.sub = 3 → exec (.xtResetCycle e x) s = busy))
    ∧ (uartOf w.port = some n → plain → w.sub = 1 → exec (.uartFlush e x) s = if x.busy then busy
          else .next ((s.updUart n (fun u => { u with rx := [] })).orderDone e att))
    ∧ (i2cOf w.port = some n → plain → w.sub = 1 → exec (.i2cBusRecovery e x) s = if x.busy then busy else .next ((s.drive (.i2cRecovery n)).orderDone e att))
    ∧ (w.port = 0x40 → s.orderChecks p w true = none →
      (w.sub = 0x10 → exec (.gpioSet e x) s = if x.busy then busy else .next ((s.gpioWrite (BitVec.ofNat 32 w.portSub) 0xFFFFFFFF).orderDone e att))
      ∧ (w.sub = 0x11 → exec (.gpioClear e x) s = if x.busy then busy else .next ((s.gpioWrite (BitVec.ofNat 32 w.portSub) 0).orderDone e att))
      ∧ (w.sub = 0x12 → exec (.gpioToggle e x) s = if x.busy then busy else .next ((s.gpioWrite (BitVec.ofNat 32 w.portSub) (~~~ s.lpc.gpioOut)).orderDone e att)))

/-- PORT WORDS MOVE BYTES BETWEEN BUFFERS AND PORTS (R76, R95, R299, R303, R327, R340 to R343, R383, Table 11.9). A PORT word whose checks find nothing,
or that has begun: on a Field Port whose link is down, or that is fenced, it ends with LINK_FAULT; PORT_OUT waits for room in its class, and then one
frame, padded to 60 bytes, joins it; PORT_IN takes the next packet of its queue, a packet of another length being a mismatch whose rest is discarded. On a
UART it sends its bytes, or takes those received, and waits while there are none; on I²C a NACK ends it at the byte it met; on the GPIO port it writes
the lines, or takes their levels. On a request line it waits for the bound channel, and then moves one burst between ring and buffer, acknowledged, the
ring advancing by a whole one. It moves bytes while a mover carries it; where no channel is free nothing happens. A UART'S IDLE GAP ends the PORT_IN
that waits on it, short where bytes lack; before the gap, or with none waiting, it ends nothing. SENSE delivers the port's sense data, another length being
a mismatch, and clears a pending attention where MODE[0] asks; a failed delivery ends it (R99). -/
def Obligations.PortWordsMove : Prop :=
  (∀ (e f : Nat) (x : Xfer) (s u : State) (p : Prog) (w : Ccw) (ws : List Ccw), AtPort s u e p w ws false → fpOf w.port = some f →
    let down := u.fpUp f = false ∨ x.status = .link
    let room := (u.fport f).queued (w.portSub % 8) + opLen p.op ≤ txQueueSize
    (down → exec (.portOut e x) s = .next (u.endAtWord e Ending.linkFault 0))
    ∧ (¬ down → ¬ room → exec (.portOut e x) s = .next u)
    ∧ (¬ down → room → ∀ q t, Rides u e w q t →
        let g := t.collect e (q.pieces q.op) false x
        let bs := if w.portSub.testBit 8 then Config.udpInsert g.bytes else g.bytes
        let t' := if g.fail.isSome then g.st else g.st.updFport f (fun q => { q with
          tx := q.tx ++ [{ bytes := bs ++ List.replicate (60 - bs.length) 0, prio := w.portSub % 8, stamp := w.portSub.testBit 9 }] })
        exec (.portOut e x) s = .next ((State.portDone { bytes := g.bytes.length, fail := g.fail, st := t' } e false (portDev x (u.fport f).attention)).dropChan e dsOk)))
  ∧ (∀ (e f : Nat) (x : Xfer) (s u : State) (p : Prog) (w : Ccw) (ws : List Ccw), AtPort s u e p w ws true → fpOf w.port = some f →
    (u.fcs.fencedPorts.contains f = true → exec (.portIn e x) s = .next (u.endAtWord e Ending.linkFault 0))
    ∧ (u.fcs.fencedPorts.contains f = false → ∀ q t, Rides u e w q t →
        let c := w.portSub % 4096
        let ps := q.pieces q.op
        let n := opLen q.op
        let rest := (t.cpq c).packet.length - (n + 3) / 4
        let g := t.collect e [{ space := spCellq, addr := BitVec.ofNat 64 c, len := n }] (!w.drp && ps.any (fun y => decide (y.space = spHost))) x
        let v := State.cpSkip c rest g.st
        exec (.portIn e x) s = .next ((State.portDone { bytes := g.bytes.length, fail := failAt ps g.bytes.length g.fail, st := if w.drp then v else State.scatter e q.fn ps g.bytes v }
          e (decide (g.bytes.length < n) || decide (0 < rest)) (portDev x (t.fport f).attention)).dropChan e dsOk)))
  ∧ (∀ (e n : Nat) (x : Xfer) (s u : State) (p : Prog) (w : Ccw) (ws : List Ccw),
    (uartOf w.port = some n → AtPort s u e p w ws false → ∀ q t, Rides u e w q t →
        let g := t.collect e (q.pieces q.op) false x
        exec (.portOut e x) s = .next ((State.portDone { bytes := g.bytes.length, fail := g.fail, st := g.st.drive (.uart n g.bytes) } e false
          (portDev x (t.uart n).attention)).dropChan e dsOk))
    ∧ (uartOf w.port = some n → AtPort s u e p w ws true → exec (.portIn e x) s = .next (u.portInUart e n w x false)
        ∧ ((u.uart n).rx = [] → exec (.portIn e x) s = .next u))
    ∧ (i2cOf w.port = some n → AtPort s u e p w ws false → ∀ q t, Rides u e w q t →
        let nack := x.devstat.getLsbD 1
        let g := t.collect e (q.pieces q.op) false x
        let bs := if nack then g.bytes.take x.data.length else g.bytes
        let v := if nack then g.st.updI2c n (fun c => { c with nack := BitVec.ofNat 32 bs.length }) else g.st
        exec (.portOut e x) s = .next ((State.portDone { bytes := bs.length, fail := if nack then none else g.fail, st := v.drive (.i2c n w.portSub bs) } e false
          (portDev x false)).dropChan e dsOk))
    ∧ (i2cOf w.port = some n → AtPort s u e p w ws true → ∀ q t, Rides u e w q t →
        let nack := x.devstat.getLsbD 1
        let m := t.deliverTo e q (q.pieces q.op) (x.data.take (opLen q.op)) w.drp x
        let v := if nack then m.st.updI2c n (fun c => { c with nack := BitVec.ofNat 32 m.bytes }) else m.st
        exec (.portIn e x) s = .next ((State.portDone { m with fail := failAt (q.pieces q.op) m.bytes m.fail, st := v } e
          (!nack && decide ((x.data.take (opLen q.op)).length < opLen q.op)) (portDev x false)).dropChan e dsOk))
    ∧ (w.port = 0x40 → AtPort s u e p w ws false → ∀ q t, Rides u e w q t →
        let g := t.collect e (q.pieces q.op) false x
        let v := if g.fail.isSome then g.st else g.st.gpioWrite 0xFFFFFFFF (BitVec.ofNat 32 (leNat g.bytes))
        exec (.portOut e x) s = .next ((State.portDone { bytes := g.bytes.length, fail := g.fail, st := v } e false (portDev x t.lpc.gpioAttention)).dropChan e dsOk))
    ∧ (w.port = 0x40 → AtPort s u e p w ws true → ∀ q t, Rides u e w q t →
        let m := t.deliverTo e q (q.pieces q.op) ((leBytes 4 t.lpc.gpioIn.toNat).take (opLen q.op)) w.drp x
        exec (.portIn e x) s = .next ((State.portDone { m with fail := failAt (q.pieces q.op) m.bytes m.fail } e (decide (opLen q.op ≠ 4))
          (portDev x t.lpc.gpioAttention)).dropChan e dsOk))
    ∧ ((uartOf w.port).isSome = true ∨ (i2cOf w.port).isSome = true ∨ w.port = 0x40 → (∀ q, u.prog e = some q → q.chan = none ∧ u.grab e q w = none) →
        (AtPort s u e p w ws false → exec (.portOut e x) s = .next u) ∧ (AtPort s u e p w ws true → exec (.portIn e x) s = .next u)))
  ∧ (∀ (e n : Nat) (x : Xfer) (s u : State) (p : Prog) (w : Ccw) (ws : List Ccw) (inw : Bool), AtPort s u e p w ws inw → dreqOf w.port = some n →
    let i : Instr := if inw then .portIn e x else .portOut e x
    let v := u.bindWord e n w
    let d := v.dreq n
    (∀ q, u.prog e = some q → q.chan = none → (u.mvCh (u.dreq n).mover (u.dreq n).channel).active.isSome = true → exec i s = .next u)
    ∧ (∀ q, v.prog e = some q → v.carried q = false → exec i s = .next v)
    ∧ (∀ q, v.prog e = some q → v.carried q = true →
        let len := opLen q.op
        let want := min (boundBurst w len) (len - q.moved)
        let ended := fun (t : State) => if (t.prog e).bind Prog.chan = some (d.mover, d.channel) then t.burstOver d.mover d.channel else t
        (inw = false → (d.isLevel = false ∨ d.level = true) →
            let g := v.collect e (slicePieces (q.pieces q.op) q.moved want) true x
            let bs := g.bytes.take want
            let b := State.scatter e d.ringFn (d.ringPieces want) bs g.st
            exec i s = .next (ended (State.wordProgress { bytes := bs.length, fail := g.fail, st := (b.ringAdvance n (boundBurst w len)).acknowledge n }
              e q len 0 false false (portDev x false) (fun p => p))))
        ∧ (inw = true → d.isLevel = false →
            let g := v.collect e (d.ringPieces want) true x
            let bs := g.bytes.take want
            let b := if w.drp then g.st else State.scatter e q.fn (slicePieces (q.pieces q.op) q.moved want) bs g.st
            let k := if w.drp then 0 else pieceIndex (q.pieces q.op) (q.moved + bs.length)
            exec i s = .next (ended (State.wordProgress { bytes := bs.length, fail := g.fail.map (fun f => (k, f.2)), st := (b.ringAdvance n (boundBurst w len)).acknowledge n }
              e q len 0 false false (portDev x false) (fun p => p))))))
  ∧ (∀ (n : Nat) (s : State),
    (s.gapReader n = none → exec (.uartIdleGap n) s = .next s)
    ∧ (∀ e u p w ws, s.gapReader n = some e → AtPort s u e p w ws true →
        ((u.uart n).bitNs (w.portSub % 65536) ≤ u.sinceNs (max (u.uart n).lastAt p.execAt) → exec (.uartIdleGap n) s = .next (u.portInUart e n w Xfer.none true))
        ∧ (u.sinceNs (max (u.uart n).lastAt p.execAt) < (u.uart n).bitNs (w.portSub % 65536) → exec (.uartIdleGap n) s = .next u))
    ∧ (∀ e w x gap q t, ((s.uart n).rx ≠ [] ∨ gap = true) → Rides s e w q t →
        let bs := (t.uart n).rx.take (opLen q.op - q.moved)
        let m := (t.updUart n (fun u => { u with rx := u.rx.drop bs.length })).deliverTo e q (slicePieces (q.pieces q.op) q.moved bs.length) bs w.drp x
        let short := gap && decide (q.moved + bs.length < opLen q.op)
        s.portInUart e n w x gap = (State.wordProgress { m with fail := failAt (q.pieces q.op) (q.moved + m.bytes) m.fail } e q (opLen q.op) 0 short short
          (portDev x (t.uart n).attention) (fun p => p)).dropChan e dsOk))
  ∧ (∀ (e : Nat) (x : Xfer) (s : State) (p : Prog) (w : Ccw) (d : List Byte × State), Delivered s e p [w] → w.opc = 0x41 → s.senseChecks p w = none →
    s.senseData w.port w.portSub = some d →
    let n := w.count.toNat
    let bs := d.1.take n
    let m := d.2.deliverTo e p [{ p.bufPiece w with len := bs.length }] bs false x
    let v := if w.mode.getLsbD 0 then m.st.clearAttention w.port else m.st
    let mis := decide (d.1.length ≠ n)
    (∀ f, m.fail = some f → exec (.sense e x) s = .next (m.st.endAtWord e f.2 0))
    ∧ (m.fail = none → mis = true → w.tol = false → exec (.sense e x) s = .next (v.endAtWord e Ending.lengthMismatch 0))
    ∧ (m.fail = none → (mis = false ∨ w.tol = true) → exec (.sense e x) s =
        .next ((v.updProg e (fun q => { (q.deviceDone bs.length 0 (portDev x (s.attention w.port))) with c := mis })).completeWord e .next))
    ∧ (∀ k, fpOf w.port = some k → w.portSub = 1 → d = (leBytes 8 (s.fport k).txTs.toNat, s))
    ∧ (∀ k, xtOf w.port = some k → (w.portSub = 0 → d = (leBytes 4 (s.xtStatus k).toNat, s))
        ∧ (w.portSub = 1 → d = (leBytes 4 (s.xt k).records ++ leBytes 4 (s.xt k).werr, s)))
    ∧ (∀ k, i2cOf w.port = some k → d = (leBytes 4 (s.i2c k).nack.toNat, s))
    ∧ (w.port = 0x40 → d = (leBytes 4 s.lpc.gpioStatus.toNat, s)))

/-! ## Reset and the machine as a whole -/

/-- RESET LEAVES THE PART IN BOOT AND EMPTY (R402, R403, R416, R442). The mode is Boot; no command waits; no engine runs a program; no queue, crew,
stream or region exists; the part is not locked; the vendor root slots are programmed and none is revoked. -/
def Obligations.ResetState : Prop :=
  State.reset.pending = [] ∧ State.reset.top.mode = .boot ∧ (∀ e, State.reset.prog e = none) ∧ (∀ n, State.reset.sq n = none) ∧ (∀ m, State.reset.cq m = none)
  ∧ (∀ k, State.reset.crew k = none) ∧ (∀ i, State.reset.stream i = none) ∧ (∀ i, State.reset.region i = none) ∧ State.reset.otp.locked = false
  ∧ (∀ k, (State.reset.rootAt k).revoked = false) ∧ (∀ k, k ∈ [0, 1, 4, 5] → (State.reset.rootAt k).hash = Config.vendorRoot k ∧ (State.reset.rootAt k).programmed = true)

/-- A COMMAND LEAVES THE QUEUE OF COMMANDS ALONE. Where a command is carried out, the commands that wait are those that waited. NO COMMAND IS REFUSED.
Every command is carried out, or stops where the specification gives it no effect. -/
def Obligations.CommandsAreCarriedOut : Prop :=
  (∀ (c : Instr) (s t : State), exec c s = .next t → t.pending = s.pending)
  ∧ (∀ (c : Instr) (s : State) (r : Refusal), exec c s ≠ .refused r)

/-- WHAT IS WRITTEN ONCE IS NEVER UNDONE (R403, R405 to R408, R416). Whatever command a step takes, and on an empty queue: the provisioning lock stays;
a programmed root slot keeps its hash and stays programmed; a revoked one stays revoked; the fuses, the floor of every vault pair and the generation
of the device secret never go back. -/
def Obligations.OtpIsNeverUndone : Prop :=
  ∀ (s t : State), step s = .next t →
    (s.otp.locked = true → t.otp.locked = true) ∧ (s.otp.secret = true → t.otp.secret = true)
    ∧ (∀ k, (s.rootAt k).programmed = true → (t.rootAt k).programmed = true ∧ (t.rootAt k).hash = (s.rootAt k).hash)
    ∧ (∀ k, (s.rootAt k).revoked = true → (t.rootAt k).revoked = true)
    ∧ s.otp.fuses ≤ t.otp.fuses ∧ (∀ k, s.otp.vaultFloors.get k 0 ≤ t.otp.vaultFloors.get k 0) ∧ s.otp.secretGen ≤ t.otp.secretGen

/-- EVERY STEP KEEPS THE VENDOR'S ROOT SLOTS (R403): programmed, with the hashes they were made with. -/
def Obligations.VendorRootsAreKept : Prop :=
  ∀ (s t : State), VendorRootsStand s → step s = .next t → VendorRootsStand t

/-- EVERY STEP KEEPS THE YARD'S MEMORY IN ITS ONE FORM (R21, R485; log 3): addresses strictly rising, and no byte listed that reads as an unlisted one
does. -/
def Obligations.YardStaysCanonical : Prop :=
  ∀ (s t : State), s.yard.mem.wf = true → step s = .next t → t.yard.mem.wf = true
end

