-- ==== Sys2Proof/Laws/Memory.lean ====
section
/-! SUPPORT. The laws of a byte memory: a write keeps the canonical form, and what an address reads as after it. -/
namespace Sys2Proof

/-- The lower bound of a canonical memory may be taken lower. -/
theorem Memory.wfFrom_lower {m : Memory} {l k : Nat} (h : Memory.wfFrom (some l) m = true) (hk : k ≤ l) : Memory.wfFrom (some k) m = true := by
  cases m with
  | nil => rfl
  | cons c t =>
    obtain ⟨j, b⟩ := c
    simp only [Memory.wfFrom, Bool.and_eq_true, decide_eq_true_eq] at h ⊢
    exact ⟨⟨by omega, h.1.2⟩, h.2⟩

theorem Memory.wfFrom_none {m : Memory} {l : Nat} (h : Memory.wfFrom (some l) m = true) : Memory.wfFrom none m = true := by
  cases m with
  | nil => rfl
  | cons c t =>
    obtain ⟨j, b⟩ := c
    simp only [Memory.wfFrom, Bool.and_eq_true, decide_eq_true_eq] at h ⊢
    exact ⟨⟨trivial, h.1.2⟩, h.2⟩

/-- A write above the lower bound keeps the canonical form above it. -/
theorem Memory.wfFrom_write (m : Memory) (a : Nat) (v : Byte) (l : Nat) (h : Memory.wfFrom (some l) m = true) (ha : l < a) :
    Memory.wfFrom (some l) (m.write a v) = true := by
  induction m generalizing l with
  | nil =>
    simp only [Memory.write]
    split
    · rfl
    · simp_all [Memory.wfFrom]
  | cons c t ih =>
    obtain ⟨j, b⟩ := c
    have h0 := h
    simp only [Memory.wfFrom, Bool.and_eq_true, decide_eq_true_eq] at h
    simp only [Memory.write]
    split
    · split
      · exact h0
      · simp_all [Memory.wfFrom]
    · split
      · split
        · exact Memory.wfFrom_lower h.2 (by omega)
        · simp_all [Memory.wfFrom]
      · simp only [Memory.wfFrom, Bool.and_eq_true, decide_eq_true_eq]
        exact ⟨h.1, ih j h.2 (by omega)⟩

/-- A write keeps the canonical form. -/
theorem Memory.wf_write (m : Memory) (a : Nat) (v : Byte) (h : m.wf = true) : (m.write a v).wf = true := by
  cases m with
  | nil =>
    simp only [Memory.write]
    split
    · rfl
    · simp_all [Memory.wf, Memory.wfFrom]
  | cons c t =>
    obtain ⟨j, b⟩ := c
    have h0 := h
    simp only [Memory.wf, Memory.wfFrom, Bool.and_eq_true, decide_eq_true_eq] at h
    simp only [Memory.write]
    split
    · split
      · exact h0
      · simp_all [Memory.wf, Memory.wfFrom]
    · split
      · split
        · exact Memory.wfFrom_none h.2
        · simp_all [Memory.wf, Memory.wfFrom]
      · simp only [Memory.wf, Memory.wfFrom, Bool.and_eq_true, decide_eq_true_eq]
        exact ⟨h.1, Memory.wfFrom_write t a v j h.2 (by omega)⟩

/-- A write of several bytes keeps the canonical form. -/
theorem Memory.wf_writeN (m : Memory) (a : Nat) (bs : List Byte) (h : m.wf = true) : (m.writeN a bs).wf = true := by
  induction bs generalizing m a with
  | nil => exact h
  | cons b t ih => exact ih (m.write a b) (a + 1) (m.wf_write a b h)

/-- Below the lower bound nothing is listed. -/
theorem Memory.read_below {m : Memory} {l a : Nat} (h : Memory.wfFrom (some l) m = true) (ha : a ≤ l) : m.read a = Memory.unlisted := by
  induction m generalizing l with
  | nil => rfl
  | cons c t ih =>
    obtain ⟨j, b⟩ := c
    simp only [Memory.wfFrom, Bool.and_eq_true, decide_eq_true_eq] at h
    simp only [Memory.read]
    rw [if_neg (by omega)]
    exact ih h.2 (by omega)

/-- An address reads as written, and every other as before, in a canonical memory above a bound. -/
theorem Memory.read_write_from (m : Memory) (a : Nat) (v : Byte) (c : Nat) (l : Option Nat) (h : Memory.wfFrom l m = true) :
    (m.write a v).read c = if c = a then v else m.read c := by
  induction m generalizing l with
  | nil =>
    simp only [Memory.write]
    split
    · simp_all [Memory.read]
    · simp only [Memory.read]; grind
  | cons x t ih =>
    obtain ⟨j, b⟩ := x
    have ht : Memory.wfFrom (some j) t = true := by
      simp only [Memory.wfFrom, Bool.and_eq_true] at h
      exact h.2
    have below : ∀ k, k ≤ j → Memory.read t k = Memory.unlisted := fun k hk => Memory.read_below ht hk
    have ih := ih (some j) ht
    simp only [Memory.write]
    split
    · split
      · simp only [Memory.read]
        have := below a (by omega)
        grind
      · simp only [Memory.read]; grind
    · split
      · split
        · have := below a (by omega)
          simp only [Memory.read]; grind
        · simp only [Memory.read]; grind
      · simp only [Memory.read, ih]; grind

/-- A read after a write. -/
theorem Memory.read_write (m : Memory) (a : Nat) (v : Byte) (c : Nat) (h : m.wf = true) : (m.write a v).read c = if c = a then v else m.read c :=
  Memory.read_write_from m a v c none h

/-- A write of several bytes leaves every address outside them. -/
theorem Memory.read_writeN_outside (m : Memory) (a : Nat) (bs : List Byte) (c : Nat) (h : m.wf = true) (hc : c < a ∨ a + bs.length ≤ c) :
    (m.writeN a bs).read c = m.read c := by
  induction bs generalizing m a with
  | nil => rfl
  | cons b t ih =>
    simp only [List.length_cons] at hc
    rw [Memory.writeN, ih (m.write a b) (a + 1) (m.wf_write a b h) (by omega), Memory.read_write m a b c h, if_neg (by omega)]

namespace Machine

/-- A write of the Yard keeps its memory canonical. -/
theorem Yard.write_wf (y : Yard) (lo : Nat) (bs : List Byte) (h : y.mem.wf = true) : (y.write lo bs).mem.wf = true := Memory.wf_writeN y.mem lo bs h

/-- The same of the Yard in the state. -/
theorem State.yardWrite_wf (s : State) (lo : Nat) (bs : List Byte) (h : s.yard.mem.wf = true) : (s.yardWrite lo bs).yard.mem.wf = true := by
  unfold State.yardWrite
  split <;> exact Yard.write_wf s.yard lo bs h

/-- The memories of the part are in canonical form: the Yard and every local store. -/
theorem State.reset_memory_wf : State.reset.yard.mem.wf = true ∧ State.reset.eng.engines = [] := ⟨rfl, rfl⟩

end Machine

end Sys2Proof
end

