-- ==== Sys2Proof/Laws/State.lean ====
section
/-! SUPPORT. What each named update of the state leaves alone: one lemma per update and per part of the state, true by definition. -/
namespace Sys2Proof.Machine

/-! ## `updSq` changes `qe` alone. -/

@[simp] theorem State.updSq_yard (s : State) (n : Nat) (f : Sq → Sq) : (s.updSq n f).yard = s.yard := rfl
@[simp] theorem State.updSq_eng (s : State) (n : Nat) (f : Sq → Sq) : (s.updSq n f).eng = s.eng := rfl
@[simp] theorem State.updSq_lq (s : State) (n : Nat) (f : Sq → Sq) : (s.updSq n f).lq = s.lq := rfl
@[simp] theorem State.updSq_mm (s : State) (n : Nat) (f : Sq → Sq) : (s.updSq n f).mm = s.mm := rfl
@[simp] theorem State.updSq_fc (s : State) (n : Nat) (f : Sq → Sq) : (s.updSq n f).fc = s.fc := rfl
@[simp] theorem State.updSq_sch (s : State) (n : Nat) (f : Sq → Sq) : (s.updSq n f).sch = s.sch := rfl
@[simp] theorem State.updSq_mv (s : State) (n : Nat) (f : Sq → Sq) : (s.updSq n f).mv = s.mv := rfl
@[simp] theorem State.updSq_cpl (s : State) (n : Nat) (f : Sq → Sq) : (s.updSq n f).cpl = s.cpl := rfl
@[simp] theorem State.updSq_mbx (s : State) (n : Nat) (f : Sq → Sq) : (s.updSq n f).mbx = s.mbx := rfl
@[simp] theorem State.updSq_tmr (s : State) (n : Nat) (f : Sq → Sq) : (s.updSq n f).tmr = s.tmr := rfl
@[simp] theorem State.updSq_psv (s : State) (n : Nat) (f : Sq → Sq) : (s.updSq n f).psv = s.psv := rfl
@[simp] theorem State.updSq_hpc (s : State) (n : Nat) (f : Sq → Sq) : (s.updSq n f).hpc = s.hpc := rfl
@[simp] theorem State.updSq_field (s : State) (n : Nat) (f : Sq → Sq) : (s.updSq n f).field = s.field := rfl
@[simp] theorem State.updSq_lpc (s : State) (n : Nat) (f : Sq → Sq) : (s.updSq n f).lpc = s.lpc := rfl
@[simp] theorem State.updSq_mgp (s : State) (n : Nat) (f : Sq → Sq) : (s.updSq n f).mgp = s.mgp := rfl
@[simp] theorem State.updSq_fcs (s : State) (n : Nat) (f : Sq → Sq) : (s.updSq n f).fcs = s.fcs := rfl
@[simp] theorem State.updSq_tru (s : State) (n : Nat) (f : Sq → Sq) : (s.updSq n f).tru = s.tru := rfl
@[simp] theorem State.updSq_otp (s : State) (n : Nat) (f : Sq → Sq) : (s.updSq n f).otp = s.otp := rfl
@[simp] theorem State.updSq_top (s : State) (n : Nat) (f : Sq → Sq) : (s.updSq n f).top = s.top := rfl
@[simp] theorem State.updSq_tick (s : State) (n : Nat) (f : Sq → Sq) : (s.updSq n f).tick = s.tick := rfl
@[simp] theorem State.updSq_free (s : State) (n : Nat) (f : Sq → Sq) : (s.updSq n f).free = s.free := rfl
@[simp] theorem State.updSq_out (s : State) (n : Nat) (f : Sq → Sq) : (s.updSq n f).out = s.out := rfl
@[simp] theorem State.updSq_pending (s : State) (n : Nat) (f : Sq → Sq) : (s.updSq n f).pending = s.pending := rfl

/-! ## `updCq` changes `qe` alone. -/

@[simp] theorem State.updCq_yard (s : State) (n : Nat) (f : Cq → Cq) : (s.updCq n f).yard = s.yard := rfl
@[simp] theorem State.updCq_eng (s : State) (n : Nat) (f : Cq → Cq) : (s.updCq n f).eng = s.eng := rfl
@[simp] theorem State.updCq_lq (s : State) (n : Nat) (f : Cq → Cq) : (s.updCq n f).lq = s.lq := rfl
@[simp] theorem State.updCq_mm (s : State) (n : Nat) (f : Cq → Cq) : (s.updCq n f).mm = s.mm := rfl
@[simp] theorem State.updCq_fc (s : State) (n : Nat) (f : Cq → Cq) : (s.updCq n f).fc = s.fc := rfl
@[simp] theorem State.updCq_sch (s : State) (n : Nat) (f : Cq → Cq) : (s.updCq n f).sch = s.sch := rfl
@[simp] theorem State.updCq_mv (s : State) (n : Nat) (f : Cq → Cq) : (s.updCq n f).mv = s.mv := rfl
@[simp] theorem State.updCq_cpl (s : State) (n : Nat) (f : Cq → Cq) : (s.updCq n f).cpl = s.cpl := rfl
@[simp] theorem State.updCq_mbx (s : State) (n : Nat) (f : Cq → Cq) : (s.updCq n f).mbx = s.mbx := rfl
@[simp] theorem State.updCq_tmr (s : State) (n : Nat) (f : Cq → Cq) : (s.updCq n f).tmr = s.tmr := rfl
@[simp] theorem State.updCq_psv (s : State) (n : Nat) (f : Cq → Cq) : (s.updCq n f).psv = s.psv := rfl
@[simp] theorem State.updCq_hpc (s : State) (n : Nat) (f : Cq → Cq) : (s.updCq n f).hpc = s.hpc := rfl
@[simp] theorem State.updCq_field (s : State) (n : Nat) (f : Cq → Cq) : (s.updCq n f).field = s.field := rfl
@[simp] theorem State.updCq_lpc (s : State) (n : Nat) (f : Cq → Cq) : (s.updCq n f).lpc = s.lpc := rfl
@[simp] theorem State.updCq_mgp (s : State) (n : Nat) (f : Cq → Cq) : (s.updCq n f).mgp = s.mgp := rfl
@[simp] theorem State.updCq_fcs (s : State) (n : Nat) (f : Cq → Cq) : (s.updCq n f).fcs = s.fcs := rfl
@[simp] theorem State.updCq_tru (s : State) (n : Nat) (f : Cq → Cq) : (s.updCq n f).tru = s.tru := rfl
@[simp] theorem State.updCq_otp (s : State) (n : Nat) (f : Cq → Cq) : (s.updCq n f).otp = s.otp := rfl
@[simp] theorem State.updCq_top (s : State) (n : Nat) (f : Cq → Cq) : (s.updCq n f).top = s.top := rfl
@[simp] theorem State.updCq_tick (s : State) (n : Nat) (f : Cq → Cq) : (s.updCq n f).tick = s.tick := rfl
@[simp] theorem State.updCq_free (s : State) (n : Nat) (f : Cq → Cq) : (s.updCq n f).free = s.free := rfl
@[simp] theorem State.updCq_out (s : State) (n : Nat) (f : Cq → Cq) : (s.updCq n f).out = s.out := rfl
@[simp] theorem State.updCq_pending (s : State) (n : Nat) (f : Cq → Cq) : (s.updCq n f).pending = s.pending := rfl

/-! ## `updAq` changes `qe` alone. -/

@[simp] theorem State.updAq_yard (s : State) (n : Nat) (f : Aq → Aq) : (s.updAq n f).yard = s.yard := rfl
@[simp] theorem State.updAq_eng (s : State) (n : Nat) (f : Aq → Aq) : (s.updAq n f).eng = s.eng := rfl
@[simp] theorem State.updAq_lq (s : State) (n : Nat) (f : Aq → Aq) : (s.updAq n f).lq = s.lq := rfl
@[simp] theorem State.updAq_mm (s : State) (n : Nat) (f : Aq → Aq) : (s.updAq n f).mm = s.mm := rfl
@[simp] theorem State.updAq_fc (s : State) (n : Nat) (f : Aq → Aq) : (s.updAq n f).fc = s.fc := rfl
@[simp] theorem State.updAq_sch (s : State) (n : Nat) (f : Aq → Aq) : (s.updAq n f).sch = s.sch := rfl
@[simp] theorem State.updAq_mv (s : State) (n : Nat) (f : Aq → Aq) : (s.updAq n f).mv = s.mv := rfl
@[simp] theorem State.updAq_cpl (s : State) (n : Nat) (f : Aq → Aq) : (s.updAq n f).cpl = s.cpl := rfl
@[simp] theorem State.updAq_mbx (s : State) (n : Nat) (f : Aq → Aq) : (s.updAq n f).mbx = s.mbx := rfl
@[simp] theorem State.updAq_tmr (s : State) (n : Nat) (f : Aq → Aq) : (s.updAq n f).tmr = s.tmr := rfl
@[simp] theorem State.updAq_psv (s : State) (n : Nat) (f : Aq → Aq) : (s.updAq n f).psv = s.psv := rfl
@[simp] theorem State.updAq_hpc (s : State) (n : Nat) (f : Aq → Aq) : (s.updAq n f).hpc = s.hpc := rfl
@[simp] theorem State.updAq_field (s : State) (n : Nat) (f : Aq → Aq) : (s.updAq n f).field = s.field := rfl
@[simp] theorem State.updAq_lpc (s : State) (n : Nat) (f : Aq → Aq) : (s.updAq n f).lpc = s.lpc := rfl
@[simp] theorem State.updAq_mgp (s : State) (n : Nat) (f : Aq → Aq) : (s.updAq n f).mgp = s.mgp := rfl
@[simp] theorem State.updAq_fcs (s : State) (n : Nat) (f : Aq → Aq) : (s.updAq n f).fcs = s.fcs := rfl
@[simp] theorem State.updAq_tru (s : State) (n : Nat) (f : Aq → Aq) : (s.updAq n f).tru = s.tru := rfl
@[simp] theorem State.updAq_otp (s : State) (n : Nat) (f : Aq → Aq) : (s.updAq n f).otp = s.otp := rfl
@[simp] theorem State.updAq_top (s : State) (n : Nat) (f : Aq → Aq) : (s.updAq n f).top = s.top := rfl
@[simp] theorem State.updAq_tick (s : State) (n : Nat) (f : Aq → Aq) : (s.updAq n f).tick = s.tick := rfl
@[simp] theorem State.updAq_free (s : State) (n : Nat) (f : Aq → Aq) : (s.updAq n f).free = s.free := rfl
@[simp] theorem State.updAq_out (s : State) (n : Nat) (f : Aq → Aq) : (s.updAq n f).out = s.out := rfl
@[simp] theorem State.updAq_pending (s : State) (n : Nat) (f : Aq → Aq) : (s.updAq n f).pending = s.pending := rfl

/-! ## `updEngine` changes `eng` alone. -/

@[simp] theorem State.updEngine_yard (s : State) (n : Nat) (f : Engine → Engine) : (s.updEngine n f).yard = s.yard := rfl
@[simp] theorem State.updEngine_qe (s : State) (n : Nat) (f : Engine → Engine) : (s.updEngine n f).qe = s.qe := rfl
@[simp] theorem State.updEngine_lq (s : State) (n : Nat) (f : Engine → Engine) : (s.updEngine n f).lq = s.lq := rfl
@[simp] theorem State.updEngine_mm (s : State) (n : Nat) (f : Engine → Engine) : (s.updEngine n f).mm = s.mm := rfl
@[simp] theorem State.updEngine_fc (s : State) (n : Nat) (f : Engine → Engine) : (s.updEngine n f).fc = s.fc := rfl
@[simp] theorem State.updEngine_sch (s : State) (n : Nat) (f : Engine → Engine) : (s.updEngine n f).sch = s.sch := rfl
@[simp] theorem State.updEngine_mv (s : State) (n : Nat) (f : Engine → Engine) : (s.updEngine n f).mv = s.mv := rfl
@[simp] theorem State.updEngine_cpl (s : State) (n : Nat) (f : Engine → Engine) : (s.updEngine n f).cpl = s.cpl := rfl
@[simp] theorem State.updEngine_mbx (s : State) (n : Nat) (f : Engine → Engine) : (s.updEngine n f).mbx = s.mbx := rfl
@[simp] theorem State.updEngine_tmr (s : State) (n : Nat) (f : Engine → Engine) : (s.updEngine n f).tmr = s.tmr := rfl
@[simp] theorem State.updEngine_psv (s : State) (n : Nat) (f : Engine → Engine) : (s.updEngine n f).psv = s.psv := rfl
@[simp] theorem State.updEngine_hpc (s : State) (n : Nat) (f : Engine → Engine) : (s.updEngine n f).hpc = s.hpc := rfl
@[simp] theorem State.updEngine_field (s : State) (n : Nat) (f : Engine → Engine) : (s.updEngine n f).field = s.field := rfl
@[simp] theorem State.updEngine_lpc (s : State) (n : Nat) (f : Engine → Engine) : (s.updEngine n f).lpc = s.lpc := rfl
@[simp] theorem State.updEngine_mgp (s : State) (n : Nat) (f : Engine → Engine) : (s.updEngine n f).mgp = s.mgp := rfl
@[simp] theorem State.updEngine_fcs (s : State) (n : Nat) (f : Engine → Engine) : (s.updEngine n f).fcs = s.fcs := rfl
@[simp] theorem State.updEngine_tru (s : State) (n : Nat) (f : Engine → Engine) : (s.updEngine n f).tru = s.tru := rfl
@[simp] theorem State.updEngine_otp (s : State) (n : Nat) (f : Engine → Engine) : (s.updEngine n f).otp = s.otp := rfl
@[simp] theorem State.updEngine_top (s : State) (n : Nat) (f : Engine → Engine) : (s.updEngine n f).top = s.top := rfl
@[simp] theorem State.updEngine_tick (s : State) (n : Nat) (f : Engine → Engine) : (s.updEngine n f).tick = s.tick := rfl
@[simp] theorem State.updEngine_free (s : State) (n : Nat) (f : Engine → Engine) : (s.updEngine n f).free = s.free := rfl
@[simp] theorem State.updEngine_out (s : State) (n : Nat) (f : Engine → Engine) : (s.updEngine n f).out = s.out := rfl
@[simp] theorem State.updEngine_pending (s : State) (n : Nat) (f : Engine → Engine) : (s.updEngine n f).pending = s.pending := rfl

/-! ## `updCluster` changes `eng` alone. -/

@[simp] theorem State.updCluster_yard (s : State) (n : Nat) (f : Cluster → Cluster) : (s.updCluster n f).yard = s.yard := rfl
@[simp] theorem State.updCluster_qe (s : State) (n : Nat) (f : Cluster → Cluster) : (s.updCluster n f).qe = s.qe := rfl
@[simp] theorem State.updCluster_lq (s : State) (n : Nat) (f : Cluster → Cluster) : (s.updCluster n f).lq = s.lq := rfl
@[simp] theorem State.updCluster_mm (s : State) (n : Nat) (f : Cluster → Cluster) : (s.updCluster n f).mm = s.mm := rfl
@[simp] theorem State.updCluster_fc (s : State) (n : Nat) (f : Cluster → Cluster) : (s.updCluster n f).fc = s.fc := rfl
@[simp] theorem State.updCluster_sch (s : State) (n : Nat) (f : Cluster → Cluster) : (s.updCluster n f).sch = s.sch := rfl
@[simp] theorem State.updCluster_mv (s : State) (n : Nat) (f : Cluster → Cluster) : (s.updCluster n f).mv = s.mv := rfl
@[simp] theorem State.updCluster_cpl (s : State) (n : Nat) (f : Cluster → Cluster) : (s.updCluster n f).cpl = s.cpl := rfl
@[simp] theorem State.updCluster_mbx (s : State) (n : Nat) (f : Cluster → Cluster) : (s.updCluster n f).mbx = s.mbx := rfl
@[simp] theorem State.updCluster_tmr (s : State) (n : Nat) (f : Cluster → Cluster) : (s.updCluster n f).tmr = s.tmr := rfl
@[simp] theorem State.updCluster_psv (s : State) (n : Nat) (f : Cluster → Cluster) : (s.updCluster n f).psv = s.psv := rfl
@[simp] theorem State.updCluster_hpc (s : State) (n : Nat) (f : Cluster → Cluster) : (s.updCluster n f).hpc = s.hpc := rfl
@[simp] theorem State.updCluster_field (s : State) (n : Nat) (f : Cluster → Cluster) : (s.updCluster n f).field = s.field := rfl
@[simp] theorem State.updCluster_lpc (s : State) (n : Nat) (f : Cluster → Cluster) : (s.updCluster n f).lpc = s.lpc := rfl
@[simp] theorem State.updCluster_mgp (s : State) (n : Nat) (f : Cluster → Cluster) : (s.updCluster n f).mgp = s.mgp := rfl
@[simp] theorem State.updCluster_fcs (s : State) (n : Nat) (f : Cluster → Cluster) : (s.updCluster n f).fcs = s.fcs := rfl
@[simp] theorem State.updCluster_tru (s : State) (n : Nat) (f : Cluster → Cluster) : (s.updCluster n f).tru = s.tru := rfl
@[simp] theorem State.updCluster_otp (s : State) (n : Nat) (f : Cluster → Cluster) : (s.updCluster n f).otp = s.otp := rfl
@[simp] theorem State.updCluster_top (s : State) (n : Nat) (f : Cluster → Cluster) : (s.updCluster n f).top = s.top := rfl
@[simp] theorem State.updCluster_tick (s : State) (n : Nat) (f : Cluster → Cluster) : (s.updCluster n f).tick = s.tick := rfl
@[simp] theorem State.updCluster_free (s : State) (n : Nat) (f : Cluster → Cluster) : (s.updCluster n f).free = s.free := rfl
@[simp] theorem State.updCluster_out (s : State) (n : Nat) (f : Cluster → Cluster) : (s.updCluster n f).out = s.out := rfl
@[simp] theorem State.updCluster_pending (s : State) (n : Nat) (f : Cluster → Cluster) : (s.updCluster n f).pending = s.pending := rfl

/-! ## `updCrew` changes `eng` alone. -/

@[simp] theorem State.updCrew_yard (s : State) (n : Nat) (f : Crew → Crew) : (s.updCrew n f).yard = s.yard := rfl
@[simp] theorem State.updCrew_qe (s : State) (n : Nat) (f : Crew → Crew) : (s.updCrew n f).qe = s.qe := rfl
@[simp] theorem State.updCrew_lq (s : State) (n : Nat) (f : Crew → Crew) : (s.updCrew n f).lq = s.lq := rfl
@[simp] theorem State.updCrew_mm (s : State) (n : Nat) (f : Crew → Crew) : (s.updCrew n f).mm = s.mm := rfl
@[simp] theorem State.updCrew_fc (s : State) (n : Nat) (f : Crew → Crew) : (s.updCrew n f).fc = s.fc := rfl
@[simp] theorem State.updCrew_sch (s : State) (n : Nat) (f : Crew → Crew) : (s.updCrew n f).sch = s.sch := rfl
@[simp] theorem State.updCrew_mv (s : State) (n : Nat) (f : Crew → Crew) : (s.updCrew n f).mv = s.mv := rfl
@[simp] theorem State.updCrew_cpl (s : State) (n : Nat) (f : Crew → Crew) : (s.updCrew n f).cpl = s.cpl := rfl
@[simp] theorem State.updCrew_mbx (s : State) (n : Nat) (f : Crew → Crew) : (s.updCrew n f).mbx = s.mbx := rfl
@[simp] theorem State.updCrew_tmr (s : State) (n : Nat) (f : Crew → Crew) : (s.updCrew n f).tmr = s.tmr := rfl
@[simp] theorem State.updCrew_psv (s : State) (n : Nat) (f : Crew → Crew) : (s.updCrew n f).psv = s.psv := rfl
@[simp] theorem State.updCrew_hpc (s : State) (n : Nat) (f : Crew → Crew) : (s.updCrew n f).hpc = s.hpc := rfl
@[simp] theorem State.updCrew_field (s : State) (n : Nat) (f : Crew → Crew) : (s.updCrew n f).field = s.field := rfl
@[simp] theorem State.updCrew_lpc (s : State) (n : Nat) (f : Crew → Crew) : (s.updCrew n f).lpc = s.lpc := rfl
@[simp] theorem State.updCrew_mgp (s : State) (n : Nat) (f : Crew → Crew) : (s.updCrew n f).mgp = s.mgp := rfl
@[simp] theorem State.updCrew_fcs (s : State) (n : Nat) (f : Crew → Crew) : (s.updCrew n f).fcs = s.fcs := rfl
@[simp] theorem State.updCrew_tru (s : State) (n : Nat) (f : Crew → Crew) : (s.updCrew n f).tru = s.tru := rfl
@[simp] theorem State.updCrew_otp (s : State) (n : Nat) (f : Crew → Crew) : (s.updCrew n f).otp = s.otp := rfl
@[simp] theorem State.updCrew_top (s : State) (n : Nat) (f : Crew → Crew) : (s.updCrew n f).top = s.top := rfl
@[simp] theorem State.updCrew_tick (s : State) (n : Nat) (f : Crew → Crew) : (s.updCrew n f).tick = s.tick := rfl
@[simp] theorem State.updCrew_free (s : State) (n : Nat) (f : Crew → Crew) : (s.updCrew n f).free = s.free := rfl
@[simp] theorem State.updCrew_out (s : State) (n : Nat) (f : Crew → Crew) : (s.updCrew n f).out = s.out := rfl
@[simp] theorem State.updCrew_pending (s : State) (n : Nat) (f : Crew → Crew) : (s.updCrew n f).pending = s.pending := rfl

/-! ## `updBar` changes `eng` alone. -/

@[simp] theorem State.updBar_yard (s : State) (n : Nat) (f : Barrier → Barrier) : (s.updBar n f).yard = s.yard := rfl
@[simp] theorem State.updBar_qe (s : State) (n : Nat) (f : Barrier → Barrier) : (s.updBar n f).qe = s.qe := rfl
@[simp] theorem State.updBar_lq (s : State) (n : Nat) (f : Barrier → Barrier) : (s.updBar n f).lq = s.lq := rfl
@[simp] theorem State.updBar_mm (s : State) (n : Nat) (f : Barrier → Barrier) : (s.updBar n f).mm = s.mm := rfl
@[simp] theorem State.updBar_fc (s : State) (n : Nat) (f : Barrier → Barrier) : (s.updBar n f).fc = s.fc := rfl
@[simp] theorem State.updBar_sch (s : State) (n : Nat) (f : Barrier → Barrier) : (s.updBar n f).sch = s.sch := rfl
@[simp] theorem State.updBar_mv (s : State) (n : Nat) (f : Barrier → Barrier) : (s.updBar n f).mv = s.mv := rfl
@[simp] theorem State.updBar_cpl (s : State) (n : Nat) (f : Barrier → Barrier) : (s.updBar n f).cpl = s.cpl := rfl
@[simp] theorem State.updBar_mbx (s : State) (n : Nat) (f : Barrier → Barrier) : (s.updBar n f).mbx = s.mbx := rfl
@[simp] theorem State.updBar_tmr (s : State) (n : Nat) (f : Barrier → Barrier) : (s.updBar n f).tmr = s.tmr := rfl
@[simp] theorem State.updBar_psv (s : State) (n : Nat) (f : Barrier → Barrier) : (s.updBar n f).psv = s.psv := rfl
@[simp] theorem State.updBar_hpc (s : State) (n : Nat) (f : Barrier → Barrier) : (s.updBar n f).hpc = s.hpc := rfl
@[simp] theorem State.updBar_field (s : State) (n : Nat) (f : Barrier → Barrier) : (s.updBar n f).field = s.field := rfl
@[simp] theorem State.updBar_lpc (s : State) (n : Nat) (f : Barrier → Barrier) : (s.updBar n f).lpc = s.lpc := rfl
@[simp] theorem State.updBar_mgp (s : State) (n : Nat) (f : Barrier → Barrier) : (s.updBar n f).mgp = s.mgp := rfl
@[simp] theorem State.updBar_fcs (s : State) (n : Nat) (f : Barrier → Barrier) : (s.updBar n f).fcs = s.fcs := rfl
@[simp] theorem State.updBar_tru (s : State) (n : Nat) (f : Barrier → Barrier) : (s.updBar n f).tru = s.tru := rfl
@[simp] theorem State.updBar_otp (s : State) (n : Nat) (f : Barrier → Barrier) : (s.updBar n f).otp = s.otp := rfl
@[simp] theorem State.updBar_top (s : State) (n : Nat) (f : Barrier → Barrier) : (s.updBar n f).top = s.top := rfl
@[simp] theorem State.updBar_tick (s : State) (n : Nat) (f : Barrier → Barrier) : (s.updBar n f).tick = s.tick := rfl
@[simp] theorem State.updBar_free (s : State) (n : Nat) (f : Barrier → Barrier) : (s.updBar n f).free = s.free := rfl
@[simp] theorem State.updBar_out (s : State) (n : Nat) (f : Barrier → Barrier) : (s.updBar n f).out = s.out := rfl
@[simp] theorem State.updBar_pending (s : State) (n : Nat) (f : Barrier → Barrier) : (s.updBar n f).pending = s.pending := rfl

/-! ## `updMover` changes `mv` alone. -/

@[simp] theorem State.updMover_yard (s : State) (n : Nat) (f : Mover → Mover) : (s.updMover n f).yard = s.yard := rfl
@[simp] theorem State.updMover_eng (s : State) (n : Nat) (f : Mover → Mover) : (s.updMover n f).eng = s.eng := rfl
@[simp] theorem State.updMover_qe (s : State) (n : Nat) (f : Mover → Mover) : (s.updMover n f).qe = s.qe := rfl
@[simp] theorem State.updMover_lq (s : State) (n : Nat) (f : Mover → Mover) : (s.updMover n f).lq = s.lq := rfl
@[simp] theorem State.updMover_mm (s : State) (n : Nat) (f : Mover → Mover) : (s.updMover n f).mm = s.mm := rfl
@[simp] theorem State.updMover_fc (s : State) (n : Nat) (f : Mover → Mover) : (s.updMover n f).fc = s.fc := rfl
@[simp] theorem State.updMover_sch (s : State) (n : Nat) (f : Mover → Mover) : (s.updMover n f).sch = s.sch := rfl
@[simp] theorem State.updMover_cpl (s : State) (n : Nat) (f : Mover → Mover) : (s.updMover n f).cpl = s.cpl := rfl
@[simp] theorem State.updMover_mbx (s : State) (n : Nat) (f : Mover → Mover) : (s.updMover n f).mbx = s.mbx := rfl
@[simp] theorem State.updMover_tmr (s : State) (n : Nat) (f : Mover → Mover) : (s.updMover n f).tmr = s.tmr := rfl
@[simp] theorem State.updMover_psv (s : State) (n : Nat) (f : Mover → Mover) : (s.updMover n f).psv = s.psv := rfl
@[simp] theorem State.updMover_hpc (s : State) (n : Nat) (f : Mover → Mover) : (s.updMover n f).hpc = s.hpc := rfl
@[simp] theorem State.updMover_field (s : State) (n : Nat) (f : Mover → Mover) : (s.updMover n f).field = s.field := rfl
@[simp] theorem State.updMover_lpc (s : State) (n : Nat) (f : Mover → Mover) : (s.updMover n f).lpc = s.lpc := rfl
@[simp] theorem State.updMover_mgp (s : State) (n : Nat) (f : Mover → Mover) : (s.updMover n f).mgp = s.mgp := rfl
@[simp] theorem State.updMover_fcs (s : State) (n : Nat) (f : Mover → Mover) : (s.updMover n f).fcs = s.fcs := rfl
@[simp] theorem State.updMover_tru (s : State) (n : Nat) (f : Mover → Mover) : (s.updMover n f).tru = s.tru := rfl
@[simp] theorem State.updMover_otp (s : State) (n : Nat) (f : Mover → Mover) : (s.updMover n f).otp = s.otp := rfl
@[simp] theorem State.updMover_top (s : State) (n : Nat) (f : Mover → Mover) : (s.updMover n f).top = s.top := rfl
@[simp] theorem State.updMover_tick (s : State) (n : Nat) (f : Mover → Mover) : (s.updMover n f).tick = s.tick := rfl
@[simp] theorem State.updMover_free (s : State) (n : Nat) (f : Mover → Mover) : (s.updMover n f).free = s.free := rfl
@[simp] theorem State.updMover_out (s : State) (n : Nat) (f : Mover → Mover) : (s.updMover n f).out = s.out := rfl
@[simp] theorem State.updMover_pending (s : State) (n : Nat) (f : Mover → Mover) : (s.updMover n f).pending = s.pending := rfl

/-! ## `updCpq` changes `cpl` alone. -/

@[simp] theorem State.updCpq_yard (s : State) (n : Nat) (f : CQueue → CQueue) : (s.updCpq n f).yard = s.yard := rfl
@[simp] theorem State.updCpq_eng (s : State) (n : Nat) (f : CQueue → CQueue) : (s.updCpq n f).eng = s.eng := rfl
@[simp] theorem State.updCpq_qe (s : State) (n : Nat) (f : CQueue → CQueue) : (s.updCpq n f).qe = s.qe := rfl
@[simp] theorem State.updCpq_lq (s : State) (n : Nat) (f : CQueue → CQueue) : (s.updCpq n f).lq = s.lq := rfl
@[simp] theorem State.updCpq_mm (s : State) (n : Nat) (f : CQueue → CQueue) : (s.updCpq n f).mm = s.mm := rfl
@[simp] theorem State.updCpq_fc (s : State) (n : Nat) (f : CQueue → CQueue) : (s.updCpq n f).fc = s.fc := rfl
@[simp] theorem State.updCpq_sch (s : State) (n : Nat) (f : CQueue → CQueue) : (s.updCpq n f).sch = s.sch := rfl
@[simp] theorem State.updCpq_mv (s : State) (n : Nat) (f : CQueue → CQueue) : (s.updCpq n f).mv = s.mv := rfl
@[simp] theorem State.updCpq_mbx (s : State) (n : Nat) (f : CQueue → CQueue) : (s.updCpq n f).mbx = s.mbx := rfl
@[simp] theorem State.updCpq_tmr (s : State) (n : Nat) (f : CQueue → CQueue) : (s.updCpq n f).tmr = s.tmr := rfl
@[simp] theorem State.updCpq_psv (s : State) (n : Nat) (f : CQueue → CQueue) : (s.updCpq n f).psv = s.psv := rfl
@[simp] theorem State.updCpq_hpc (s : State) (n : Nat) (f : CQueue → CQueue) : (s.updCpq n f).hpc = s.hpc := rfl
@[simp] theorem State.updCpq_field (s : State) (n : Nat) (f : CQueue → CQueue) : (s.updCpq n f).field = s.field := rfl
@[simp] theorem State.updCpq_lpc (s : State) (n : Nat) (f : CQueue → CQueue) : (s.updCpq n f).lpc = s.lpc := rfl
@[simp] theorem State.updCpq_mgp (s : State) (n : Nat) (f : CQueue → CQueue) : (s.updCpq n f).mgp = s.mgp := rfl
@[simp] theorem State.updCpq_fcs (s : State) (n : Nat) (f : CQueue → CQueue) : (s.updCpq n f).fcs = s.fcs := rfl
@[simp] theorem State.updCpq_tru (s : State) (n : Nat) (f : CQueue → CQueue) : (s.updCpq n f).tru = s.tru := rfl
@[simp] theorem State.updCpq_otp (s : State) (n : Nat) (f : CQueue → CQueue) : (s.updCpq n f).otp = s.otp := rfl
@[simp] theorem State.updCpq_top (s : State) (n : Nat) (f : CQueue → CQueue) : (s.updCpq n f).top = s.top := rfl
@[simp] theorem State.updCpq_tick (s : State) (n : Nat) (f : CQueue → CQueue) : (s.updCpq n f).tick = s.tick := rfl
@[simp] theorem State.updCpq_free (s : State) (n : Nat) (f : CQueue → CQueue) : (s.updCpq n f).free = s.free := rfl
@[simp] theorem State.updCpq_out (s : State) (n : Nat) (f : CQueue → CQueue) : (s.updCpq n f).out = s.out := rfl
@[simp] theorem State.updCpq_pending (s : State) (n : Nat) (f : CQueue → CQueue) : (s.updCpq n f).pending = s.pending := rfl

/-! ## `updMchan` changes `mbx` alone. -/

@[simp] theorem State.updMchan_yard (s : State) (n : Nat) (f : MChan → MChan) : (s.updMchan n f).yard = s.yard := rfl
@[simp] theorem State.updMchan_eng (s : State) (n : Nat) (f : MChan → MChan) : (s.updMchan n f).eng = s.eng := rfl
@[simp] theorem State.updMchan_qe (s : State) (n : Nat) (f : MChan → MChan) : (s.updMchan n f).qe = s.qe := rfl
@[simp] theorem State.updMchan_lq (s : State) (n : Nat) (f : MChan → MChan) : (s.updMchan n f).lq = s.lq := rfl
@[simp] theorem State.updMchan_mm (s : State) (n : Nat) (f : MChan → MChan) : (s.updMchan n f).mm = s.mm := rfl
@[simp] theorem State.updMchan_fc (s : State) (n : Nat) (f : MChan → MChan) : (s.updMchan n f).fc = s.fc := rfl
@[simp] theorem State.updMchan_sch (s : State) (n : Nat) (f : MChan → MChan) : (s.updMchan n f).sch = s.sch := rfl
@[simp] theorem State.updMchan_mv (s : State) (n : Nat) (f : MChan → MChan) : (s.updMchan n f).mv = s.mv := rfl
@[simp] theorem State.updMchan_cpl (s : State) (n : Nat) (f : MChan → MChan) : (s.updMchan n f).cpl = s.cpl := rfl
@[simp] theorem State.updMchan_tmr (s : State) (n : Nat) (f : MChan → MChan) : (s.updMchan n f).tmr = s.tmr := rfl
@[simp] theorem State.updMchan_psv (s : State) (n : Nat) (f : MChan → MChan) : (s.updMchan n f).psv = s.psv := rfl
@[simp] theorem State.updMchan_hpc (s : State) (n : Nat) (f : MChan → MChan) : (s.updMchan n f).hpc = s.hpc := rfl
@[simp] theorem State.updMchan_field (s : State) (n : Nat) (f : MChan → MChan) : (s.updMchan n f).field = s.field := rfl
@[simp] theorem State.updMchan_lpc (s : State) (n : Nat) (f : MChan → MChan) : (s.updMchan n f).lpc = s.lpc := rfl
@[simp] theorem State.updMchan_mgp (s : State) (n : Nat) (f : MChan → MChan) : (s.updMchan n f).mgp = s.mgp := rfl
@[simp] theorem State.updMchan_fcs (s : State) (n : Nat) (f : MChan → MChan) : (s.updMchan n f).fcs = s.fcs := rfl
@[simp] theorem State.updMchan_tru (s : State) (n : Nat) (f : MChan → MChan) : (s.updMchan n f).tru = s.tru := rfl
@[simp] theorem State.updMchan_otp (s : State) (n : Nat) (f : MChan → MChan) : (s.updMchan n f).otp = s.otp := rfl
@[simp] theorem State.updMchan_top (s : State) (n : Nat) (f : MChan → MChan) : (s.updMchan n f).top = s.top := rfl
@[simp] theorem State.updMchan_tick (s : State) (n : Nat) (f : MChan → MChan) : (s.updMchan n f).tick = s.tick := rfl
@[simp] theorem State.updMchan_free (s : State) (n : Nat) (f : MChan → MChan) : (s.updMchan n f).free = s.free := rfl
@[simp] theorem State.updMchan_out (s : State) (n : Nat) (f : MChan → MChan) : (s.updMchan n f).out = s.out := rfl
@[simp] theorem State.updMchan_pending (s : State) (n : Nat) (f : MChan → MChan) : (s.updMchan n f).pending = s.pending := rfl

/-! ## `updTimer` changes `tmr` alone. -/

@[simp] theorem State.updTimer_yard (s : State) (n : Nat) (f : Timer → Timer) : (s.updTimer n f).yard = s.yard := rfl
@[simp] theorem State.updTimer_eng (s : State) (n : Nat) (f : Timer → Timer) : (s.updTimer n f).eng = s.eng := rfl
@[simp] theorem State.updTimer_qe (s : State) (n : Nat) (f : Timer → Timer) : (s.updTimer n f).qe = s.qe := rfl
@[simp] theorem State.updTimer_lq (s : State) (n : Nat) (f : Timer → Timer) : (s.updTimer n f).lq = s.lq := rfl
@[simp] theorem State.updTimer_mm (s : State) (n : Nat) (f : Timer → Timer) : (s.updTimer n f).mm = s.mm := rfl
@[simp] theorem State.updTimer_fc (s : State) (n : Nat) (f : Timer → Timer) : (s.updTimer n f).fc = s.fc := rfl
@[simp] theorem State.updTimer_sch (s : State) (n : Nat) (f : Timer → Timer) : (s.updTimer n f).sch = s.sch := rfl
@[simp] theorem State.updTimer_mv (s : State) (n : Nat) (f : Timer → Timer) : (s.updTimer n f).mv = s.mv := rfl
@[simp] theorem State.updTimer_cpl (s : State) (n : Nat) (f : Timer → Timer) : (s.updTimer n f).cpl = s.cpl := rfl
@[simp] theorem State.updTimer_mbx (s : State) (n : Nat) (f : Timer → Timer) : (s.updTimer n f).mbx = s.mbx := rfl
@[simp] theorem State.updTimer_psv (s : State) (n : Nat) (f : Timer → Timer) : (s.updTimer n f).psv = s.psv := rfl
@[simp] theorem State.updTimer_hpc (s : State) (n : Nat) (f : Timer → Timer) : (s.updTimer n f).hpc = s.hpc := rfl
@[simp] theorem State.updTimer_field (s : State) (n : Nat) (f : Timer → Timer) : (s.updTimer n f).field = s.field := rfl
@[simp] theorem State.updTimer_lpc (s : State) (n : Nat) (f : Timer → Timer) : (s.updTimer n f).lpc = s.lpc := rfl
@[simp] theorem State.updTimer_mgp (s : State) (n : Nat) (f : Timer → Timer) : (s.updTimer n f).mgp = s.mgp := rfl
@[simp] theorem State.updTimer_fcs (s : State) (n : Nat) (f : Timer → Timer) : (s.updTimer n f).fcs = s.fcs := rfl
@[simp] theorem State.updTimer_tru (s : State) (n : Nat) (f : Timer → Timer) : (s.updTimer n f).tru = s.tru := rfl
@[simp] theorem State.updTimer_otp (s : State) (n : Nat) (f : Timer → Timer) : (s.updTimer n f).otp = s.otp := rfl
@[simp] theorem State.updTimer_top (s : State) (n : Nat) (f : Timer → Timer) : (s.updTimer n f).top = s.top := rfl
@[simp] theorem State.updTimer_tick (s : State) (n : Nat) (f : Timer → Timer) : (s.updTimer n f).tick = s.tick := rfl
@[simp] theorem State.updTimer_free (s : State) (n : Nat) (f : Timer → Timer) : (s.updTimer n f).free = s.free := rfl
@[simp] theorem State.updTimer_out (s : State) (n : Nat) (f : Timer → Timer) : (s.updTimer n f).out = s.out := rfl
@[simp] theorem State.updTimer_pending (s : State) (n : Nat) (f : Timer → Timer) : (s.updTimer n f).pending = s.pending := rfl

/-! ## `updHfn` changes `hpc` alone. -/

@[simp] theorem State.updHfn_yard (s : State) (n : Nat) (f : Fn → Fn) : (s.updHfn n f).yard = s.yard := rfl
@[simp] theorem State.updHfn_eng (s : State) (n : Nat) (f : Fn → Fn) : (s.updHfn n f).eng = s.eng := rfl
@[simp] theorem State.updHfn_qe (s : State) (n : Nat) (f : Fn → Fn) : (s.updHfn n f).qe = s.qe := rfl
@[simp] theorem State.updHfn_lq (s : State) (n : Nat) (f : Fn → Fn) : (s.updHfn n f).lq = s.lq := rfl
@[simp] theorem State.updHfn_mm (s : State) (n : Nat) (f : Fn → Fn) : (s.updHfn n f).mm = s.mm := rfl
@[simp] theorem State.updHfn_fc (s : State) (n : Nat) (f : Fn → Fn) : (s.updHfn n f).fc = s.fc := rfl
@[simp] theorem State.updHfn_sch (s : State) (n : Nat) (f : Fn → Fn) : (s.updHfn n f).sch = s.sch := rfl
@[simp] theorem State.updHfn_mv (s : State) (n : Nat) (f : Fn → Fn) : (s.updHfn n f).mv = s.mv := rfl
@[simp] theorem State.updHfn_cpl (s : State) (n : Nat) (f : Fn → Fn) : (s.updHfn n f).cpl = s.cpl := rfl
@[simp] theorem State.updHfn_mbx (s : State) (n : Nat) (f : Fn → Fn) : (s.updHfn n f).mbx = s.mbx := rfl
@[simp] theorem State.updHfn_tmr (s : State) (n : Nat) (f : Fn → Fn) : (s.updHfn n f).tmr = s.tmr := rfl
@[simp] theorem State.updHfn_psv (s : State) (n : Nat) (f : Fn → Fn) : (s.updHfn n f).psv = s.psv := rfl
@[simp] theorem State.updHfn_field (s : State) (n : Nat) (f : Fn → Fn) : (s.updHfn n f).field = s.field := rfl
@[simp] theorem State.updHfn_lpc (s : State) (n : Nat) (f : Fn → Fn) : (s.updHfn n f).lpc = s.lpc := rfl
@[simp] theorem State.updHfn_mgp (s : State) (n : Nat) (f : Fn → Fn) : (s.updHfn n f).mgp = s.mgp := rfl
@[simp] theorem State.updHfn_fcs (s : State) (n : Nat) (f : Fn → Fn) : (s.updHfn n f).fcs = s.fcs := rfl
@[simp] theorem State.updHfn_tru (s : State) (n : Nat) (f : Fn → Fn) : (s.updHfn n f).tru = s.tru := rfl
@[simp] theorem State.updHfn_otp (s : State) (n : Nat) (f : Fn → Fn) : (s.updHfn n f).otp = s.otp := rfl
@[simp] theorem State.updHfn_top (s : State) (n : Nat) (f : Fn → Fn) : (s.updHfn n f).top = s.top := rfl
@[simp] theorem State.updHfn_tick (s : State) (n : Nat) (f : Fn → Fn) : (s.updHfn n f).tick = s.tick := rfl
@[simp] theorem State.updHfn_free (s : State) (n : Nat) (f : Fn → Fn) : (s.updHfn n f).free = s.free := rfl
@[simp] theorem State.updHfn_out (s : State) (n : Nat) (f : Fn → Fn) : (s.updHfn n f).out = s.out := rfl
@[simp] theorem State.updHfn_pending (s : State) (n : Nat) (f : Fn → Fn) : (s.updHfn n f).pending = s.pending := rfl

/-! ## `updHport` changes `hpc` alone. -/

@[simp] theorem State.updHport_yard (s : State) (n : Nat) (f : HPort → HPort) : (s.updHport n f).yard = s.yard := rfl
@[simp] theorem State.updHport_eng (s : State) (n : Nat) (f : HPort → HPort) : (s.updHport n f).eng = s.eng := rfl
@[simp] theorem State.updHport_qe (s : State) (n : Nat) (f : HPort → HPort) : (s.updHport n f).qe = s.qe := rfl
@[simp] theorem State.updHport_lq (s : State) (n : Nat) (f : HPort → HPort) : (s.updHport n f).lq = s.lq := rfl
@[simp] theorem State.updHport_mm (s : State) (n : Nat) (f : HPort → HPort) : (s.updHport n f).mm = s.mm := rfl
@[simp] theorem State.updHport_fc (s : State) (n : Nat) (f : HPort → HPort) : (s.updHport n f).fc = s.fc := rfl
@[simp] theorem State.updHport_sch (s : State) (n : Nat) (f : HPort → HPort) : (s.updHport n f).sch = s.sch := rfl
@[simp] theorem State.updHport_mv (s : State) (n : Nat) (f : HPort → HPort) : (s.updHport n f).mv = s.mv := rfl
@[simp] theorem State.updHport_cpl (s : State) (n : Nat) (f : HPort → HPort) : (s.updHport n f).cpl = s.cpl := rfl
@[simp] theorem State.updHport_mbx (s : State) (n : Nat) (f : HPort → HPort) : (s.updHport n f).mbx = s.mbx := rfl
@[simp] theorem State.updHport_tmr (s : State) (n : Nat) (f : HPort → HPort) : (s.updHport n f).tmr = s.tmr := rfl
@[simp] theorem State.updHport_psv (s : State) (n : Nat) (f : HPort → HPort) : (s.updHport n f).psv = s.psv := rfl
@[simp] theorem State.updHport_field (s : State) (n : Nat) (f : HPort → HPort) : (s.updHport n f).field = s.field := rfl
@[simp] theorem State.updHport_lpc (s : State) (n : Nat) (f : HPort → HPort) : (s.updHport n f).lpc = s.lpc := rfl
@[simp] theorem State.updHport_mgp (s : State) (n : Nat) (f : HPort → HPort) : (s.updHport n f).mgp = s.mgp := rfl
@[simp] theorem State.updHport_fcs (s : State) (n : Nat) (f : HPort → HPort) : (s.updHport n f).fcs = s.fcs := rfl
@[simp] theorem State.updHport_tru (s : State) (n : Nat) (f : HPort → HPort) : (s.updHport n f).tru = s.tru := rfl
@[simp] theorem State.updHport_otp (s : State) (n : Nat) (f : HPort → HPort) : (s.updHport n f).otp = s.otp := rfl
@[simp] theorem State.updHport_top (s : State) (n : Nat) (f : HPort → HPort) : (s.updHport n f).top = s.top := rfl
@[simp] theorem State.updHport_tick (s : State) (n : Nat) (f : HPort → HPort) : (s.updHport n f).tick = s.tick := rfl
@[simp] theorem State.updHport_free (s : State) (n : Nat) (f : HPort → HPort) : (s.updHport n f).free = s.free := rfl
@[simp] theorem State.updHport_out (s : State) (n : Nat) (f : HPort → HPort) : (s.updHport n f).out = s.out := rfl
@[simp] theorem State.updHport_pending (s : State) (n : Nat) (f : HPort → HPort) : (s.updHport n f).pending = s.pending := rfl

/-! ## `updFport` changes `field` alone. -/

@[simp] theorem State.updFport_yard (s : State) (n : Nat) (f : FPort → FPort) : (s.updFport n f).yard = s.yard := rfl
@[simp] theorem State.updFport_eng (s : State) (n : Nat) (f : FPort → FPort) : (s.updFport n f).eng = s.eng := rfl
@[simp] theorem State.updFport_qe (s : State) (n : Nat) (f : FPort → FPort) : (s.updFport n f).qe = s.qe := rfl
@[simp] theorem State.updFport_lq (s : State) (n : Nat) (f : FPort → FPort) : (s.updFport n f).lq = s.lq := rfl
@[simp] theorem State.updFport_mm (s : State) (n : Nat) (f : FPort → FPort) : (s.updFport n f).mm = s.mm := rfl
@[simp] theorem State.updFport_fc (s : State) (n : Nat) (f : FPort → FPort) : (s.updFport n f).fc = s.fc := rfl
@[simp] theorem State.updFport_sch (s : State) (n : Nat) (f : FPort → FPort) : (s.updFport n f).sch = s.sch := rfl
@[simp] theorem State.updFport_mv (s : State) (n : Nat) (f : FPort → FPort) : (s.updFport n f).mv = s.mv := rfl
@[simp] theorem State.updFport_cpl (s : State) (n : Nat) (f : FPort → FPort) : (s.updFport n f).cpl = s.cpl := rfl
@[simp] theorem State.updFport_mbx (s : State) (n : Nat) (f : FPort → FPort) : (s.updFport n f).mbx = s.mbx := rfl
@[simp] theorem State.updFport_tmr (s : State) (n : Nat) (f : FPort → FPort) : (s.updFport n f).tmr = s.tmr := rfl
@[simp] theorem State.updFport_psv (s : State) (n : Nat) (f : FPort → FPort) : (s.updFport n f).psv = s.psv := rfl
@[simp] theorem State.updFport_hpc (s : State) (n : Nat) (f : FPort → FPort) : (s.updFport n f).hpc = s.hpc := rfl
@[simp] theorem State.updFport_lpc (s : State) (n : Nat) (f : FPort → FPort) : (s.updFport n f).lpc = s.lpc := rfl
@[simp] theorem State.updFport_mgp (s : State) (n : Nat) (f : FPort → FPort) : (s.updFport n f).mgp = s.mgp := rfl
@[simp] theorem State.updFport_fcs (s : State) (n : Nat) (f : FPort → FPort) : (s.updFport n f).fcs = s.fcs := rfl
@[simp] theorem State.updFport_tru (s : State) (n : Nat) (f : FPort → FPort) : (s.updFport n f).tru = s.tru := rfl
@[simp] theorem State.updFport_otp (s : State) (n : Nat) (f : FPort → FPort) : (s.updFport n f).otp = s.otp := rfl
@[simp] theorem State.updFport_top (s : State) (n : Nat) (f : FPort → FPort) : (s.updFport n f).top = s.top := rfl
@[simp] theorem State.updFport_tick (s : State) (n : Nat) (f : FPort → FPort) : (s.updFport n f).tick = s.tick := rfl
@[simp] theorem State.updFport_free (s : State) (n : Nat) (f : FPort → FPort) : (s.updFport n f).free = s.free := rfl
@[simp] theorem State.updFport_out (s : State) (n : Nat) (f : FPort → FPort) : (s.updFport n f).out = s.out := rfl
@[simp] theorem State.updFport_pending (s : State) (n : Nat) (f : FPort → FPort) : (s.updFport n f).pending = s.pending := rfl

/-! ## `updXt` changes `lpc` alone. -/

@[simp] theorem State.updXt_yard (s : State) (n : Nat) (f : Xt → Xt) : (s.updXt n f).yard = s.yard := rfl
@[simp] theorem State.updXt_eng (s : State) (n : Nat) (f : Xt → Xt) : (s.updXt n f).eng = s.eng := rfl
@[simp] theorem State.updXt_qe (s : State) (n : Nat) (f : Xt → Xt) : (s.updXt n f).qe = s.qe := rfl
@[simp] theorem State.updXt_lq (s : State) (n : Nat) (f : Xt → Xt) : (s.updXt n f).lq = s.lq := rfl
@[simp] theorem State.updXt_mm (s : State) (n : Nat) (f : Xt → Xt) : (s.updXt n f).mm = s.mm := rfl
@[simp] theorem State.updXt_fc (s : State) (n : Nat) (f : Xt → Xt) : (s.updXt n f).fc = s.fc := rfl
@[simp] theorem State.updXt_sch (s : State) (n : Nat) (f : Xt → Xt) : (s.updXt n f).sch = s.sch := rfl
@[simp] theorem State.updXt_mv (s : State) (n : Nat) (f : Xt → Xt) : (s.updXt n f).mv = s.mv := rfl
@[simp] theorem State.updXt_cpl (s : State) (n : Nat) (f : Xt → Xt) : (s.updXt n f).cpl = s.cpl := rfl
@[simp] theorem State.updXt_mbx (s : State) (n : Nat) (f : Xt → Xt) : (s.updXt n f).mbx = s.mbx := rfl
@[simp] theorem State.updXt_tmr (s : State) (n : Nat) (f : Xt → Xt) : (s.updXt n f).tmr = s.tmr := rfl
@[simp] theorem State.updXt_psv (s : State) (n : Nat) (f : Xt → Xt) : (s.updXt n f).psv = s.psv := rfl
@[simp] theorem State.updXt_hpc (s : State) (n : Nat) (f : Xt → Xt) : (s.updXt n f).hpc = s.hpc := rfl
@[simp] theorem State.updXt_field (s : State) (n : Nat) (f : Xt → Xt) : (s.updXt n f).field = s.field := rfl
@[simp] theorem State.updXt_mgp (s : State) (n : Nat) (f : Xt → Xt) : (s.updXt n f).mgp = s.mgp := rfl
@[simp] theorem State.updXt_fcs (s : State) (n : Nat) (f : Xt → Xt) : (s.updXt n f).fcs = s.fcs := rfl
@[simp] theorem State.updXt_tru (s : State) (n : Nat) (f : Xt → Xt) : (s.updXt n f).tru = s.tru := rfl
@[simp] theorem State.updXt_otp (s : State) (n : Nat) (f : Xt → Xt) : (s.updXt n f).otp = s.otp := rfl
@[simp] theorem State.updXt_top (s : State) (n : Nat) (f : Xt → Xt) : (s.updXt n f).top = s.top := rfl
@[simp] theorem State.updXt_tick (s : State) (n : Nat) (f : Xt → Xt) : (s.updXt n f).tick = s.tick := rfl
@[simp] theorem State.updXt_free (s : State) (n : Nat) (f : Xt → Xt) : (s.updXt n f).free = s.free := rfl
@[simp] theorem State.updXt_out (s : State) (n : Nat) (f : Xt → Xt) : (s.updXt n f).out = s.out := rfl
@[simp] theorem State.updXt_pending (s : State) (n : Nat) (f : Xt → Xt) : (s.updXt n f).pending = s.pending := rfl

/-! ## `updDreq` changes `lpc` alone. -/

@[simp] theorem State.updDreq_yard (s : State) (n : Nat) (f : Dreq → Dreq) : (s.updDreq n f).yard = s.yard := rfl
@[simp] theorem State.updDreq_eng (s : State) (n : Nat) (f : Dreq → Dreq) : (s.updDreq n f).eng = s.eng := rfl
@[simp] theorem State.updDreq_qe (s : State) (n : Nat) (f : Dreq → Dreq) : (s.updDreq n f).qe = s.qe := rfl
@[simp] theorem State.updDreq_lq (s : State) (n : Nat) (f : Dreq → Dreq) : (s.updDreq n f).lq = s.lq := rfl
@[simp] theorem State.updDreq_mm (s : State) (n : Nat) (f : Dreq → Dreq) : (s.updDreq n f).mm = s.mm := rfl
@[simp] theorem State.updDreq_fc (s : State) (n : Nat) (f : Dreq → Dreq) : (s.updDreq n f).fc = s.fc := rfl
@[simp] theorem State.updDreq_sch (s : State) (n : Nat) (f : Dreq → Dreq) : (s.updDreq n f).sch = s.sch := rfl
@[simp] theorem State.updDreq_mv (s : State) (n : Nat) (f : Dreq → Dreq) : (s.updDreq n f).mv = s.mv := rfl
@[simp] theorem State.updDreq_cpl (s : State) (n : Nat) (f : Dreq → Dreq) : (s.updDreq n f).cpl = s.cpl := rfl
@[simp] theorem State.updDreq_mbx (s : State) (n : Nat) (f : Dreq → Dreq) : (s.updDreq n f).mbx = s.mbx := rfl
@[simp] theorem State.updDreq_tmr (s : State) (n : Nat) (f : Dreq → Dreq) : (s.updDreq n f).tmr = s.tmr := rfl
@[simp] theorem State.updDreq_psv (s : State) (n : Nat) (f : Dreq → Dreq) : (s.updDreq n f).psv = s.psv := rfl
@[simp] theorem State.updDreq_hpc (s : State) (n : Nat) (f : Dreq → Dreq) : (s.updDreq n f).hpc = s.hpc := rfl
@[simp] theorem State.updDreq_field (s : State) (n : Nat) (f : Dreq → Dreq) : (s.updDreq n f).field = s.field := rfl
@[simp] theorem State.updDreq_mgp (s : State) (n : Nat) (f : Dreq → Dreq) : (s.updDreq n f).mgp = s.mgp := rfl
@[simp] theorem State.updDreq_fcs (s : State) (n : Nat) (f : Dreq → Dreq) : (s.updDreq n f).fcs = s.fcs := rfl
@[simp] theorem State.updDreq_tru (s : State) (n : Nat) (f : Dreq → Dreq) : (s.updDreq n f).tru = s.tru := rfl
@[simp] theorem State.updDreq_otp (s : State) (n : Nat) (f : Dreq → Dreq) : (s.updDreq n f).otp = s.otp := rfl
@[simp] theorem State.updDreq_top (s : State) (n : Nat) (f : Dreq → Dreq) : (s.updDreq n f).top = s.top := rfl
@[simp] theorem State.updDreq_tick (s : State) (n : Nat) (f : Dreq → Dreq) : (s.updDreq n f).tick = s.tick := rfl
@[simp] theorem State.updDreq_free (s : State) (n : Nat) (f : Dreq → Dreq) : (s.updDreq n f).free = s.free := rfl
@[simp] theorem State.updDreq_out (s : State) (n : Nat) (f : Dreq → Dreq) : (s.updDreq n f).out = s.out := rfl
@[simp] theorem State.updDreq_pending (s : State) (n : Nat) (f : Dreq → Dreq) : (s.updDreq n f).pending = s.pending := rfl

/-! ## `updUart` changes `lpc` alone. -/

@[simp] theorem State.updUart_yard (s : State) (n : Nat) (f : Uart → Uart) : (s.updUart n f).yard = s.yard := rfl
@[simp] theorem State.updUart_eng (s : State) (n : Nat) (f : Uart → Uart) : (s.updUart n f).eng = s.eng := rfl
@[simp] theorem State.updUart_qe (s : State) (n : Nat) (f : Uart → Uart) : (s.updUart n f).qe = s.qe := rfl
@[simp] theorem State.updUart_lq (s : State) (n : Nat) (f : Uart → Uart) : (s.updUart n f).lq = s.lq := rfl
@[simp] theorem State.updUart_mm (s : State) (n : Nat) (f : Uart → Uart) : (s.updUart n f).mm = s.mm := rfl
@[simp] theorem State.updUart_fc (s : State) (n : Nat) (f : Uart → Uart) : (s.updUart n f).fc = s.fc := rfl
@[simp] theorem State.updUart_sch (s : State) (n : Nat) (f : Uart → Uart) : (s.updUart n f).sch = s.sch := rfl
@[simp] theorem State.updUart_mv (s : State) (n : Nat) (f : Uart → Uart) : (s.updUart n f).mv = s.mv := rfl
@[simp] theorem State.updUart_cpl (s : State) (n : Nat) (f : Uart → Uart) : (s.updUart n f).cpl = s.cpl := rfl
@[simp] theorem State.updUart_mbx (s : State) (n : Nat) (f : Uart → Uart) : (s.updUart n f).mbx = s.mbx := rfl
@[simp] theorem State.updUart_tmr (s : State) (n : Nat) (f : Uart → Uart) : (s.updUart n f).tmr = s.tmr := rfl
@[simp] theorem State.updUart_psv (s : State) (n : Nat) (f : Uart → Uart) : (s.updUart n f).psv = s.psv := rfl
@[simp] theorem State.updUart_hpc (s : State) (n : Nat) (f : Uart → Uart) : (s.updUart n f).hpc = s.hpc := rfl
@[simp] theorem State.updUart_field (s : State) (n : Nat) (f : Uart → Uart) : (s.updUart n f).field = s.field := rfl
@[simp] theorem State.updUart_mgp (s : State) (n : Nat) (f : Uart → Uart) : (s.updUart n f).mgp = s.mgp := rfl
@[simp] theorem State.updUart_fcs (s : State) (n : Nat) (f : Uart → Uart) : (s.updUart n f).fcs = s.fcs := rfl
@[simp] theorem State.updUart_tru (s : State) (n : Nat) (f : Uart → Uart) : (s.updUart n f).tru = s.tru := rfl
@[simp] theorem State.updUart_otp (s : State) (n : Nat) (f : Uart → Uart) : (s.updUart n f).otp = s.otp := rfl
@[simp] theorem State.updUart_top (s : State) (n : Nat) (f : Uart → Uart) : (s.updUart n f).top = s.top := rfl
@[simp] theorem State.updUart_tick (s : State) (n : Nat) (f : Uart → Uart) : (s.updUart n f).tick = s.tick := rfl
@[simp] theorem State.updUart_free (s : State) (n : Nat) (f : Uart → Uart) : (s.updUart n f).free = s.free := rfl
@[simp] theorem State.updUart_out (s : State) (n : Nat) (f : Uart → Uart) : (s.updUart n f).out = s.out := rfl
@[simp] theorem State.updUart_pending (s : State) (n : Nat) (f : Uart → Uart) : (s.updUart n f).pending = s.pending := rfl

/-! ## `updChan` changes `fc` alone. -/

@[simp] theorem State.updChan_yard (s : State) (n : Nat) (f : Chan → Chan) : (s.updChan n f).yard = s.yard := rfl
@[simp] theorem State.updChan_eng (s : State) (n : Nat) (f : Chan → Chan) : (s.updChan n f).eng = s.eng := rfl
@[simp] theorem State.updChan_qe (s : State) (n : Nat) (f : Chan → Chan) : (s.updChan n f).qe = s.qe := rfl
@[simp] theorem State.updChan_lq (s : State) (n : Nat) (f : Chan → Chan) : (s.updChan n f).lq = s.lq := rfl
@[simp] theorem State.updChan_mm (s : State) (n : Nat) (f : Chan → Chan) : (s.updChan n f).mm = s.mm := rfl
@[simp] theorem State.updChan_sch (s : State) (n : Nat) (f : Chan → Chan) : (s.updChan n f).sch = s.sch := rfl
@[simp] theorem State.updChan_mv (s : State) (n : Nat) (f : Chan → Chan) : (s.updChan n f).mv = s.mv := rfl
@[simp] theorem State.updChan_cpl (s : State) (n : Nat) (f : Chan → Chan) : (s.updChan n f).cpl = s.cpl := rfl
@[simp] theorem State.updChan_mbx (s : State) (n : Nat) (f : Chan → Chan) : (s.updChan n f).mbx = s.mbx := rfl
@[simp] theorem State.updChan_tmr (s : State) (n : Nat) (f : Chan → Chan) : (s.updChan n f).tmr = s.tmr := rfl
@[simp] theorem State.updChan_psv (s : State) (n : Nat) (f : Chan → Chan) : (s.updChan n f).psv = s.psv := rfl
@[simp] theorem State.updChan_hpc (s : State) (n : Nat) (f : Chan → Chan) : (s.updChan n f).hpc = s.hpc := rfl
@[simp] theorem State.updChan_field (s : State) (n : Nat) (f : Chan → Chan) : (s.updChan n f).field = s.field := rfl
@[simp] theorem State.updChan_lpc (s : State) (n : Nat) (f : Chan → Chan) : (s.updChan n f).lpc = s.lpc := rfl
@[simp] theorem State.updChan_mgp (s : State) (n : Nat) (f : Chan → Chan) : (s.updChan n f).mgp = s.mgp := rfl
@[simp] theorem State.updChan_fcs (s : State) (n : Nat) (f : Chan → Chan) : (s.updChan n f).fcs = s.fcs := rfl
@[simp] theorem State.updChan_tru (s : State) (n : Nat) (f : Chan → Chan) : (s.updChan n f).tru = s.tru := rfl
@[simp] theorem State.updChan_otp (s : State) (n : Nat) (f : Chan → Chan) : (s.updChan n f).otp = s.otp := rfl
@[simp] theorem State.updChan_top (s : State) (n : Nat) (f : Chan → Chan) : (s.updChan n f).top = s.top := rfl
@[simp] theorem State.updChan_tick (s : State) (n : Nat) (f : Chan → Chan) : (s.updChan n f).tick = s.tick := rfl
@[simp] theorem State.updChan_free (s : State) (n : Nat) (f : Chan → Chan) : (s.updChan n f).free = s.free := rfl
@[simp] theorem State.updChan_out (s : State) (n : Nat) (f : Chan → Chan) : (s.updChan n f).out = s.out := rfl
@[simp] theorem State.updChan_pending (s : State) (n : Nat) (f : Chan → Chan) : (s.updChan n f).pending = s.pending := rfl

/-! ## `updLun` changes `fc` alone. -/

@[simp] theorem State.updLun_yard (s : State) (n : Nat) (f : Lun → Lun) : (s.updLun n f).yard = s.yard := rfl
@[simp] theorem State.updLun_eng (s : State) (n : Nat) (f : Lun → Lun) : (s.updLun n f).eng = s.eng := rfl
@[simp] theorem State.updLun_qe (s : State) (n : Nat) (f : Lun → Lun) : (s.updLun n f).qe = s.qe := rfl
@[simp] theorem State.updLun_lq (s : State) (n : Nat) (f : Lun → Lun) : (s.updLun n f).lq = s.lq := rfl
@[simp] theorem State.updLun_mm (s : State) (n : Nat) (f : Lun → Lun) : (s.updLun n f).mm = s.mm := rfl
@[simp] theorem State.updLun_sch (s : State) (n : Nat) (f : Lun → Lun) : (s.updLun n f).sch = s.sch := rfl
@[simp] theorem State.updLun_mv (s : State) (n : Nat) (f : Lun → Lun) : (s.updLun n f).mv = s.mv := rfl
@[simp] theorem State.updLun_cpl (s : State) (n : Nat) (f : Lun → Lun) : (s.updLun n f).cpl = s.cpl := rfl
@[simp] theorem State.updLun_mbx (s : State) (n : Nat) (f : Lun → Lun) : (s.updLun n f).mbx = s.mbx := rfl
@[simp] theorem State.updLun_tmr (s : State) (n : Nat) (f : Lun → Lun) : (s.updLun n f).tmr = s.tmr := rfl
@[simp] theorem State.updLun_psv (s : State) (n : Nat) (f : Lun → Lun) : (s.updLun n f).psv = s.psv := rfl
@[simp] theorem State.updLun_hpc (s : State) (n : Nat) (f : Lun → Lun) : (s.updLun n f).hpc = s.hpc := rfl
@[simp] theorem State.updLun_field (s : State) (n : Nat) (f : Lun → Lun) : (s.updLun n f).field = s.field := rfl
@[simp] theorem State.updLun_lpc (s : State) (n : Nat) (f : Lun → Lun) : (s.updLun n f).lpc = s.lpc := rfl
@[simp] theorem State.updLun_mgp (s : State) (n : Nat) (f : Lun → Lun) : (s.updLun n f).mgp = s.mgp := rfl
@[simp] theorem State.updLun_fcs (s : State) (n : Nat) (f : Lun → Lun) : (s.updLun n f).fcs = s.fcs := rfl
@[simp] theorem State.updLun_tru (s : State) (n : Nat) (f : Lun → Lun) : (s.updLun n f).tru = s.tru := rfl
@[simp] theorem State.updLun_otp (s : State) (n : Nat) (f : Lun → Lun) : (s.updLun n f).otp = s.otp := rfl
@[simp] theorem State.updLun_top (s : State) (n : Nat) (f : Lun → Lun) : (s.updLun n f).top = s.top := rfl
@[simp] theorem State.updLun_tick (s : State) (n : Nat) (f : Lun → Lun) : (s.updLun n f).tick = s.tick := rfl
@[simp] theorem State.updLun_free (s : State) (n : Nat) (f : Lun → Lun) : (s.updLun n f).free = s.free := rfl
@[simp] theorem State.updLun_out (s : State) (n : Nat) (f : Lun → Lun) : (s.updLun n f).out = s.out := rfl
@[simp] theorem State.updLun_pending (s : State) (n : Nat) (f : Lun → Lun) : (s.updLun n f).pending = s.pending := rfl

/-! ## `updTable` changes `sch` alone. -/

@[simp] theorem State.updTable_yard (s : State) (n : Nat) (f : SlotTable → SlotTable) : (s.updTable n f).yard = s.yard := rfl
@[simp] theorem State.updTable_eng (s : State) (n : Nat) (f : SlotTable → SlotTable) : (s.updTable n f).eng = s.eng := rfl
@[simp] theorem State.updTable_qe (s : State) (n : Nat) (f : SlotTable → SlotTable) : (s.updTable n f).qe = s.qe := rfl
@[simp] theorem State.updTable_lq (s : State) (n : Nat) (f : SlotTable → SlotTable) : (s.updTable n f).lq = s.lq := rfl
@[simp] theorem State.updTable_mm (s : State) (n : Nat) (f : SlotTable → SlotTable) : (s.updTable n f).mm = s.mm := rfl
@[simp] theorem State.updTable_fc (s : State) (n : Nat) (f : SlotTable → SlotTable) : (s.updTable n f).fc = s.fc := rfl
@[simp] theorem State.updTable_mv (s : State) (n : Nat) (f : SlotTable → SlotTable) : (s.updTable n f).mv = s.mv := rfl
@[simp] theorem State.updTable_cpl (s : State) (n : Nat) (f : SlotTable → SlotTable) : (s.updTable n f).cpl = s.cpl := rfl
@[simp] theorem State.updTable_mbx (s : State) (n : Nat) (f : SlotTable → SlotTable) : (s.updTable n f).mbx = s.mbx := rfl
@[simp] theorem State.updTable_tmr (s : State) (n : Nat) (f : SlotTable → SlotTable) : (s.updTable n f).tmr = s.tmr := rfl
@[simp] theorem State.updTable_psv (s : State) (n : Nat) (f : SlotTable → SlotTable) : (s.updTable n f).psv = s.psv := rfl
@[simp] theorem State.updTable_hpc (s : State) (n : Nat) (f : SlotTable → SlotTable) : (s.updTable n f).hpc = s.hpc := rfl
@[simp] theorem State.updTable_field (s : State) (n : Nat) (f : SlotTable → SlotTable) : (s.updTable n f).field = s.field := rfl
@[simp] theorem State.updTable_lpc (s : State) (n : Nat) (f : SlotTable → SlotTable) : (s.updTable n f).lpc = s.lpc := rfl
@[simp] theorem State.updTable_mgp (s : State) (n : Nat) (f : SlotTable → SlotTable) : (s.updTable n f).mgp = s.mgp := rfl
@[simp] theorem State.updTable_fcs (s : State) (n : Nat) (f : SlotTable → SlotTable) : (s.updTable n f).fcs = s.fcs := rfl
@[simp] theorem State.updTable_tru (s : State) (n : Nat) (f : SlotTable → SlotTable) : (s.updTable n f).tru = s.tru := rfl
@[simp] theorem State.updTable_otp (s : State) (n : Nat) (f : SlotTable → SlotTable) : (s.updTable n f).otp = s.otp := rfl
@[simp] theorem State.updTable_top (s : State) (n : Nat) (f : SlotTable → SlotTable) : (s.updTable n f).top = s.top := rfl
@[simp] theorem State.updTable_tick (s : State) (n : Nat) (f : SlotTable → SlotTable) : (s.updTable n f).tick = s.tick := rfl
@[simp] theorem State.updTable_free (s : State) (n : Nat) (f : SlotTable → SlotTable) : (s.updTable n f).free = s.free := rfl
@[simp] theorem State.updTable_out (s : State) (n : Nat) (f : SlotTable → SlotTable) : (s.updTable n f).out = s.out := rfl
@[simp] theorem State.updTable_pending (s : State) (n : Nat) (f : SlotTable → SlotTable) : (s.updTable n f).pending = s.pending := rfl

/-! ## `updStream` changes `mm` alone. -/

@[simp] theorem State.updStream_yard (s : State) (n : Nat) (f : Stream → Stream) : (s.updStream n f).yard = s.yard := rfl
@[simp] theorem State.updStream_eng (s : State) (n : Nat) (f : Stream → Stream) : (s.updStream n f).eng = s.eng := rfl
@[simp] theorem State.updStream_qe (s : State) (n : Nat) (f : Stream → Stream) : (s.updStream n f).qe = s.qe := rfl
@[simp] theorem State.updStream_lq (s : State) (n : Nat) (f : Stream → Stream) : (s.updStream n f).lq = s.lq := rfl
@[simp] theorem State.updStream_fc (s : State) (n : Nat) (f : Stream → Stream) : (s.updStream n f).fc = s.fc := rfl
@[simp] theorem State.updStream_sch (s : State) (n : Nat) (f : Stream → Stream) : (s.updStream n f).sch = s.sch := rfl
@[simp] theorem State.updStream_mv (s : State) (n : Nat) (f : Stream → Stream) : (s.updStream n f).mv = s.mv := rfl
@[simp] theorem State.updStream_cpl (s : State) (n : Nat) (f : Stream → Stream) : (s.updStream n f).cpl = s.cpl := rfl
@[simp] theorem State.updStream_mbx (s : State) (n : Nat) (f : Stream → Stream) : (s.updStream n f).mbx = s.mbx := rfl
@[simp] theorem State.updStream_tmr (s : State) (n : Nat) (f : Stream → Stream) : (s.updStream n f).tmr = s.tmr := rfl
@[simp] theorem State.updStream_psv (s : State) (n : Nat) (f : Stream → Stream) : (s.updStream n f).psv = s.psv := rfl
@[simp] theorem State.updStream_hpc (s : State) (n : Nat) (f : Stream → Stream) : (s.updStream n f).hpc = s.hpc := rfl
@[simp] theorem State.updStream_field (s : State) (n : Nat) (f : Stream → Stream) : (s.updStream n f).field = s.field := rfl
@[simp] theorem State.updStream_lpc (s : State) (n : Nat) (f : Stream → Stream) : (s.updStream n f).lpc = s.lpc := rfl
@[simp] theorem State.updStream_mgp (s : State) (n : Nat) (f : Stream → Stream) : (s.updStream n f).mgp = s.mgp := rfl
@[simp] theorem State.updStream_fcs (s : State) (n : Nat) (f : Stream → Stream) : (s.updStream n f).fcs = s.fcs := rfl
@[simp] theorem State.updStream_tru (s : State) (n : Nat) (f : Stream → Stream) : (s.updStream n f).tru = s.tru := rfl
@[simp] theorem State.updStream_otp (s : State) (n : Nat) (f : Stream → Stream) : (s.updStream n f).otp = s.otp := rfl
@[simp] theorem State.updStream_top (s : State) (n : Nat) (f : Stream → Stream) : (s.updStream n f).top = s.top := rfl
@[simp] theorem State.updStream_tick (s : State) (n : Nat) (f : Stream → Stream) : (s.updStream n f).tick = s.tick := rfl
@[simp] theorem State.updStream_free (s : State) (n : Nat) (f : Stream → Stream) : (s.updStream n f).free = s.free := rfl
@[simp] theorem State.updStream_out (s : State) (n : Nat) (f : Stream → Stream) : (s.updStream n f).out = s.out := rfl
@[simp] theorem State.updStream_pending (s : State) (n : Nat) (f : Stream → Stream) : (s.updStream n f).pending = s.pending := rfl

/-! ## `updRegion` changes `mm` alone. -/

@[simp] theorem State.updRegion_yard (s : State) (n : Nat) (f : Region → Region) : (s.updRegion n f).yard = s.yard := rfl
@[simp] theorem State.updRegion_eng (s : State) (n : Nat) (f : Region → Region) : (s.updRegion n f).eng = s.eng := rfl
@[simp] theorem State.updRegion_qe (s : State) (n : Nat) (f : Region → Region) : (s.updRegion n f).qe = s.qe := rfl
@[simp] theorem State.updRegion_lq (s : State) (n : Nat) (f : Region → Region) : (s.updRegion n f).lq = s.lq := rfl
@[simp] theorem State.updRegion_fc (s : State) (n : Nat) (f : Region → Region) : (s.updRegion n f).fc = s.fc := rfl
@[simp] theorem State.updRegion_sch (s : State) (n : Nat) (f : Region → Region) : (s.updRegion n f).sch = s.sch := rfl
@[simp] theorem State.updRegion_mv (s : State) (n : Nat) (f : Region → Region) : (s.updRegion n f).mv = s.mv := rfl
@[simp] theorem State.updRegion_cpl (s : State) (n : Nat) (f : Region → Region) : (s.updRegion n f).cpl = s.cpl := rfl
@[simp] theorem State.updRegion_mbx (s : State) (n : Nat) (f : Region → Region) : (s.updRegion n f).mbx = s.mbx := rfl
@[simp] theorem State.updRegion_tmr (s : State) (n : Nat) (f : Region → Region) : (s.updRegion n f).tmr = s.tmr := rfl
@[simp] theorem State.updRegion_psv (s : State) (n : Nat) (f : Region → Region) : (s.updRegion n f).psv = s.psv := rfl
@[simp] theorem State.updRegion_hpc (s : State) (n : Nat) (f : Region → Region) : (s.updRegion n f).hpc = s.hpc := rfl
@[simp] theorem State.updRegion_field (s : State) (n : Nat) (f : Region → Region) : (s.updRegion n f).field = s.field := rfl
@[simp] theorem State.updRegion_lpc (s : State) (n : Nat) (f : Region → Region) : (s.updRegion n f).lpc = s.lpc := rfl
@[simp] theorem State.updRegion_mgp (s : State) (n : Nat) (f : Region → Region) : (s.updRegion n f).mgp = s.mgp := rfl
@[simp] theorem State.updRegion_fcs (s : State) (n : Nat) (f : Region → Region) : (s.updRegion n f).fcs = s.fcs := rfl
@[simp] theorem State.updRegion_tru (s : State) (n : Nat) (f : Region → Region) : (s.updRegion n f).tru = s.tru := rfl
@[simp] theorem State.updRegion_otp (s : State) (n : Nat) (f : Region → Region) : (s.updRegion n f).otp = s.otp := rfl
@[simp] theorem State.updRegion_top (s : State) (n : Nat) (f : Region → Region) : (s.updRegion n f).top = s.top := rfl
@[simp] theorem State.updRegion_tick (s : State) (n : Nat) (f : Region → Region) : (s.updRegion n f).tick = s.tick := rfl
@[simp] theorem State.updRegion_free (s : State) (n : Nat) (f : Region → Region) : (s.updRegion n f).free = s.free := rfl
@[simp] theorem State.updRegion_out (s : State) (n : Nat) (f : Region → Region) : (s.updRegion n f).out = s.out := rfl
@[simp] theorem State.updRegion_pending (s : State) (n : Nat) (f : Region → Region) : (s.updRegion n f).pending = s.pending := rfl

/-! ## `updSeg` changes `mm` alone. -/

@[simp] theorem State.updSeg_yard (s : State) (n : Nat) (f : Segment → Segment) : (s.updSeg n f).yard = s.yard := rfl
@[simp] theorem State.updSeg_eng (s : State) (n : Nat) (f : Segment → Segment) : (s.updSeg n f).eng = s.eng := rfl
@[simp] theorem State.updSeg_qe (s : State) (n : Nat) (f : Segment → Segment) : (s.updSeg n f).qe = s.qe := rfl
@[simp] theorem State.updSeg_lq (s : State) (n : Nat) (f : Segment → Segment) : (s.updSeg n f).lq = s.lq := rfl
@[simp] theorem State.updSeg_fc (s : State) (n : Nat) (f : Segment → Segment) : (s.updSeg n f).fc = s.fc := rfl
@[simp] theorem State.updSeg_sch (s : State) (n : Nat) (f : Segment → Segment) : (s.updSeg n f).sch = s.sch := rfl
@[simp] theorem State.updSeg_mv (s : State) (n : Nat) (f : Segment → Segment) : (s.updSeg n f).mv = s.mv := rfl
@[simp] theorem State.updSeg_cpl (s : State) (n : Nat) (f : Segment → Segment) : (s.updSeg n f).cpl = s.cpl := rfl
@[simp] theorem State.updSeg_mbx (s : State) (n : Nat) (f : Segment → Segment) : (s.updSeg n f).mbx = s.mbx := rfl
@[simp] theorem State.updSeg_tmr (s : State) (n : Nat) (f : Segment → Segment) : (s.updSeg n f).tmr = s.tmr := rfl
@[simp] theorem State.updSeg_psv (s : State) (n : Nat) (f : Segment → Segment) : (s.updSeg n f).psv = s.psv := rfl
@[simp] theorem State.updSeg_hpc (s : State) (n : Nat) (f : Segment → Segment) : (s.updSeg n f).hpc = s.hpc := rfl
@[simp] theorem State.updSeg_field (s : State) (n : Nat) (f : Segment → Segment) : (s.updSeg n f).field = s.field := rfl
@[simp] theorem State.updSeg_lpc (s : State) (n : Nat) (f : Segment → Segment) : (s.updSeg n f).lpc = s.lpc := rfl
@[simp] theorem State.updSeg_mgp (s : State) (n : Nat) (f : Segment → Segment) : (s.updSeg n f).mgp = s.mgp := rfl
@[simp] theorem State.updSeg_fcs (s : State) (n : Nat) (f : Segment → Segment) : (s.updSeg n f).fcs = s.fcs := rfl
@[simp] theorem State.updSeg_tru (s : State) (n : Nat) (f : Segment → Segment) : (s.updSeg n f).tru = s.tru := rfl
@[simp] theorem State.updSeg_otp (s : State) (n : Nat) (f : Segment → Segment) : (s.updSeg n f).otp = s.otp := rfl
@[simp] theorem State.updSeg_top (s : State) (n : Nat) (f : Segment → Segment) : (s.updSeg n f).top = s.top := rfl
@[simp] theorem State.updSeg_tick (s : State) (n : Nat) (f : Segment → Segment) : (s.updSeg n f).tick = s.tick := rfl
@[simp] theorem State.updSeg_free (s : State) (n : Nat) (f : Segment → Segment) : (s.updSeg n f).free = s.free := rfl
@[simp] theorem State.updSeg_out (s : State) (n : Nat) (f : Segment → Segment) : (s.updSeg n f).out = s.out := rfl
@[simp] theorem State.updSeg_pending (s : State) (n : Nat) (f : Segment → Segment) : (s.updSeg n f).pending = s.pending := rfl

/-! ## `updProg` changes `eng` alone. -/

@[simp] theorem State.updProg_yard (s : State) (n : Nat) (f : Prog → Prog) : (s.updProg n f).yard = s.yard := rfl
@[simp] theorem State.updProg_qe (s : State) (n : Nat) (f : Prog → Prog) : (s.updProg n f).qe = s.qe := rfl
@[simp] theorem State.updProg_lq (s : State) (n : Nat) (f : Prog → Prog) : (s.updProg n f).lq = s.lq := rfl
@[simp] theorem State.updProg_mm (s : State) (n : Nat) (f : Prog → Prog) : (s.updProg n f).mm = s.mm := rfl
@[simp] theorem State.updProg_fc (s : State) (n : Nat) (f : Prog → Prog) : (s.updProg n f).fc = s.fc := rfl
@[simp] theorem State.updProg_sch (s : State) (n : Nat) (f : Prog → Prog) : (s.updProg n f).sch = s.sch := rfl
@[simp] theorem State.updProg_mv (s : State) (n : Nat) (f : Prog → Prog) : (s.updProg n f).mv = s.mv := rfl
@[simp] theorem State.updProg_cpl (s : State) (n : Nat) (f : Prog → Prog) : (s.updProg n f).cpl = s.cpl := rfl
@[simp] theorem State.updProg_mbx (s : State) (n : Nat) (f : Prog → Prog) : (s.updProg n f).mbx = s.mbx := rfl
@[simp] theorem State.updProg_tmr (s : State) (n : Nat) (f : Prog → Prog) : (s.updProg n f).tmr = s.tmr := rfl
@[simp] theorem State.updProg_psv (s : State) (n : Nat) (f : Prog → Prog) : (s.updProg n f).psv = s.psv := rfl
@[simp] theorem State.updProg_hpc (s : State) (n : Nat) (f : Prog → Prog) : (s.updProg n f).hpc = s.hpc := rfl
@[simp] theorem State.updProg_field (s : State) (n : Nat) (f : Prog → Prog) : (s.updProg n f).field = s.field := rfl
@[simp] theorem State.updProg_lpc (s : State) (n : Nat) (f : Prog → Prog) : (s.updProg n f).lpc = s.lpc := rfl
@[simp] theorem State.updProg_mgp (s : State) (n : Nat) (f : Prog → Prog) : (s.updProg n f).mgp = s.mgp := rfl
@[simp] theorem State.updProg_fcs (s : State) (n : Nat) (f : Prog → Prog) : (s.updProg n f).fcs = s.fcs := rfl
@[simp] theorem State.updProg_tru (s : State) (n : Nat) (f : Prog → Prog) : (s.updProg n f).tru = s.tru := rfl
@[simp] theorem State.updProg_otp (s : State) (n : Nat) (f : Prog → Prog) : (s.updProg n f).otp = s.otp := rfl
@[simp] theorem State.updProg_top (s : State) (n : Nat) (f : Prog → Prog) : (s.updProg n f).top = s.top := rfl
@[simp] theorem State.updProg_tick (s : State) (n : Nat) (f : Prog → Prog) : (s.updProg n f).tick = s.tick := rfl
@[simp] theorem State.updProg_free (s : State) (n : Nat) (f : Prog → Prog) : (s.updProg n f).free = s.free := rfl
@[simp] theorem State.updProg_out (s : State) (n : Nat) (f : Prog → Prog) : (s.updProg n f).out = s.out := rfl
@[simp] theorem State.updProg_pending (s : State) (n : Nat) (f : Prog → Prog) : (s.updProg n f).pending = s.pending := rfl

/-! ## `updGroup` changes `lq` alone. -/

@[simp] theorem State.updGroup_yard (s : State) (i : Nat) (f : Group → Group) : (s.updGroup i f).yard = s.yard := rfl
@[simp] theorem State.updGroup_eng (s : State) (i : Nat) (f : Group → Group) : (s.updGroup i f).eng = s.eng := rfl
@[simp] theorem State.updGroup_qe (s : State) (i : Nat) (f : Group → Group) : (s.updGroup i f).qe = s.qe := rfl
@[simp] theorem State.updGroup_mm (s : State) (i : Nat) (f : Group → Group) : (s.updGroup i f).mm = s.mm := rfl
@[simp] theorem State.updGroup_fc (s : State) (i : Nat) (f : Group → Group) : (s.updGroup i f).fc = s.fc := rfl
@[simp] theorem State.updGroup_sch (s : State) (i : Nat) (f : Group → Group) : (s.updGroup i f).sch = s.sch := rfl
@[simp] theorem State.updGroup_mv (s : State) (i : Nat) (f : Group → Group) : (s.updGroup i f).mv = s.mv := rfl
@[simp] theorem State.updGroup_cpl (s : State) (i : Nat) (f : Group → Group) : (s.updGroup i f).cpl = s.cpl := rfl
@[simp] theorem State.updGroup_mbx (s : State) (i : Nat) (f : Group → Group) : (s.updGroup i f).mbx = s.mbx := rfl
@[simp] theorem State.updGroup_tmr (s : State) (i : Nat) (f : Group → Group) : (s.updGroup i f).tmr = s.tmr := rfl
@[simp] theorem State.updGroup_psv (s : State) (i : Nat) (f : Group → Group) : (s.updGroup i f).psv = s.psv := rfl
@[simp] theorem State.updGroup_hpc (s : State) (i : Nat) (f : Group → Group) : (s.updGroup i f).hpc = s.hpc := rfl
@[simp] theorem State.updGroup_field (s : State) (i : Nat) (f : Group → Group) : (s.updGroup i f).field = s.field := rfl
@[simp] theorem State.updGroup_lpc (s : State) (i : Nat) (f : Group → Group) : (s.updGroup i f).lpc = s.lpc := rfl
@[simp] theorem State.updGroup_mgp (s : State) (i : Nat) (f : Group → Group) : (s.updGroup i f).mgp = s.mgp := rfl
@[simp] theorem State.updGroup_fcs (s : State) (i : Nat) (f : Group → Group) : (s.updGroup i f).fcs = s.fcs := rfl
@[simp] theorem State.updGroup_tru (s : State) (i : Nat) (f : Group → Group) : (s.updGroup i f).tru = s.tru := rfl
@[simp] theorem State.updGroup_otp (s : State) (i : Nat) (f : Group → Group) : (s.updGroup i f).otp = s.otp := rfl
@[simp] theorem State.updGroup_top (s : State) (i : Nat) (f : Group → Group) : (s.updGroup i f).top = s.top := rfl
@[simp] theorem State.updGroup_tick (s : State) (i : Nat) (f : Group → Group) : (s.updGroup i f).tick = s.tick := rfl
@[simp] theorem State.updGroup_free (s : State) (i : Nat) (f : Group → Group) : (s.updGroup i f).free = s.free := rfl
@[simp] theorem State.updGroup_out (s : State) (i : Nat) (f : Group → Group) : (s.updGroup i f).out = s.out := rfl
@[simp] theorem State.updGroup_pending (s : State) (i : Nat) (f : Group → Group) : (s.updGroup i f).pending = s.pending := rfl

/-! ## `updI2c` changes `lpc` alone. -/

@[simp] theorem State.updI2c_yard (s : State) (n : Nat) (f : I2c → I2c) : (s.updI2c n f).yard = s.yard := rfl
@[simp] theorem State.updI2c_eng (s : State) (n : Nat) (f : I2c → I2c) : (s.updI2c n f).eng = s.eng := rfl
@[simp] theorem State.updI2c_qe (s : State) (n : Nat) (f : I2c → I2c) : (s.updI2c n f).qe = s.qe := rfl
@[simp] theorem State.updI2c_lq (s : State) (n : Nat) (f : I2c → I2c) : (s.updI2c n f).lq = s.lq := rfl
@[simp] theorem State.updI2c_mm (s : State) (n : Nat) (f : I2c → I2c) : (s.updI2c n f).mm = s.mm := rfl
@[simp] theorem State.updI2c_fc (s : State) (n : Nat) (f : I2c → I2c) : (s.updI2c n f).fc = s.fc := rfl
@[simp] theorem State.updI2c_sch (s : State) (n : Nat) (f : I2c → I2c) : (s.updI2c n f).sch = s.sch := rfl
@[simp] theorem State.updI2c_mv (s : State) (n : Nat) (f : I2c → I2c) : (s.updI2c n f).mv = s.mv := rfl
@[simp] theorem State.updI2c_cpl (s : State) (n : Nat) (f : I2c → I2c) : (s.updI2c n f).cpl = s.cpl := rfl
@[simp] theorem State.updI2c_mbx (s : State) (n : Nat) (f : I2c → I2c) : (s.updI2c n f).mbx = s.mbx := rfl
@[simp] theorem State.updI2c_tmr (s : State) (n : Nat) (f : I2c → I2c) : (s.updI2c n f).tmr = s.tmr := rfl
@[simp] theorem State.updI2c_psv (s : State) (n : Nat) (f : I2c → I2c) : (s.updI2c n f).psv = s.psv := rfl
@[simp] theorem State.updI2c_hpc (s : State) (n : Nat) (f : I2c → I2c) : (s.updI2c n f).hpc = s.hpc := rfl
@[simp] theorem State.updI2c_field (s : State) (n : Nat) (f : I2c → I2c) : (s.updI2c n f).field = s.field := rfl
@[simp] theorem State.updI2c_mgp (s : State) (n : Nat) (f : I2c → I2c) : (s.updI2c n f).mgp = s.mgp := rfl
@[simp] theorem State.updI2c_fcs (s : State) (n : Nat) (f : I2c → I2c) : (s.updI2c n f).fcs = s.fcs := rfl
@[simp] theorem State.updI2c_tru (s : State) (n : Nat) (f : I2c → I2c) : (s.updI2c n f).tru = s.tru := rfl
@[simp] theorem State.updI2c_otp (s : State) (n : Nat) (f : I2c → I2c) : (s.updI2c n f).otp = s.otp := rfl
@[simp] theorem State.updI2c_top (s : State) (n : Nat) (f : I2c → I2c) : (s.updI2c n f).top = s.top := rfl
@[simp] theorem State.updI2c_tick (s : State) (n : Nat) (f : I2c → I2c) : (s.updI2c n f).tick = s.tick := rfl
@[simp] theorem State.updI2c_free (s : State) (n : Nat) (f : I2c → I2c) : (s.updI2c n f).free = s.free := rfl
@[simp] theorem State.updI2c_out (s : State) (n : Nat) (f : I2c → I2c) : (s.updI2c n f).out = s.out := rfl
@[simp] theorem State.updI2c_pending (s : State) (n : Nat) (f : I2c → I2c) : (s.updI2c n f).pending = s.pending := rfl

/-! ## `updLane` changes `sch` alone. -/

@[simp] theorem State.updLane_yard (s : State) (arb : Nat) (f : Lane → Lane) : (s.updLane arb f).yard = s.yard := rfl
@[simp] theorem State.updLane_eng (s : State) (arb : Nat) (f : Lane → Lane) : (s.updLane arb f).eng = s.eng := rfl
@[simp] theorem State.updLane_qe (s : State) (arb : Nat) (f : Lane → Lane) : (s.updLane arb f).qe = s.qe := rfl
@[simp] theorem State.updLane_lq (s : State) (arb : Nat) (f : Lane → Lane) : (s.updLane arb f).lq = s.lq := rfl
@[simp] theorem State.updLane_mm (s : State) (arb : Nat) (f : Lane → Lane) : (s.updLane arb f).mm = s.mm := rfl
@[simp] theorem State.updLane_fc (s : State) (arb : Nat) (f : Lane → Lane) : (s.updLane arb f).fc = s.fc := rfl
@[simp] theorem State.updLane_mv (s : State) (arb : Nat) (f : Lane → Lane) : (s.updLane arb f).mv = s.mv := rfl
@[simp] theorem State.updLane_cpl (s : State) (arb : Nat) (f : Lane → Lane) : (s.updLane arb f).cpl = s.cpl := rfl
@[simp] theorem State.updLane_mbx (s : State) (arb : Nat) (f : Lane → Lane) : (s.updLane arb f).mbx = s.mbx := rfl
@[simp] theorem State.updLane_tmr (s : State) (arb : Nat) (f : Lane → Lane) : (s.updLane arb f).tmr = s.tmr := rfl
@[simp] theorem State.updLane_psv (s : State) (arb : Nat) (f : Lane → Lane) : (s.updLane arb f).psv = s.psv := rfl
@[simp] theorem State.updLane_hpc (s : State) (arb : Nat) (f : Lane → Lane) : (s.updLane arb f).hpc = s.hpc := rfl
@[simp] theorem State.updLane_field (s : State) (arb : Nat) (f : Lane → Lane) : (s.updLane arb f).field = s.field := rfl
@[simp] theorem State.updLane_lpc (s : State) (arb : Nat) (f : Lane → Lane) : (s.updLane arb f).lpc = s.lpc := rfl
@[simp] theorem State.updLane_mgp (s : State) (arb : Nat) (f : Lane → Lane) : (s.updLane arb f).mgp = s.mgp := rfl
@[simp] theorem State.updLane_fcs (s : State) (arb : Nat) (f : Lane → Lane) : (s.updLane arb f).fcs = s.fcs := rfl
@[simp] theorem State.updLane_tru (s : State) (arb : Nat) (f : Lane → Lane) : (s.updLane arb f).tru = s.tru := rfl
@[simp] theorem State.updLane_otp (s : State) (arb : Nat) (f : Lane → Lane) : (s.updLane arb f).otp = s.otp := rfl
@[simp] theorem State.updLane_top (s : State) (arb : Nat) (f : Lane → Lane) : (s.updLane arb f).top = s.top := rfl
@[simp] theorem State.updLane_tick (s : State) (arb : Nat) (f : Lane → Lane) : (s.updLane arb f).tick = s.tick := rfl
@[simp] theorem State.updLane_free (s : State) (arb : Nat) (f : Lane → Lane) : (s.updLane arb f).free = s.free := rfl
@[simp] theorem State.updLane_out (s : State) (arb : Nat) (f : Lane → Lane) : (s.updLane arb f).out = s.out := rfl
@[simp] theorem State.updLane_pending (s : State) (arb : Nat) (f : Lane → Lane) : (s.updLane arb f).pending = s.pending := rfl

/-! ## `updPacket` changes `mgp` alone. -/

@[simp] theorem State.updPacket_yard (s : State) (no : Nat) (f : Packet → Packet) : (s.updPacket no f).yard = s.yard := rfl
@[simp] theorem State.updPacket_eng (s : State) (no : Nat) (f : Packet → Packet) : (s.updPacket no f).eng = s.eng := rfl
@[simp] theorem State.updPacket_qe (s : State) (no : Nat) (f : Packet → Packet) : (s.updPacket no f).qe = s.qe := rfl
@[simp] theorem State.updPacket_lq (s : State) (no : Nat) (f : Packet → Packet) : (s.updPacket no f).lq = s.lq := rfl
@[simp] theorem State.updPacket_mm (s : State) (no : Nat) (f : Packet → Packet) : (s.updPacket no f).mm = s.mm := rfl
@[simp] theorem State.updPacket_fc (s : State) (no : Nat) (f : Packet → Packet) : (s.updPacket no f).fc = s.fc := rfl
@[simp] theorem State.updPacket_sch (s : State) (no : Nat) (f : Packet → Packet) : (s.updPacket no f).sch = s.sch := rfl
@[simp] theorem State.updPacket_mv (s : State) (no : Nat) (f : Packet → Packet) : (s.updPacket no f).mv = s.mv := rfl
@[simp] theorem State.updPacket_cpl (s : State) (no : Nat) (f : Packet → Packet) : (s.updPacket no f).cpl = s.cpl := rfl
@[simp] theorem State.updPacket_mbx (s : State) (no : Nat) (f : Packet → Packet) : (s.updPacket no f).mbx = s.mbx := rfl
@[simp] theorem State.updPacket_tmr (s : State) (no : Nat) (f : Packet → Packet) : (s.updPacket no f).tmr = s.tmr := rfl
@[simp] theorem State.updPacket_psv (s : State) (no : Nat) (f : Packet → Packet) : (s.updPacket no f).psv = s.psv := rfl
@[simp] theorem State.updPacket_hpc (s : State) (no : Nat) (f : Packet → Packet) : (s.updPacket no f).hpc = s.hpc := rfl
@[simp] theorem State.updPacket_field (s : State) (no : Nat) (f : Packet → Packet) : (s.updPacket no f).field = s.field := rfl
@[simp] theorem State.updPacket_lpc (s : State) (no : Nat) (f : Packet → Packet) : (s.updPacket no f).lpc = s.lpc := rfl
@[simp] theorem State.updPacket_fcs (s : State) (no : Nat) (f : Packet → Packet) : (s.updPacket no f).fcs = s.fcs := rfl
@[simp] theorem State.updPacket_tru (s : State) (no : Nat) (f : Packet → Packet) : (s.updPacket no f).tru = s.tru := rfl
@[simp] theorem State.updPacket_otp (s : State) (no : Nat) (f : Packet → Packet) : (s.updPacket no f).otp = s.otp := rfl
@[simp] theorem State.updPacket_top (s : State) (no : Nat) (f : Packet → Packet) : (s.updPacket no f).top = s.top := rfl
@[simp] theorem State.updPacket_tick (s : State) (no : Nat) (f : Packet → Packet) : (s.updPacket no f).tick = s.tick := rfl
@[simp] theorem State.updPacket_free (s : State) (no : Nat) (f : Packet → Packet) : (s.updPacket no f).free = s.free := rfl
@[simp] theorem State.updPacket_out (s : State) (no : Nat) (f : Packet → Packet) : (s.updPacket no f).out = s.out := rfl
@[simp] theorem State.updPacket_pending (s : State) (no : Nat) (f : Packet → Packet) : (s.updPacket no f).pending = s.pending := rfl

/-! ## `updUpd` changes `mgp` alone. -/

@[simp] theorem State.updUpd_yard (s : State) (f : Update → Update) : (s.updUpd f).yard = s.yard := rfl
@[simp] theorem State.updUpd_eng (s : State) (f : Update → Update) : (s.updUpd f).eng = s.eng := rfl
@[simp] theorem State.updUpd_qe (s : State) (f : Update → Update) : (s.updUpd f).qe = s.qe := rfl
@[simp] theorem State.updUpd_lq (s : State) (f : Update → Update) : (s.updUpd f).lq = s.lq := rfl
@[simp] theorem State.updUpd_mm (s : State) (f : Update → Update) : (s.updUpd f).mm = s.mm := rfl
@[simp] theorem State.updUpd_fc (s : State) (f : Update → Update) : (s.updUpd f).fc = s.fc := rfl
@[simp] theorem State.updUpd_sch (s : State) (f : Update → Update) : (s.updUpd f).sch = s.sch := rfl
@[simp] theorem State.updUpd_mv (s : State) (f : Update → Update) : (s.updUpd f).mv = s.mv := rfl
@[simp] theorem State.updUpd_cpl (s : State) (f : Update → Update) : (s.updUpd f).cpl = s.cpl := rfl
@[simp] theorem State.updUpd_mbx (s : State) (f : Update → Update) : (s.updUpd f).mbx = s.mbx := rfl
@[simp] theorem State.updUpd_tmr (s : State) (f : Update → Update) : (s.updUpd f).tmr = s.tmr := rfl
@[simp] theorem State.updUpd_psv (s : State) (f : Update → Update) : (s.updUpd f).psv = s.psv := rfl
@[simp] theorem State.updUpd_hpc (s : State) (f : Update → Update) : (s.updUpd f).hpc = s.hpc := rfl
@[simp] theorem State.updUpd_field (s : State) (f : Update → Update) : (s.updUpd f).field = s.field := rfl
@[simp] theorem State.updUpd_lpc (s : State) (f : Update → Update) : (s.updUpd f).lpc = s.lpc := rfl
@[simp] theorem State.updUpd_fcs (s : State) (f : Update → Update) : (s.updUpd f).fcs = s.fcs := rfl
@[simp] theorem State.updUpd_tru (s : State) (f : Update → Update) : (s.updUpd f).tru = s.tru := rfl
@[simp] theorem State.updUpd_otp (s : State) (f : Update → Update) : (s.updUpd f).otp = s.otp := rfl
@[simp] theorem State.updUpd_top (s : State) (f : Update → Update) : (s.updUpd f).top = s.top := rfl
@[simp] theorem State.updUpd_tick (s : State) (f : Update → Update) : (s.updUpd f).tick = s.tick := rfl
@[simp] theorem State.updUpd_free (s : State) (f : Update → Update) : (s.updUpd f).free = s.free := rfl
@[simp] theorem State.updUpd_out (s : State) (f : Update → Update) : (s.updUpd f).out = s.out := rfl
@[simp] theorem State.updUpd_pending (s : State) (f : Update → Update) : (s.updUpd f).pending = s.pending := rfl

/-! ## `updMvCh` changes `mv` alone. -/

@[simp] theorem State.updMvCh_yard (s : State) (m c : Nat) (f : MvCh → MvCh) : (s.updMvCh m c f).yard = s.yard := rfl
@[simp] theorem State.updMvCh_eng (s : State) (m c : Nat) (f : MvCh → MvCh) : (s.updMvCh m c f).eng = s.eng := rfl
@[simp] theorem State.updMvCh_qe (s : State) (m c : Nat) (f : MvCh → MvCh) : (s.updMvCh m c f).qe = s.qe := rfl
@[simp] theorem State.updMvCh_lq (s : State) (m c : Nat) (f : MvCh → MvCh) : (s.updMvCh m c f).lq = s.lq := rfl
@[simp] theorem State.updMvCh_mm (s : State) (m c : Nat) (f : MvCh → MvCh) : (s.updMvCh m c f).mm = s.mm := rfl
@[simp] theorem State.updMvCh_fc (s : State) (m c : Nat) (f : MvCh → MvCh) : (s.updMvCh m c f).fc = s.fc := rfl
@[simp] theorem State.updMvCh_sch (s : State) (m c : Nat) (f : MvCh → MvCh) : (s.updMvCh m c f).sch = s.sch := rfl
@[simp] theorem State.updMvCh_cpl (s : State) (m c : Nat) (f : MvCh → MvCh) : (s.updMvCh m c f).cpl = s.cpl := rfl
@[simp] theorem State.updMvCh_mbx (s : State) (m c : Nat) (f : MvCh → MvCh) : (s.updMvCh m c f).mbx = s.mbx := rfl
@[simp] theorem State.updMvCh_tmr (s : State) (m c : Nat) (f : MvCh → MvCh) : (s.updMvCh m c f).tmr = s.tmr := rfl
@[simp] theorem State.updMvCh_psv (s : State) (m c : Nat) (f : MvCh → MvCh) : (s.updMvCh m c f).psv = s.psv := rfl
@[simp] theorem State.updMvCh_hpc (s : State) (m c : Nat) (f : MvCh → MvCh) : (s.updMvCh m c f).hpc = s.hpc := rfl
@[simp] theorem State.updMvCh_field (s : State) (m c : Nat) (f : MvCh → MvCh) : (s.updMvCh m c f).field = s.field := rfl
@[simp] theorem State.updMvCh_lpc (s : State) (m c : Nat) (f : MvCh → MvCh) : (s.updMvCh m c f).lpc = s.lpc := rfl
@[simp] theorem State.updMvCh_mgp (s : State) (m c : Nat) (f : MvCh → MvCh) : (s.updMvCh m c f).mgp = s.mgp := rfl
@[simp] theorem State.updMvCh_fcs (s : State) (m c : Nat) (f : MvCh → MvCh) : (s.updMvCh m c f).fcs = s.fcs := rfl
@[simp] theorem State.updMvCh_tru (s : State) (m c : Nat) (f : MvCh → MvCh) : (s.updMvCh m c f).tru = s.tru := rfl
@[simp] theorem State.updMvCh_otp (s : State) (m c : Nat) (f : MvCh → MvCh) : (s.updMvCh m c f).otp = s.otp := rfl
@[simp] theorem State.updMvCh_top (s : State) (m c : Nat) (f : MvCh → MvCh) : (s.updMvCh m c f).top = s.top := rfl
@[simp] theorem State.updMvCh_tick (s : State) (m c : Nat) (f : MvCh → MvCh) : (s.updMvCh m c f).tick = s.tick := rfl
@[simp] theorem State.updMvCh_free (s : State) (m c : Nat) (f : MvCh → MvCh) : (s.updMvCh m c f).free = s.free := rfl
@[simp] theorem State.updMvCh_out (s : State) (m c : Nat) (f : MvCh → MvCh) : (s.updMvCh m c f).out = s.out := rfl
@[simp] theorem State.updMvCh_pending (s : State) (m c : Nat) (f : MvCh → MvCh) : (s.updMvCh m c f).pending = s.pending := rfl

/-! ## `updReqr` changes `sch` alone. -/

@[simp] theorem State.updReqr_yard (s : State) (arb r : Nat) (f : Reqr → Reqr) : (s.updReqr arb r f).yard = s.yard := rfl
@[simp] theorem State.updReqr_eng (s : State) (arb r : Nat) (f : Reqr → Reqr) : (s.updReqr arb r f).eng = s.eng := rfl
@[simp] theorem State.updReqr_qe (s : State) (arb r : Nat) (f : Reqr → Reqr) : (s.updReqr arb r f).qe = s.qe := rfl
@[simp] theorem State.updReqr_lq (s : State) (arb r : Nat) (f : Reqr → Reqr) : (s.updReqr arb r f).lq = s.lq := rfl
@[simp] theorem State.updReqr_mm (s : State) (arb r : Nat) (f : Reqr → Reqr) : (s.updReqr arb r f).mm = s.mm := rfl
@[simp] theorem State.updReqr_fc (s : State) (arb r : Nat) (f : Reqr → Reqr) : (s.updReqr arb r f).fc = s.fc := rfl
@[simp] theorem State.updReqr_mv (s : State) (arb r : Nat) (f : Reqr → Reqr) : (s.updReqr arb r f).mv = s.mv := rfl
@[simp] theorem State.updReqr_cpl (s : State) (arb r : Nat) (f : Reqr → Reqr) : (s.updReqr arb r f).cpl = s.cpl := rfl
@[simp] theorem State.updReqr_mbx (s : State) (arb r : Nat) (f : Reqr → Reqr) : (s.updReqr arb r f).mbx = s.mbx := rfl
@[simp] theorem State.updReqr_tmr (s : State) (arb r : Nat) (f : Reqr → Reqr) : (s.updReqr arb r f).tmr = s.tmr := rfl
@[simp] theorem State.updReqr_psv (s : State) (arb r : Nat) (f : Reqr → Reqr) : (s.updReqr arb r f).psv = s.psv := rfl
@[simp] theorem State.updReqr_hpc (s : State) (arb r : Nat) (f : Reqr → Reqr) : (s.updReqr arb r f).hpc = s.hpc := rfl
@[simp] theorem State.updReqr_field (s : State) (arb r : Nat) (f : Reqr → Reqr) : (s.updReqr arb r f).field = s.field := rfl
@[simp] theorem State.updReqr_lpc (s : State) (arb r : Nat) (f : Reqr → Reqr) : (s.updReqr arb r f).lpc = s.lpc := rfl
@[simp] theorem State.updReqr_mgp (s : State) (arb r : Nat) (f : Reqr → Reqr) : (s.updReqr arb r f).mgp = s.mgp := rfl
@[simp] theorem State.updReqr_fcs (s : State) (arb r : Nat) (f : Reqr → Reqr) : (s.updReqr arb r f).fcs = s.fcs := rfl
@[simp] theorem State.updReqr_tru (s : State) (arb r : Nat) (f : Reqr → Reqr) : (s.updReqr arb r f).tru = s.tru := rfl
@[simp] theorem State.updReqr_otp (s : State) (arb r : Nat) (f : Reqr → Reqr) : (s.updReqr arb r f).otp = s.otp := rfl
@[simp] theorem State.updReqr_top (s : State) (arb r : Nat) (f : Reqr → Reqr) : (s.updReqr arb r f).top = s.top := rfl
@[simp] theorem State.updReqr_tick (s : State) (arb r : Nat) (f : Reqr → Reqr) : (s.updReqr arb r f).tick = s.tick := rfl
@[simp] theorem State.updReqr_free (s : State) (arb r : Nat) (f : Reqr → Reqr) : (s.updReqr arb r f).free = s.free := rfl
@[simp] theorem State.updReqr_out (s : State) (arb r : Nat) (f : Reqr → Reqr) : (s.updReqr arb r f).out = s.out := rfl
@[simp] theorem State.updReqr_pending (s : State) (arb r : Nat) (f : Reqr → Reqr) : (s.updReqr arb r f).pending = s.pending := rfl

/-! ## `updWrite` changes `lq` alone. -/

@[simp] theorem State.updWrite_yard (s : State) (g i : Nat) (f : GWrite → GWrite) : (s.updWrite g i f).yard = s.yard := rfl
@[simp] theorem State.updWrite_eng (s : State) (g i : Nat) (f : GWrite → GWrite) : (s.updWrite g i f).eng = s.eng := rfl
@[simp] theorem State.updWrite_qe (s : State) (g i : Nat) (f : GWrite → GWrite) : (s.updWrite g i f).qe = s.qe := rfl
@[simp] theorem State.updWrite_mm (s : State) (g i : Nat) (f : GWrite → GWrite) : (s.updWrite g i f).mm = s.mm := rfl
@[simp] theorem State.updWrite_fc (s : State) (g i : Nat) (f : GWrite → GWrite) : (s.updWrite g i f).fc = s.fc := rfl
@[simp] theorem State.updWrite_sch (s : State) (g i : Nat) (f : GWrite → GWrite) : (s.updWrite g i f).sch = s.sch := rfl
@[simp] theorem State.updWrite_mv (s : State) (g i : Nat) (f : GWrite → GWrite) : (s.updWrite g i f).mv = s.mv := rfl
@[simp] theorem State.updWrite_cpl (s : State) (g i : Nat) (f : GWrite → GWrite) : (s.updWrite g i f).cpl = s.cpl := rfl
@[simp] theorem State.updWrite_mbx (s : State) (g i : Nat) (f : GWrite → GWrite) : (s.updWrite g i f).mbx = s.mbx := rfl
@[simp] theorem State.updWrite_tmr (s : State) (g i : Nat) (f : GWrite → GWrite) : (s.updWrite g i f).tmr = s.tmr := rfl
@[simp] theorem State.updWrite_psv (s : State) (g i : Nat) (f : GWrite → GWrite) : (s.updWrite g i f).psv = s.psv := rfl
@[simp] theorem State.updWrite_hpc (s : State) (g i : Nat) (f : GWrite → GWrite) : (s.updWrite g i f).hpc = s.hpc := rfl
@[simp] theorem State.updWrite_field (s : State) (g i : Nat) (f : GWrite → GWrite) : (s.updWrite g i f).field = s.field := rfl
@[simp] theorem State.updWrite_lpc (s : State) (g i : Nat) (f : GWrite → GWrite) : (s.updWrite g i f).lpc = s.lpc := rfl
@[simp] theorem State.updWrite_mgp (s : State) (g i : Nat) (f : GWrite → GWrite) : (s.updWrite g i f).mgp = s.mgp := rfl
@[simp] theorem State.updWrite_fcs (s : State) (g i : Nat) (f : GWrite → GWrite) : (s.updWrite g i f).fcs = s.fcs := rfl
@[simp] theorem State.updWrite_tru (s : State) (g i : Nat) (f : GWrite → GWrite) : (s.updWrite g i f).tru = s.tru := rfl
@[simp] theorem State.updWrite_otp (s : State) (g i : Nat) (f : GWrite → GWrite) : (s.updWrite g i f).otp = s.otp := rfl
@[simp] theorem State.updWrite_top (s : State) (g i : Nat) (f : GWrite → GWrite) : (s.updWrite g i f).top = s.top := rfl
@[simp] theorem State.updWrite_tick (s : State) (g i : Nat) (f : GWrite → GWrite) : (s.updWrite g i f).tick = s.tick := rfl
@[simp] theorem State.updWrite_free (s : State) (g i : Nat) (f : GWrite → GWrite) : (s.updWrite g i f).free = s.free := rfl
@[simp] theorem State.updWrite_out (s : State) (g i : Nat) (f : GWrite → GWrite) : (s.updWrite g i f).out = s.out := rfl
@[simp] theorem State.updWrite_pending (s : State) (g i : Nat) (f : GWrite → GWrite) : (s.updWrite g i f).pending = s.pending := rfl

/-! ## `updUnit` changes `lq` alone. -/

@[simp] theorem State.updUnit_yard (s : State) (u : Nat) (f : QUnit → QUnit) : (s.updUnit u f).yard = s.yard := rfl
@[simp] theorem State.updUnit_eng (s : State) (u : Nat) (f : QUnit → QUnit) : (s.updUnit u f).eng = s.eng := rfl
@[simp] theorem State.updUnit_qe (s : State) (u : Nat) (f : QUnit → QUnit) : (s.updUnit u f).qe = s.qe := rfl
@[simp] theorem State.updUnit_mm (s : State) (u : Nat) (f : QUnit → QUnit) : (s.updUnit u f).mm = s.mm := rfl
@[simp] theorem State.updUnit_fc (s : State) (u : Nat) (f : QUnit → QUnit) : (s.updUnit u f).fc = s.fc := rfl
@[simp] theorem State.updUnit_sch (s : State) (u : Nat) (f : QUnit → QUnit) : (s.updUnit u f).sch = s.sch := rfl
@[simp] theorem State.updUnit_mv (s : State) (u : Nat) (f : QUnit → QUnit) : (s.updUnit u f).mv = s.mv := rfl
@[simp] theorem State.updUnit_cpl (s : State) (u : Nat) (f : QUnit → QUnit) : (s.updUnit u f).cpl = s.cpl := rfl
@[simp] theorem State.updUnit_mbx (s : State) (u : Nat) (f : QUnit → QUnit) : (s.updUnit u f).mbx = s.mbx := rfl
@[simp] theorem State.updUnit_tmr (s : State) (u : Nat) (f : QUnit → QUnit) : (s.updUnit u f).tmr = s.tmr := rfl
@[simp] theorem State.updUnit_psv (s : State) (u : Nat) (f : QUnit → QUnit) : (s.updUnit u f).psv = s.psv := rfl
@[simp] theorem State.updUnit_hpc (s : State) (u : Nat) (f : QUnit → QUnit) : (s.updUnit u f).hpc = s.hpc := rfl
@[simp] theorem State.updUnit_field (s : State) (u : Nat) (f : QUnit → QUnit) : (s.updUnit u f).field = s.field := rfl
@[simp] theorem State.updUnit_lpc (s : State) (u : Nat) (f : QUnit → QUnit) : (s.updUnit u f).lpc = s.lpc := rfl
@[simp] theorem State.updUnit_mgp (s : State) (u : Nat) (f : QUnit → QUnit) : (s.updUnit u f).mgp = s.mgp := rfl
@[simp] theorem State.updUnit_fcs (s : State) (u : Nat) (f : QUnit → QUnit) : (s.updUnit u f).fcs = s.fcs := rfl
@[simp] theorem State.updUnit_tru (s : State) (u : Nat) (f : QUnit → QUnit) : (s.updUnit u f).tru = s.tru := rfl
@[simp] theorem State.updUnit_otp (s : State) (u : Nat) (f : QUnit → QUnit) : (s.updUnit u f).otp = s.otp := rfl
@[simp] theorem State.updUnit_top (s : State) (u : Nat) (f : QUnit → QUnit) : (s.updUnit u f).top = s.top := rfl
@[simp] theorem State.updUnit_tick (s : State) (u : Nat) (f : QUnit → QUnit) : (s.updUnit u f).tick = s.tick := rfl
@[simp] theorem State.updUnit_free (s : State) (u : Nat) (f : QUnit → QUnit) : (s.updUnit u f).free = s.free := rfl
@[simp] theorem State.updUnit_out (s : State) (u : Nat) (f : QUnit → QUnit) : (s.updUnit u f).out = s.out := rfl
@[simp] theorem State.updUnit_pending (s : State) (u : Nat) (f : QUnit → QUnit) : (s.updUnit u f).pending = s.pending := rfl

/-! ## `updCapture` changes `tmr` alone. -/

@[simp] theorem State.updCapture_yard (s : State) (k : Nat) (f : Capture → Capture) : (s.updCapture k f).yard = s.yard := rfl
@[simp] theorem State.updCapture_eng (s : State) (k : Nat) (f : Capture → Capture) : (s.updCapture k f).eng = s.eng := rfl
@[simp] theorem State.updCapture_qe (s : State) (k : Nat) (f : Capture → Capture) : (s.updCapture k f).qe = s.qe := rfl
@[simp] theorem State.updCapture_lq (s : State) (k : Nat) (f : Capture → Capture) : (s.updCapture k f).lq = s.lq := rfl
@[simp] theorem State.updCapture_mm (s : State) (k : Nat) (f : Capture → Capture) : (s.updCapture k f).mm = s.mm := rfl
@[simp] theorem State.updCapture_fc (s : State) (k : Nat) (f : Capture → Capture) : (s.updCapture k f).fc = s.fc := rfl
@[simp] theorem State.updCapture_sch (s : State) (k : Nat) (f : Capture → Capture) : (s.updCapture k f).sch = s.sch := rfl
@[simp] theorem State.updCapture_mv (s : State) (k : Nat) (f : Capture → Capture) : (s.updCapture k f).mv = s.mv := rfl
@[simp] theorem State.updCapture_cpl (s : State) (k : Nat) (f : Capture → Capture) : (s.updCapture k f).cpl = s.cpl := rfl
@[simp] theorem State.updCapture_mbx (s : State) (k : Nat) (f : Capture → Capture) : (s.updCapture k f).mbx = s.mbx := rfl
@[simp] theorem State.updCapture_psv (s : State) (k : Nat) (f : Capture → Capture) : (s.updCapture k f).psv = s.psv := rfl
@[simp] theorem State.updCapture_hpc (s : State) (k : Nat) (f : Capture → Capture) : (s.updCapture k f).hpc = s.hpc := rfl
@[simp] theorem State.updCapture_field (s : State) (k : Nat) (f : Capture → Capture) : (s.updCapture k f).field = s.field := rfl
@[simp] theorem State.updCapture_lpc (s : State) (k : Nat) (f : Capture → Capture) : (s.updCapture k f).lpc = s.lpc := rfl
@[simp] theorem State.updCapture_mgp (s : State) (k : Nat) (f : Capture → Capture) : (s.updCapture k f).mgp = s.mgp := rfl
@[simp] theorem State.updCapture_fcs (s : State) (k : Nat) (f : Capture → Capture) : (s.updCapture k f).fcs = s.fcs := rfl
@[simp] theorem State.updCapture_tru (s : State) (k : Nat) (f : Capture → Capture) : (s.updCapture k f).tru = s.tru := rfl
@[simp] theorem State.updCapture_otp (s : State) (k : Nat) (f : Capture → Capture) : (s.updCapture k f).otp = s.otp := rfl
@[simp] theorem State.updCapture_top (s : State) (k : Nat) (f : Capture → Capture) : (s.updCapture k f).top = s.top := rfl
@[simp] theorem State.updCapture_tick (s : State) (k : Nat) (f : Capture → Capture) : (s.updCapture k f).tick = s.tick := rfl
@[simp] theorem State.updCapture_free (s : State) (k : Nat) (f : Capture → Capture) : (s.updCapture k f).free = s.free := rfl
@[simp] theorem State.updCapture_out (s : State) (k : Nat) (f : Capture → Capture) : (s.updCapture k f).out = s.out := rfl
@[simp] theorem State.updCapture_pending (s : State) (k : Nat) (f : Capture → Capture) : (s.updCapture k f).pending = s.pending := rfl

/-! ## `sets` notes a W1C bit of the present tick, in `top` alone (R9). -/

@[simp] theorem State.sets_yard (s : State) (reg bit : Nat) : (s.sets reg bit).yard = s.yard := rfl
@[simp] theorem State.sets_eng (s : State) (reg bit : Nat) : (s.sets reg bit).eng = s.eng := rfl
@[simp] theorem State.sets_qe (s : State) (reg bit : Nat) : (s.sets reg bit).qe = s.qe := rfl
@[simp] theorem State.sets_lq (s : State) (reg bit : Nat) : (s.sets reg bit).lq = s.lq := rfl
@[simp] theorem State.sets_mm (s : State) (reg bit : Nat) : (s.sets reg bit).mm = s.mm := rfl
@[simp] theorem State.sets_fc (s : State) (reg bit : Nat) : (s.sets reg bit).fc = s.fc := rfl
@[simp] theorem State.sets_sch (s : State) (reg bit : Nat) : (s.sets reg bit).sch = s.sch := rfl
@[simp] theorem State.sets_mv (s : State) (reg bit : Nat) : (s.sets reg bit).mv = s.mv := rfl
@[simp] theorem State.sets_cpl (s : State) (reg bit : Nat) : (s.sets reg bit).cpl = s.cpl := rfl
@[simp] theorem State.sets_mbx (s : State) (reg bit : Nat) : (s.sets reg bit).mbx = s.mbx := rfl
@[simp] theorem State.sets_tmr (s : State) (reg bit : Nat) : (s.sets reg bit).tmr = s.tmr := rfl
@[simp] theorem State.sets_psv (s : State) (reg bit : Nat) : (s.sets reg bit).psv = s.psv := rfl
@[simp] theorem State.sets_hpc (s : State) (reg bit : Nat) : (s.sets reg bit).hpc = s.hpc := rfl
@[simp] theorem State.sets_field (s : State) (reg bit : Nat) : (s.sets reg bit).field = s.field := rfl
@[simp] theorem State.sets_lpc (s : State) (reg bit : Nat) : (s.sets reg bit).lpc = s.lpc := rfl
@[simp] theorem State.sets_mgp (s : State) (reg bit : Nat) : (s.sets reg bit).mgp = s.mgp := rfl
@[simp] theorem State.sets_fcs (s : State) (reg bit : Nat) : (s.sets reg bit).fcs = s.fcs := rfl
@[simp] theorem State.sets_tru (s : State) (reg bit : Nat) : (s.sets reg bit).tru = s.tru := rfl
@[simp] theorem State.sets_otp (s : State) (reg bit : Nat) : (s.sets reg bit).otp = s.otp := rfl
@[simp] theorem State.sets_tick (s : State) (reg bit : Nat) : (s.sets reg bit).tick = s.tick := rfl
@[simp] theorem State.sets_free (s : State) (reg bit : Nat) : (s.sets reg bit).free = s.free := rfl
@[simp] theorem State.sets_out (s : State) (reg bit : Nat) : (s.sets reg bit).out = s.out := rfl
@[simp] theorem State.sets_pending (s : State) (reg bit : Nat) : (s.sets reg bit).pending = s.pending := rfl
@[simp] theorem State.sets_hot (s : State) (reg bit : Nat) : (s.sets reg bit).top.hot = (reg, BitVec.ofNat 32 (2 ^ bit)) :: s.top.hot := rfl

/-! ## `drive` adds to the outputs, `takeFree` advances the counter of free values. -/

@[simp] theorem State.drive_yard (s : State) (o : Output) : (s.drive o).yard = s.yard := rfl
@[simp] theorem State.drive_eng (s : State) (o : Output) : (s.drive o).eng = s.eng := rfl
@[simp] theorem State.drive_qe (s : State) (o : Output) : (s.drive o).qe = s.qe := rfl
@[simp] theorem State.drive_lq (s : State) (o : Output) : (s.drive o).lq = s.lq := rfl
@[simp] theorem State.drive_mm (s : State) (o : Output) : (s.drive o).mm = s.mm := rfl
@[simp] theorem State.drive_fc (s : State) (o : Output) : (s.drive o).fc = s.fc := rfl
@[simp] theorem State.drive_sch (s : State) (o : Output) : (s.drive o).sch = s.sch := rfl
@[simp] theorem State.drive_mv (s : State) (o : Output) : (s.drive o).mv = s.mv := rfl
@[simp] theorem State.drive_cpl (s : State) (o : Output) : (s.drive o).cpl = s.cpl := rfl
@[simp] theorem State.drive_mbx (s : State) (o : Output) : (s.drive o).mbx = s.mbx := rfl
@[simp] theorem State.drive_tmr (s : State) (o : Output) : (s.drive o).tmr = s.tmr := rfl
@[simp] theorem State.drive_psv (s : State) (o : Output) : (s.drive o).psv = s.psv := rfl
@[simp] theorem State.drive_hpc (s : State) (o : Output) : (s.drive o).hpc = s.hpc := rfl
@[simp] theorem State.drive_field (s : State) (o : Output) : (s.drive o).field = s.field := rfl
@[simp] theorem State.drive_lpc (s : State) (o : Output) : (s.drive o).lpc = s.lpc := rfl
@[simp] theorem State.drive_mgp (s : State) (o : Output) : (s.drive o).mgp = s.mgp := rfl
@[simp] theorem State.drive_fcs (s : State) (o : Output) : (s.drive o).fcs = s.fcs := rfl
@[simp] theorem State.drive_tru (s : State) (o : Output) : (s.drive o).tru = s.tru := rfl
@[simp] theorem State.drive_otp (s : State) (o : Output) : (s.drive o).otp = s.otp := rfl
@[simp] theorem State.drive_top (s : State) (o : Output) : (s.drive o).top = s.top := rfl
@[simp] theorem State.drive_tick (s : State) (o : Output) : (s.drive o).tick = s.tick := rfl
@[simp] theorem State.drive_free (s : State) (o : Output) : (s.drive o).free = s.free := rfl
@[simp] theorem State.drive_pending (s : State) (o : Output) : (s.drive o).pending = s.pending := rfl
@[simp] theorem State.drive_out (s : State) (o : Output) : (s.drive o).out = o :: s.out := rfl
@[simp] theorem State.takeFree_yard (s : State) : s.takeFree.2.yard = s.yard := rfl
@[simp] theorem State.takeFree_eng (s : State) : s.takeFree.2.eng = s.eng := rfl
@[simp] theorem State.takeFree_qe (s : State) : s.takeFree.2.qe = s.qe := rfl
@[simp] theorem State.takeFree_lq (s : State) : s.takeFree.2.lq = s.lq := rfl
@[simp] theorem State.takeFree_mm (s : State) : s.takeFree.2.mm = s.mm := rfl
@[simp] theorem State.takeFree_fc (s : State) : s.takeFree.2.fc = s.fc := rfl
@[simp] theorem State.takeFree_sch (s : State) : s.takeFree.2.sch = s.sch := rfl
@[simp] theorem State.takeFree_mv (s : State) : s.takeFree.2.mv = s.mv := rfl
@[simp] theorem State.takeFree_cpl (s : State) : s.takeFree.2.cpl = s.cpl := rfl
@[simp] theorem State.takeFree_mbx (s : State) : s.takeFree.2.mbx = s.mbx := rfl
@[simp] theorem State.takeFree_tmr (s : State) : s.takeFree.2.tmr = s.tmr := rfl
@[simp] theorem State.takeFree_psv (s : State) : s.takeFree.2.psv = s.psv := rfl
@[simp] theorem State.takeFree_hpc (s : State) : s.takeFree.2.hpc = s.hpc := rfl
@[simp] theorem State.takeFree_field (s : State) : s.takeFree.2.field = s.field := rfl
@[simp] theorem State.takeFree_lpc (s : State) : s.takeFree.2.lpc = s.lpc := rfl
@[simp] theorem State.takeFree_mgp (s : State) : s.takeFree.2.mgp = s.mgp := rfl
@[simp] theorem State.takeFree_fcs (s : State) : s.takeFree.2.fcs = s.fcs := rfl
@[simp] theorem State.takeFree_tru (s : State) : s.takeFree.2.tru = s.tru := rfl
@[simp] theorem State.takeFree_otp (s : State) : s.takeFree.2.otp = s.otp := rfl
@[simp] theorem State.takeFree_top (s : State) : s.takeFree.2.top = s.top := rfl
@[simp] theorem State.takeFree_tick (s : State) : s.takeFree.2.tick = s.tick := rfl
@[simp] theorem State.takeFree_out (s : State) : s.takeFree.2.out = s.out := rfl
@[simp] theorem State.takeFree_pending (s : State) : s.takeFree.2.pending = s.pending := rfl
@[simp] theorem State.takeFree_free (s : State) : s.takeFree.2.free = s.free + 1 := rfl

end Sys2Proof.Machine
end

