-- ==== Sys2Proof/Laws/Table.lean ====
section
/-! SUPPORT. Reading a table after each of its operations. -/
namespace Sys2Proof

variable {α : Type}

/-- What stands under `j` after a put under `k`. -/
theorem Tbl.find_put (t : Tbl α) (k : Nat) (a : α) (j : Nat) : (t.put k a).find j = if j = k then some a else t.find j := by
  induction t with
  | nil => simp [Tbl.put, Tbl.find, eq_comm]
  | cons h t ih =>
    obtain ⟨i, b⟩ := h
    simp only [Tbl.put]
    split
    · simp only [Tbl.find]; grind
    · split
      · simp only [Tbl.find]; grind
      · simp only [Tbl.find, ih]; grind

/-- What stands under `j` after the deletion of `k`. -/
theorem Tbl.find_del (t : Tbl α) (k j : Nat) : (t.del k).find j = if j = k then none else t.find j := by
  induction t with
  | nil => simp [Tbl.del, Tbl.find]
  | cons h t ih =>
    obtain ⟨i, b⟩ := h
    simp only [Tbl.del]
    split
    · simp only [Tbl.find, ih]; grind
    · simp only [Tbl.find, ih]; grind

/-- What stands under `j` after an update of `k`. -/
theorem Tbl.find_upd (t : Tbl α) (k j : Nat) (f : α → α) : (t.upd k f).find j = if j = k then (t.find k).map f else t.find j := by
  induction t with
  | nil => simp [Tbl.upd, Tbl.find]
  | cons h t ih =>
    obtain ⟨i, b⟩ := h
    simp only [Tbl.upd]
    split
    · simp only [Tbl.find]; grind
    · simp only [Tbl.find, ih]; grind

/-- What stands under `j` after an update of every entry. -/
theorem Tbl.find_all (t : Tbl α) (j : Nat) (f : Nat → α → α) : (t.all f).find j = (t.find j).map (f j) := by
  induction t with
  | nil => simp [Tbl.all, Tbl.find]
  | cons h t ih =>
    obtain ⟨i, b⟩ := h
    simp only [Tbl.all, List.map, Tbl.find] at ih ⊢
    split
    · subst i; rfl
    · exact ih

/-- The entry under `j`, with its default, after a put under `k`. -/
theorem Tbl.get_put (t : Tbl α) (k : Nat) (a : α) (j : Nat) (d : α) : (t.put k a).get j d = if j = k then a else t.get j d := by
  simp only [Tbl.get, Tbl.find_put]; split <;> rfl

/-- The entry under `j` after a modification under `k`. -/
theorem Tbl.get_mod (t : Tbl α) (k : Nat) (d : α) (f : α → α) (j : Nat) (d' : α) :
    (t.mod k d f).get j d' = if j = k then f (t.get k d) else t.get j d' := by
  simp only [Tbl.mod, Tbl.get_put]

end Sys2Proof
end

