-- ==== Sys2Proof/Laws/Objects.lean ====
section
/-! SUPPORT. What an object reads as after the update of one of its kind. -/
namespace Sys2Proof.Machine

theorem State.updSq_sq (s : State) (n m : Nat) (f : Sq → Sq) : (s.updSq n f).sq m = if m = n then (s.sq n).map f else s.sq m := by
  simp only [State.updSq, State.sq, Tbl.find_upd]

@[simp] theorem State.updSq_sq_same (s : State) (n : Nat) (f : Sq → Sq) : (s.updSq n f).sq n = (s.sq n).map f := by
  rw [State.updSq_sq, if_pos rfl]

theorem State.updSq_sq_other (s : State) (n m : Nat) (f : Sq → Sq) (h : m ≠ n) : (s.updSq n f).sq m = s.sq m := by
  rw [State.updSq_sq, if_neg h]

theorem State.updCq_cq (s : State) (n m : Nat) (f : Cq → Cq) : (s.updCq n f).cq m = if m = n then (s.cq n).map f else s.cq m := by
  simp only [State.updCq, State.cq, Tbl.find_upd]

@[simp] theorem State.updCq_cq_same (s : State) (n : Nat) (f : Cq → Cq) : (s.updCq n f).cq n = (s.cq n).map f := by
  rw [State.updCq_cq, if_pos rfl]

theorem State.updCq_cq_other (s : State) (n m : Nat) (f : Cq → Cq) (h : m ≠ n) : (s.updCq n f).cq m = s.cq m := by
  rw [State.updCq_cq, if_neg h]

theorem State.updAq_aq (s : State) (n m : Nat) (f : Aq → Aq) : (s.updAq n f).aq m = if m = n then f (s.aq n) else s.aq m := by
  simp only [State.updAq, State.aq, Tbl.get_mod]

@[simp] theorem State.updAq_aq_same (s : State) (n : Nat) (f : Aq → Aq) : (s.updAq n f).aq n = f (s.aq n) := by
  rw [State.updAq_aq, if_pos rfl]

theorem State.updAq_aq_other (s : State) (n m : Nat) (f : Aq → Aq) (h : m ≠ n) : (s.updAq n f).aq m = s.aq m := by
  rw [State.updAq_aq, if_neg h]

theorem State.updEngine_engine (s : State) (n m : Nat) (f : Engine → Engine) : (s.updEngine n f).engine m = if m = n then f (s.engine n) else s.engine m := by
  simp only [State.updEngine, State.engine, Tbl.get_mod]

@[simp] theorem State.updEngine_engine_same (s : State) (n : Nat) (f : Engine → Engine) : (s.updEngine n f).engine n = f (s.engine n) := by
  rw [State.updEngine_engine, if_pos rfl]

theorem State.updEngine_engine_other (s : State) (n m : Nat) (f : Engine → Engine) (h : m ≠ n) : (s.updEngine n f).engine m = s.engine m := by
  rw [State.updEngine_engine, if_neg h]

theorem State.updCluster_cluster (s : State) (n m : Nat) (f : Cluster → Cluster) : (s.updCluster n f).cluster m = if m = n then f (s.cluster n) else s.cluster m := by
  simp only [State.updCluster, State.cluster, Tbl.get_mod]

@[simp] theorem State.updCluster_cluster_same (s : State) (n : Nat) (f : Cluster → Cluster) : (s.updCluster n f).cluster n = f (s.cluster n) := by
  rw [State.updCluster_cluster, if_pos rfl]

theorem State.updCluster_cluster_other (s : State) (n m : Nat) (f : Cluster → Cluster) (h : m ≠ n) : (s.updCluster n f).cluster m = s.cluster m := by
  rw [State.updCluster_cluster, if_neg h]

theorem State.updCrew_crew (s : State) (n m : Nat) (f : Crew → Crew) : (s.updCrew n f).crew m = if m = n then (s.crew n).map f else s.crew m := by
  simp only [State.updCrew, State.crew, Tbl.find_upd]

@[simp] theorem State.updCrew_crew_same (s : State) (n : Nat) (f : Crew → Crew) : (s.updCrew n f).crew n = (s.crew n).map f := by
  rw [State.updCrew_crew, if_pos rfl]

theorem State.updCrew_crew_other (s : State) (n m : Nat) (f : Crew → Crew) (h : m ≠ n) : (s.updCrew n f).crew m = s.crew m := by
  rw [State.updCrew_crew, if_neg h]

theorem State.updBar_bar (s : State) (n m : Nat) (f : Barrier → Barrier) : (s.updBar n f).bar m = if m = n then f (s.bar n) else s.bar m := by
  simp only [State.updBar, State.bar, Tbl.get_mod]

@[simp] theorem State.updBar_bar_same (s : State) (n : Nat) (f : Barrier → Barrier) : (s.updBar n f).bar n = f (s.bar n) := by
  rw [State.updBar_bar, if_pos rfl]

theorem State.updBar_bar_other (s : State) (n m : Nat) (f : Barrier → Barrier) (h : m ≠ n) : (s.updBar n f).bar m = s.bar m := by
  rw [State.updBar_bar, if_neg h]

theorem State.updMover_mover (s : State) (n m : Nat) (f : Mover → Mover) : (s.updMover n f).mover m = if m = n then f (s.mover n) else s.mover m := by
  simp only [State.updMover, State.mover, Tbl.get_mod]

@[simp] theorem State.updMover_mover_same (s : State) (n : Nat) (f : Mover → Mover) : (s.updMover n f).mover n = f (s.mover n) := by
  rw [State.updMover_mover, if_pos rfl]

theorem State.updMover_mover_other (s : State) (n m : Nat) (f : Mover → Mover) (h : m ≠ n) : (s.updMover n f).mover m = s.mover m := by
  rw [State.updMover_mover, if_neg h]

theorem State.updCpq_cpq (s : State) (n m : Nat) (f : CQueue → CQueue) : (s.updCpq n f).cpq m = if m = n then f (s.cpq n) else s.cpq m := by
  simp only [State.updCpq, State.cpq, Tbl.get_mod]

@[simp] theorem State.updCpq_cpq_same (s : State) (n : Nat) (f : CQueue → CQueue) : (s.updCpq n f).cpq n = f (s.cpq n) := by
  rw [State.updCpq_cpq, if_pos rfl]

theorem State.updCpq_cpq_other (s : State) (n m : Nat) (f : CQueue → CQueue) (h : m ≠ n) : (s.updCpq n f).cpq m = s.cpq m := by
  rw [State.updCpq_cpq, if_neg h]

theorem State.updMchan_mchan (s : State) (n m : Nat) (f : MChan → MChan) : (s.updMchan n f).mchan m = if m = n then f (s.mchan n) else s.mchan m := by
  simp only [State.updMchan, State.mchan, Tbl.get_mod]

@[simp] theorem State.updMchan_mchan_same (s : State) (n : Nat) (f : MChan → MChan) : (s.updMchan n f).mchan n = f (s.mchan n) := by
  rw [State.updMchan_mchan, if_pos rfl]

theorem State.updMchan_mchan_other (s : State) (n m : Nat) (f : MChan → MChan) (h : m ≠ n) : (s.updMchan n f).mchan m = s.mchan m := by
  rw [State.updMchan_mchan, if_neg h]

theorem State.updTimer_timer (s : State) (n m : Nat) (f : Timer → Timer) : (s.updTimer n f).timer m = if m = n then f (s.timer n) else s.timer m := by
  simp only [State.updTimer, State.timer, Tbl.get_mod]

@[simp] theorem State.updTimer_timer_same (s : State) (n : Nat) (f : Timer → Timer) : (s.updTimer n f).timer n = f (s.timer n) := by
  rw [State.updTimer_timer, if_pos rfl]

theorem State.updTimer_timer_other (s : State) (n m : Nat) (f : Timer → Timer) (h : m ≠ n) : (s.updTimer n f).timer m = s.timer m := by
  rw [State.updTimer_timer, if_neg h]

theorem State.updHfn_hfn (s : State) (n m : Nat) (f : Fn → Fn) : (s.updHfn n f).hfn m = if m = n then f (s.hfn n) else s.hfn m := by
  simp only [State.updHfn, State.hfn, Tbl.get_mod]

@[simp] theorem State.updHfn_hfn_same (s : State) (n : Nat) (f : Fn → Fn) : (s.updHfn n f).hfn n = f (s.hfn n) := by
  rw [State.updHfn_hfn, if_pos rfl]

theorem State.updHfn_hfn_other (s : State) (n m : Nat) (f : Fn → Fn) (h : m ≠ n) : (s.updHfn n f).hfn m = s.hfn m := by
  rw [State.updHfn_hfn, if_neg h]

theorem State.updHport_hport (s : State) (n m : Nat) (f : HPort → HPort) : (s.updHport n f).hport m = if m = n then f (s.hport n) else s.hport m := by
  simp only [State.updHport, State.hport, Tbl.get_mod]

@[simp] theorem State.updHport_hport_same (s : State) (n : Nat) (f : HPort → HPort) : (s.updHport n f).hport n = f (s.hport n) := by
  rw [State.updHport_hport, if_pos rfl]

theorem State.updHport_hport_other (s : State) (n m : Nat) (f : HPort → HPort) (h : m ≠ n) : (s.updHport n f).hport m = s.hport m := by
  rw [State.updHport_hport, if_neg h]

theorem State.updFport_fport (s : State) (n m : Nat) (f : FPort → FPort) : (s.updFport n f).fport m = if m = n then f (s.fport n) else s.fport m := by
  simp only [State.updFport, State.fport, Tbl.get_mod]

@[simp] theorem State.updFport_fport_same (s : State) (n : Nat) (f : FPort → FPort) : (s.updFport n f).fport n = f (s.fport n) := by
  rw [State.updFport_fport, if_pos rfl]

theorem State.updFport_fport_other (s : State) (n m : Nat) (f : FPort → FPort) (h : m ≠ n) : (s.updFport n f).fport m = s.fport m := by
  rw [State.updFport_fport, if_neg h]

theorem State.updXt_xt (s : State) (n m : Nat) (f : Xt → Xt) : (s.updXt n f).xt m = if m = n then f (s.xt n) else s.xt m := by
  simp only [State.updXt, State.xt, Tbl.get_mod]

@[simp] theorem State.updXt_xt_same (s : State) (n : Nat) (f : Xt → Xt) : (s.updXt n f).xt n = f (s.xt n) := by
  rw [State.updXt_xt, if_pos rfl]

theorem State.updXt_xt_other (s : State) (n m : Nat) (f : Xt → Xt) (h : m ≠ n) : (s.updXt n f).xt m = s.xt m := by
  rw [State.updXt_xt, if_neg h]

theorem State.updDreq_dreq (s : State) (n m : Nat) (f : Dreq → Dreq) : (s.updDreq n f).dreq m = if m = n then f (s.dreq n) else s.dreq m := by
  simp only [State.updDreq, State.dreq, Tbl.get_mod]

@[simp] theorem State.updDreq_dreq_same (s : State) (n : Nat) (f : Dreq → Dreq) : (s.updDreq n f).dreq n = f (s.dreq n) := by
  rw [State.updDreq_dreq, if_pos rfl]

theorem State.updDreq_dreq_other (s : State) (n m : Nat) (f : Dreq → Dreq) (h : m ≠ n) : (s.updDreq n f).dreq m = s.dreq m := by
  rw [State.updDreq_dreq, if_neg h]

theorem State.updUart_uart (s : State) (n m : Nat) (f : Uart → Uart) : (s.updUart n f).uart m = if m = n then f (s.uart n) else s.uart m := by
  simp only [State.updUart, State.uart, Tbl.get_mod]

@[simp] theorem State.updUart_uart_same (s : State) (n : Nat) (f : Uart → Uart) : (s.updUart n f).uart n = f (s.uart n) := by
  rw [State.updUart_uart, if_pos rfl]

theorem State.updUart_uart_other (s : State) (n m : Nat) (f : Uart → Uart) (h : m ≠ n) : (s.updUart n f).uart m = s.uart m := by
  rw [State.updUart_uart, if_neg h]

theorem State.updChan_chan (s : State) (n m : Nat) (f : Chan → Chan) : (s.updChan n f).chan m = if m = n then f (s.chan n) else s.chan m := by
  simp only [State.updChan, State.chan, Tbl.get_mod]

@[simp] theorem State.updChan_chan_same (s : State) (n : Nat) (f : Chan → Chan) : (s.updChan n f).chan n = f (s.chan n) := by
  rw [State.updChan_chan, if_pos rfl]

theorem State.updChan_chan_other (s : State) (n m : Nat) (f : Chan → Chan) (h : m ≠ n) : (s.updChan n f).chan m = s.chan m := by
  rw [State.updChan_chan, if_neg h]

theorem State.updTable_slotTable (s : State) (n m : Nat) (f : SlotTable → SlotTable) : (s.updTable n f).slotTable m = if m = n then f (s.slotTable n) else s.slotTable m := by
  simp only [State.updTable, State.slotTable, Tbl.get_mod]

@[simp] theorem State.updTable_slotTable_same (s : State) (n : Nat) (f : SlotTable → SlotTable) : (s.updTable n f).slotTable n = f (s.slotTable n) := by
  rw [State.updTable_slotTable, if_pos rfl]

theorem State.updTable_slotTable_other (s : State) (n m : Nat) (f : SlotTable → SlotTable) (h : m ≠ n) : (s.updTable n f).slotTable m = s.slotTable m := by
  rw [State.updTable_slotTable, if_neg h]

theorem State.updStream_stream (s : State) (n m : Nat) (f : Stream → Stream) : (s.updStream n f).stream m = if m = n then (s.stream n).map f else s.stream m := by
  simp only [State.updStream, State.stream, Tbl.find_upd]

@[simp] theorem State.updStream_stream_same (s : State) (n : Nat) (f : Stream → Stream) : (s.updStream n f).stream n = (s.stream n).map f := by
  rw [State.updStream_stream, if_pos rfl]

theorem State.updStream_stream_other (s : State) (n m : Nat) (f : Stream → Stream) (h : m ≠ n) : (s.updStream n f).stream m = s.stream m := by
  rw [State.updStream_stream, if_neg h]

theorem State.updRegion_region (s : State) (n m : Nat) (f : Region → Region) : (s.updRegion n f).region m = if m = n then (s.region n).map f else s.region m := by
  simp only [State.updRegion, State.region, Tbl.find_upd]

@[simp] theorem State.updRegion_region_same (s : State) (n : Nat) (f : Region → Region) : (s.updRegion n f).region n = (s.region n).map f := by
  rw [State.updRegion_region, if_pos rfl]

theorem State.updRegion_region_other (s : State) (n m : Nat) (f : Region → Region) (h : m ≠ n) : (s.updRegion n f).region m = s.region m := by
  rw [State.updRegion_region, if_neg h]

end Sys2Proof.Machine
end

