-- ==== Sys2Proof/Laws/Program.lean ====
section
/-! SUPPORT. What the shared operations on the program of one engine can do: its update, the completion of its word, and the start of a word's
meaning. -/
namespace Sys2Proof.Machine

theorem State.prog_of_running {s : State} {e : Nat} {p : Prog} (h : s.running e = some p) : s.prog e = some p := by
  unfold State.running at h; grind

theorem State.updProg_prog (s : State) (e : Nat) (f : Prog → Prog) : (s.updProg e f).prog e = (s.prog e).map f := by
  simp [State.updProg, State.prog]

/-- Two updates that agree on the program that the engine runs are the same. -/
theorem State.updProg_congr (s : State) (e : Nat) (p : Prog) (f g : Prog → Prog) (h : s.prog e = some p) (hf : f p = g p) :
    s.updProg e f = s.updProg e g := by
  have h' : (s.eng.engines.get e (Engine.reset (e % engPerCluster))).prog = some p := h
  simp only [State.updProg, State.updEngine, Tbl.mod, h', Option.map, hf]

/-- An update of the program of engine `e` changes that program alone. -/
theorem onlyProg_updProg (s : State) (e : Nat) (p : Prog) (f : Prog → Prog) (h : s.prog e = some p) : OnlyProg s (s.updProg e f) e (f p) := by
  refine ⟨?_, ?_, ?_⟩
  · simp only [State.prog] at h
    simp [State.updProg, h]
  · intro a ha
    simp [State.updProg, State.updEngine_engine_other, ha]
  · simp [State.updProg, State.updEngine]

theorem OnlyProg.trans {s t u : State} {e : Nat} {p q : Prog} (h : OnlyProg s t e p) (h' : OnlyProg t u e q) : OnlyProg s u e q := by
  obtain ⟨a, b, c⟩ := h
  obtain ⟨a', b', c'⟩ := h'
  exact ⟨by rw [a', a], fun x hx => by rw [b' x hx, b x hx], by rw [c', c]⟩

@[simp] theorem State.ack_engines (s : State) (e : Nat) : (s.ack e).eng.engines = s.eng.engines := rfl
@[simp] theorem State.ack_engine (s : State) (e a : Nat) : (s.ack e).engine a = s.engine a := rfl
@[simp] theorem State.ack_prog (s : State) (e a : Nat) : (s.ack e).prog a = s.prog a := rfl

/-- A program that holds no mover channel has none to give back. -/
theorem State.dropChan_none (s : State) (e st : Nat) (p : Prog) (h : s.prog e = some p) (c : p.chan = none) : s.dropChan e st = s := by
  simp [State.dropChan, h, c]

/-- A word that completes without a mover channel, in a program that goes on, acknowledges the broadcasts that wait for its engine, moves the program to
its next word and changes nothing else (R70, R103, R151). -/
theorem onlyProg_completeWord (s : State) (e : Nat) (p : Prog) (h : s.prog e = some p) (c : p.chan = none) (g : p.goesOn) :
    OnlyProg (s.ack e) (s.completeWord e .next) e (p.done p.after) := by
  obtain ⟨g1, g2, g3⟩ := g
  simp only [State.completeWord, h, g1, State.dropChan_none s e dsOk p h c, Bool.true_or, ite_true]
  simp only [State.atBoundary, State.updProg_prog, State.ack_prog, h, Option.map, g2, g3]
  simpa [Prog.done, Prog.after] using onlyProg_updProg (s.ack e) e p (fun q => { q with
    steps := q.steps + p.op.length, last := q.opAddr (p.op.length - 1), anyDone := true, op := [], noted := false, moved := 0, further := false
    xf := none, resumed := false, pc := p.after, phase := .boundary }) h

/-- The same of a word that continues at a target (R70). -/
theorem onlyProg_jump (s : State) (e : Nat) (p : Prog) (h : s.prog e = some p) (c : p.chan = none) (g : p.undisturbed) (a : W64) :
    OnlyProg (s.ack e) (s.completeWord e (.jump a)) e (p.done a) := by
  obtain ⟨g2, g3⟩ := g
  simp only [State.completeWord, h, State.dropChan_none s e dsOk p h c]
  simp only [State.atBoundary, State.updProg_prog, State.ack_prog, h, Option.map, g2, g3]
  simpa [Prog.done] using onlyProg_updProg (s.ack e) e p (fun q => { q with
    steps := q.steps + p.op.length, last := q.opAddr (p.op.length - 1), anyDone := true, op := [], noted := false, moved := 0, further := false
    xf := none, resumed := false, pc := a, phase := .boundary }) h

/-- The broadcasts that wait for an engine do not see an update of its program. -/
theorem OnlyProg.ack {s t : State} {e : Nat} {p : Prog} (h : OnlyProg s t e p) (a : Nat) : OnlyProg (s.ack a) (t.ack a) e p := by
  obtain ⟨h1, h2, h3⟩ := h
  refine ⟨h1, h2, ?_⟩
  rw [h3]
  rfl

/-- An update of the program, and the completion of its word. -/
theorem onlyProg_updProg_completeWord (s : State) (e : Nat) (p : Prog) (f : Prog → Prog) (h : s.prog e = some p) (c : (f p).chan = none)
    (hf : (f p).goesOn) (ha : (f p).after = p.after) : OnlyProg (s.ack e) ((s.updProg e f).completeWord e .next) e ((f p).done p.after) := by
  have h2 := onlyProg_completeWord (s.updProg e f) e (f p) (by simp [State.updProg_prog, h]) c hf
  rw [ha] at h2
  exact ((onlyProg_updProg s e p f h).ack e).trans h2

/-- An update of the program, and a jump. -/
theorem onlyProg_updProg_jump (s : State) (e : Nat) (p : Prog) (f : Prog → Prog) (h : s.prog e = some p) (c : (f p).chan = none)
    (hf : (f p).undisturbed) (a : W64) : OnlyProg (s.ack e) ((s.updProg e f).completeWord e (.jump a)) e ((f p).done a) :=
  ((onlyProg_updProg s e p f h).ack e).trans (onlyProg_jump (s.updProg e f) e (f p) (by simp [State.updProg_prog, h]) c hf a)

theorem Delivered.prog {s : State} {e : Nat} {p : Prog} {ws : List Ccw} (h : Delivered s e p ws) : s.prog e = some p := State.prog_of_running h.1

theorem Delivered.chan {s : State} {e : Nat} {p : Prog} {ws : List Ccw} (h : Delivered s e p ws) : p.chan = none := by
  simp [Prog.chan, h.2.2.2.1]

/-- The meaning of a word that is delivered, and that its row takes. -/
theorem State.atWord_delivered {s : State} {e : Nat} {p : Prog} {w : Ccw} {ws : List Ccw} (h : Delivered s e p (w :: ws)) (m : Ccw → Bool)
    (f : Prog → Ccw → State → Answer) (hm : m w = true) : s.atWord e m f = f p w s := by
  obtain ⟨a, b, c, -, -⟩ := h
  simp [State.atWord, a, b, c, hm]

/-- Of a delivered word, checks that find nothing let the effect happen. -/
theorem State.checkedBar_none {s : State} {e : Nat} {p : Prog} {ws : List Ccw} (d : Delivered s e p ws) (b : Option Bad) (bar : Bool) (f : State → State)
    (u : p.barred bar = false) (h : b = none) : s.checkedBar e b bar f = .next (f s) := by
  have hp := d.prog
  have ph := d.2.1
  simp [State.checkedBar, State.afterBar, hp, ph, u, h]

theorem State.checked_none {s : State} {e : Nat} {p : Prog} {ws : List Ccw} (d : Delivered s e p ws) (b : Option Bad) (f : State → State) (h : b = none) :
    s.checked e b f = .next (f s) := State.checkedBar_none d b false f d.2.2.2.2 h

/-- Checks that find an ending end the program, without the effect (R108). -/
theorem State.checked_ends {s : State} {e : Nat} {p : Prog} {ws : List Ccw} (d : Delivered s e p ws) (b : Option Bad) (bar : Bool) (f : State → State)
    (n : Ending) (i : Nat) (h : b = some (.ends n i)) : s.checkedBar e b bar f = .next (s.endAtWord e n i) := by
  simp [State.checkedBar, d.prog, d.2.1, h]

/-- Checks that find a reserved part stop the model (R69). -/
theorem State.checked_undef {s : State} {e : Nat} {p : Prog} {ws : List Ccw} (d : Delivered s e p ws) (b : Option Bad) (bar : Bool) (f : State → State)
    (h : b = some .undef) : s.checkedBar e b bar f = .fault .reservedWord := by
  simp [State.checkedBar, d.prog, d.2.1, h]

/-- Whatever the checks find, a checked word is never refused, and only a reserved part stops the model. -/
theorem State.checked_answers (s : State) (e : Nat) (b : Option Bad) (bar : Bool) (f : State → State) :
    (∃ t, s.checkedBar e b bar f = .next t) ∨ s.checkedBar e b bar f = .fault .reservedWord := by
  unfold State.checkedBar
  split <;> simp

@[simp] theorem State.freeEngine_prog (s : State) (e : Nat) : (s.freeEngine e).prog e = none := by
  have : (s.freeEngine e).prog e = ((s.ack e).updEngine e (fun g => { g with prog := none, store := [] })).prog e := rfl
  rw [this, State.prog, State.updEngine_engine_same]

/-- A program whose final completion is ready has no data operation in hand. -/
theorem State.postFinal_xf (s : State) (e : Nat) (p : Prog) (n : Ending) (ccw : W64) (bell : Option Nat) (q : Prog)
    (h : (s.postFinal e p n ccw bell).prog e = some q) : q.xf = none := by
  have key : ∀ t : State, (if (t.engine e).fenced then t.freeEngine e
      else (t.ack e).updProg e (fun p => { p with phase := .postwait, op := [], reserve := 0, xf := none })).prog e = some q → q.xf = none := by
    intro t ht
    cases hf : (t.engine e).fenced with
    | true => simp [hf] at ht
    | false =>
      simp only [hf, Bool.false_eq_true, if_false, State.updProg_prog] at ht
      obtain ⟨q', -, hq'⟩ := Option.map_eq_some_iff.1 ht
      rw [← hq']
  unfold State.postFinal at h
  cases hq : s.cq p.cqid with
  | none => simp [hq] at h
  | some c =>
    simp only [hq] at h
    exact key _ h

/-- Once a program has ended at a word, no operation of its engine goes on. -/
theorem State.goOn_endAtWord (s : State) (e : Nat) (p : Prog) (n : Ending) (i : Nat) (go : Prog → Xfr → Ccw → State → State) (h : s.prog e = some p)
    (hp : p.phase ≠ .postwait) : (s.endAtWord e n i).goOn e go = s.endAtWord e n i := by
  have key : ∀ t : State, (∀ q, t.prog e = some q → q.xf = none) → t.goOn e go = t := by
    intro t ht
    unfold State.goOn
    split
    · rfl
    · rename_i q hq; simp [ht q hq]
  refine key _ ?_
  simp only [State.endAtWord, h, State.endProg, hp, if_false]
  exact fun q => State.postFinal_xf _ _ _ _ _ _ q

/-- An event that has its condition occurs; one that has not leaves the state. -/
theorem occurs_next (s : State) (c : Bool) (f : State → State) : occurs s c f = .next (if c then f s else s) := rfl

end Sys2Proof.Machine
end

