-- ==== Sys2Proof/Machine/Physical.lean ====
section
/-! DEFINITION. What chapter 18 and Tables 1.6 to 1.8 say of the part as a thing: the ball map, the pins, the supplies, the power, the
electrical limits and the package. Nothing here changes while the part runs; the machine reads the rail and clock ids alone. Levels and
delays on wires are no state of the machine (log 18). -/
namespace Sys2Proof.Machine

/-! ## Supplies (R470, Table 18.7) -/

inductive Rail where
  | core | sram | vccqFl | io18 | io33 | sd | sdh | vbat
  deriving DecidableEq, Repr

/-- Limits of a rail in mV and currents in µA. -/
structure RailData where
  /-- The unit id in a report of class 0x28; VBAT is not watched. -/
  id : Option Nat
  nominalMv : Option Nat
  lowMv : Nat
  highMv : Nat
  absLowMv : Int
  absHighMv : Nat
  typicalUa : Nat
  maximumUa : Nat
  deriving DecidableEq, Repr

def Rail.data : Rail → RailData
  | .core => ⟨some 0x10, some 750, 720, 790, -300, 900, 17600000, 24000000⟩
  | .sram => ⟨some 0x11, some 800, 770, 840, -300, 950, 3600000, 5000000⟩
  | .vccqFl => ⟨some 0x12, some 1200, 1140, 1260, -300, 1450, 1600000, 2200000⟩
  | .io18 => ⟨some 0x13, some 1800, 1710, 1890, -300, 2100, 350000, 500000⟩
  | .io33 => ⟨some 0x14, some 3300, 3135, 3465, -300, 3800, 80000, 120000⟩
  | .sd => ⟨some 0x15, some 850, 820, 880, -300, 1000, 3200000, 4000000⟩
  | .sdh => ⟨some 0x16, some 1200, 1160, 1240, -300, 1400, 2000000, 2500000⟩
  | .vbat => ⟨none, none, 1800, 3600, -300, 4000, 15, 15⟩

def rails : List Rail := [.core, .sram, .vccqFl, .io18, .io33, .sd, .sdh, .vbat]

/-- The rail is in its recommended range. -/
def Rail.ok (r : Rail) (mv : Nat) : Bool := decide (r.data.lowMv ≤ mv) && decide (mv ≤ r.data.highMv)

/-- The step of the power-up order (R471); VBAT may be applied at any time. -/
def Rail.powerStep : Rail → Option Nat
  | .core | .sd => some 1
  | .sram => some 2
  | .vccqFl | .sdh | .io18 | .io33 => some 3
  | .vbat => none

/-- The order of R471: where a rail has passed 10 % of its nominal value, every rail of an earlier step has reached 90 %. -/
def powerOrderOk (mv : Rail → Nat) : Bool :=
  rails.all (fun r => rails.all (fun q =>
    match r.powerStep, q.powerStep, r.data.nominalMv, q.data.nominalMv with
    | some a, some b, some n, some m => decide (a ≤ b) || decide (mv r * 10 ≤ n) || decide (m * 9 ≤ mv q * 10)
    | _, _, _, _ => true))

/-- Ramp of a rail from 10 % to 90 %, in µs (R471). -/
def rampUs : Nat × Nat := (100, 10000)

/-! ## The ball map (R462 to R467, Tables 18.1 to 18.5) -/

/-- What a ball carries: a signal of a numbered group, a supply, ground, or nothing. -/
inductive Ball where
  | signal (group : String) (index : Nat) (pin : String)
  | supply (r : Rail)
  | vss
  | rsv
  deriving DecidableEq, Repr

/-- Letters of the 47 rows: A to Y, AA to AY, BA to BJ, without I, O, Q, R, S, X and Z. -/
def rowLetters : List String :=
  let l := ["A", "B", "C", "D", "E", "F", "G", "H", "J", "K", "L", "M", "N", "P", "T", "U", "V", "W", "Y"]
  l ++ l.map (fun x => "A" ++ x) ++ (l.take 9).map (fun x => "B" ++ x)

/-- Table 18.2: what block row `r` holds at column +`c`. -/
def flashBlock (ch r c : Nat) : Ball :=
  let table : List (List String) := [
    ["DQ0", "DQ1", "DQS_T", "DQ2", "DQ3"], ["DQ4", "DQ5", "DQS_C", "DQ6", "DQ7"], ["RE_T", "RE_C", "", "WE_N", "CLE"],
    ["ALE", "WP_N", "", "CE_N0", "CE_N1"], ["CE_N2", "CE_N3", "CE_N4", "CE_N5", "CE_N6"], ["CE_N7", "RB_N0", "", "RB_N1", "RB_N2"],
    ["RB_N3", "RB_N4", "RB_N5", "RB_N6", "RB_N7"]]
  if r = 3 ∧ c = 3 then .vss
  else if (r = 4 ∨ r = 6) ∧ c = 3 then .supply .vccqFl
  else .signal "FL" ch ((table.getD (r - 1) []).getD (c - 1) "")

/-- A flash band: block row `r` at `col`, for the channels from `first` on. -/
def flashBand (first r col : Nat) : Ball :=
  if col % 6 = 0 then (if r % 2 = 1 then .supply .vccqFl else .vss) else flashBlock (first + col / 6) r (col % 6)

/-- The five balls of a lane, from the outer edge inwards. -/
def laneBall (group : String) (lane : Nat) (k : Nat) : Ball :=
  match k with
  | 1 => .signal group lane "TX_P" | 2 => .signal group lane "TX_N" | 4 => .signal group lane "RX_P" | 5 => .signal group lane "RX_N" | _ => .vss

/-- The row is one of a PCIe lane. -/
def laneRow (row : Nat) : Bool := decide (8 ≤ row) && decide (row ≤ 29) && decide ((row - 8) % 3 = 0)

/-- Left edge: `k` is the column. -/
def leftEdge (row k : Nat) : Ball :=
  if laneRow row then laneBall "PEA" ((row - 8) / 3) k
  else if row = 32 then (match k with | 1 => .signal "REFCLK" 0 "P" | 2 => .signal "REFCLK" 0 "N" | 4 => .signal "PERST_A" 0 "N" | _ => .vss)
  else if row = 33 then laneBall "FP" 0 k
  else if row = 35 then laneBall "FP" 1 k
  else if row = 37 then laneBall "FP" 2 k
  else if row = 39 then laneBall "FP" 3 k
  else .vss

/-- Right edge: `k` counts from column 47 inwards. -/
def rightEdge (row k : Nat) : Ball :=
  if laneRow row then laneBall "PEB" ((row - 8) / 3) k
  else if row = 32 ∧ k = 4 then .signal "PERST_B" 0 "N"
  else .vss

/-- Table 18.3: an xSPI port; `r` is the port row and `k` the column. -/
def xspiBall (group : String) (n r k : Nat) : Ball :=
  let name := (["CLK", "", "DS", "CS_N", "IO0", "IO1", "IO2", "IO3", "IO4", "IO5", "IO6", "IO7"] : List String).getD (4 * r + k) ""
  if r = 3 then (if k = 0 then .signal group n (if group = "XT" then "CLIENT_RST_N" else "RST_N") else .vss)
  else if name = "" then .vss
  else .signal group n name

/-- Left inner region, `k` = 0 to 3 (R465). -/
def leftInner (row k : Nat) : Ball :=
  if row ≤ 23 then xspiBall "XT" ((row - 8) / 4) ((row - 8) % 4) k
  else if row ≤ 27 then xspiBall "XH" 0 (row - 24) k
  else if row ≤ 35 then .signal "GPIO" (4 * (row - 28) + k) ""
  else if row ≤ 39 then .signal "DREQ" (4 * (row - 36) + k) ""
  else .signal "I2C" (k / 2) (if k % 2 = 0 then "SCL" else "SDA")

/-- Right inner region (R465, Table 18.4). -/
def rightInner (row k : Nat) : Ball :=
  let named := fun (l : List String) => if l.getD k "" = "" then Ball.vss else .signal (l.getD k "") 0 ""
  if row ≤ 23 then xspiBall "XT" (4 + (row - 8) / 4) ((row - 8) % 4) k
  else if row ≤ 27 then xspiBall "XH" 1 (row - 24) k
  else if row ≤ 31 then .signal "DACK" (4 * (row - 28) + k) ""
  else match row with
    | 32 => .signal "UART" (k / 2) (if k % 2 = 0 then "TX" else "RX")
    | 33 => named ["TCK", "TMS", "TDI", "TDO"]
    | 34 => named ["TRST_N", "PPS_IN", "PPS_OUT", ""]
    | 35 => named ["PFAIL_N", "QUENCH_DONE", "SAFE_ERR", "SAFE_ERR_N"]
    | 36 => named ["WDOG_KICK", "WDOG_OUT_N", "BANK_SENSE_P", "BANK_SENSE_N"]
    | 37 => if k = 2 then .supply .vbat else named ["XTAL32K_IN", "XTAL32K_OUT", "", ""]
    | _ => .rsv

/-- The core region (R466). -/
def coreBall (row col : Nat) : Ball :=
  if col = 10 ∨ col = 38 then .supply (if row ≤ 31 then .sd else .io18)
  else if col = 11 ∨ col = 37 then
    (if row ≤ 23 then .supply .sdh else if row ≤ 32 then .supply .io18 else if row ≤ 38 then .supply .io33 else .vss)
  else if (row + col) % 2 = 0 then .vss
  else if row ≤ 10 ∨ 38 ≤ row then .supply .sram
  else .supply .core

/-- The ball at a row and a column, both from 1 to 47 (Table 18.1). -/
def ballAt (row col : Nat) : Ball :=
  if row ≤ 7 then flashBand 0 row col
  else if 41 ≤ row then flashBand 8 (48 - row) col
  else if col ≤ 5 then leftEdge row col
  else if col ≤ 9 then leftInner row (col - 6)
  else if col ≤ 38 then coreBall row col
  else if col ≤ 42 then rightInner row (col - 39)
  else rightEdge row (48 - col)

/-- Every ball of the array, row after row. -/
def allBalls : List Ball := (List.range 47).flatMap (fun r => (List.range 47).map (fun c => ballAt (r + 1) (c + 1)))

def Ball.isSignal : Ball → Bool
  | .signal .. => true
  | _ => false

/-! ## Pins (R468, Table 18.6) -/

/-- What a pin shows from power-up on, as Table 18.6 gives it. -/
inductive PinStart where
  | low | high | highZ | asserted | input | electricalIdle
  deriving DecidableEq, Repr

/-- The board's resistor on a pin: pull-up or pull-down, in Ω. -/
inductive Pull where
  | none
  | up (ohm : Nat)
  | down (ohm : Nat)
  /-- Sized by the board. -/
  | upSized
  deriving DecidableEq, Repr

structure PinGroup where
  pins : String
  rails : List Rail
  start : PinStart
  pull : Pull
  deriving DecidableEq, Repr

def pinGroups : List PinGroup := [
  ⟨"PEA, PEB, FP lanes", [.sd, .sdh], .electricalIdle, .none⟩, ⟨"REFCLK", [.sdh], .input, .none⟩, ⟨"PERST_N", [.io33], .input, .none⟩,
  ⟨"FL CE_N", [.vccqFl], .high, .up 10000⟩, ⟨"FL WP_N", [.vccqFl], .low, .down 10000⟩, ⟨"FL WE_N", [.vccqFl], .high, .none⟩,
  ⟨"XT CLIENT_RST_N", [.io18], .low, .down 10000⟩, ⟨"XT IO, DS", [.io18], .highZ, .none⟩] ++ [
  ⟨"XH RST_N", [.io18], .low, .none⟩, ⟨"XH CS_N", [.io18], .high, .up 10000⟩, ⟨"GPIO, DREQ", [.io33], .input, .none⟩,
  ⟨"DACK", [.io33], .low, .none⟩, ⟨"UART TX", [.io33], .high, .none⟩, ⟨"I2C", [.io33], .highZ, .upSized⟩, ⟨"PFAIL_N", [.io33], .input, .none⟩,
  ⟨"QUENCH_DONE", [.io33], .low, .down 10000⟩] ++ [
  ⟨"SAFE_ERR, SAFE_ERR_N", [.io33], .asserted, .down 10000⟩, ⟨"WDOG_KICK", [.io33], .low, .none⟩, ⟨"WDOG_OUT_N", [.io33], .highZ, .upSized⟩,
  ⟨"BANK_SENSE", [.io18], .input, .none⟩, ⟨"TCK, TMS, TDI, TDO, TRST_N", [.io33], .input, .none⟩]

/-! ## Power (R23, R473, Tables 1.7 and 18.8) -/

/-- Typical and maximum power of a mode in µW; in Backup, µA drawn from VBAT. -/
def Mode.powerUw : Mode → Nat × Nat
  | .off => (0, 0)
  | .backup => (5, 15)
  | .boot => (1800000, 3000000)
  | .load => (5500000, 9000000)
  | .provision | .diagnostic => (14000000, 34000000)
  | .rebuild => (12000000, 20000000)
  | .service | .degraded | .update => (24000000, 34000000)
  | .quench => (9500000, 11000000)
  | .hold => (300000, 500000)

/-- Table 1.7: typical, maximum and Quench maximum of each group of subsystems, in mW. -/
def subsystemMw : List (String × Nat × Nat × Nat) := [
  ("ENG, PFU", 8000, 12000, 300), ("YRD, CPL", 3200, 4400, 2400), ("MV", 1600, 2400, 1600), ("FC", 3600, 5000, 4400), ("ECX", 2000, 3200, 1200),
  ("HPC", 2400, 3000, 300), ("FLD", 1400, 1800, 100), ("LPC", 400, 600, 100), ("MGP", 600, 700, 200), ("QE, SCH", 400, 500, 100),
  ("TRU", 200, 200, 100), ("MM, LQ, PSV, TMR, FCS, MBX, TOP", 200, 200, 200)]

/-! ## Electrical limits (R474 to R479, Tables 18.9 to 18.11) -/

/-- Limits of the 3.3 V pins in mV (Table 18.9). -/
structure DcLimits where
  vih : Nat
  vil : Nat
  voh : Nat
  vol : Nat
  outOhm : Nat
  leakUa : Nat
  capPf : Nat
  deriving DecidableEq, Repr

def dc33 : DcLimits := ⟨2000, 800, 2400, 400, 40, 10, 5⟩

/-- The 1.8 V pins, at `mv` on VDD_IO18. -/
def dc18 (mv : Nat) : DcLimits := ⟨mv * 65 / 100, mv * 35 / 100, mv - 450, 450, 35, 10, 3⟩

/-- Timing of an xSPI target port in ps (Table 18.10): the clock's period, CS_N setup and hold, CS_N high between commands, input setup and
hold, and CS_N high to outputs high-impedance. -/
structure XtTiming where
  period : Nat
  csSetup : Nat
  csHold : Nat
  csHigh : Nat
  setup : Nat
  hold : Nat
  release : Nat
  deriving DecidableEq, Repr

def xtOctal : XtTiming := ⟨5000, 3000, 3000, 10000, 600, 600, 6000⟩
def xtSingle : XtTiming := ⟨7500, 3000, 3000, 10000, 2000, 2000, 6000⟩

/-- Octal: clock edge to DS edge, DS edge to data; single: clock edge to output valid; in ps. -/
def xtDsDelay : Nat × Nat := (1000, 5000)
def xtDsSkew : Nat := 400
def xtOutputValid : Nat := 6000

/-- Voltage that BANK_SENSE reports for a bank at `mv` behind a divider of `x1000`/1000: readings above 1.0 V count as 1.0 V (R478). -/
def senseMv (mv x1000 : Nat) : Nat := min (mv * 1000 / x1000) 1000 * x1000 / 1000

/-- REFCLK in Hz with its tolerance in ppm, and the crystal of the backup domain (R479). -/
def refclk : Nat × Nat := (100000000, 100)
def crystalHz : Nat := 32768

/-! ## Package and heat (R480, R481, Table 18.12) -/

structure PackageData where
  bodyUm : Nat
  balls : Nat
  pitchUm : Nat
  ballUm : Nat
  heightUm : Nat
  massG : Nat
  deriving DecidableEq, Repr

def packageData : PackageData := ⟨47500, 2209, 1000, 600, 3650, 18⟩

/-- Junction limits in °C, and θJC, θJB and ψJT in m°C/W. -/
def junctionC : Int × Int := (-40, 110)
def thermal : Nat × Nat × Nat := (80, 1800, 50)

end Sys2Proof.Machine
end

