-- ==== Sys2Proof/WellFormed.lean ====
section
/-! DEFINITION. Which commands name objects that exist: the ranges of the numbers a command carries. A command outside them names nothing
the part has, so nothing can send it. -/
namespace Sys2Proof

/-! ## Ranges -/

/-- A host function: 0 to 3 of port A, 4 to 7 of port B. -/
def okFn (n : Nat) : Bool := decide (n < 8)
def okMid (n : Nat) : Bool := decide (n < 64)
def okSq (n : Nat) : Bool := decide (n < 4096)
def okCq (n : Nat) : Bool := decide (n < 2048)
def okEng (n : Nat) : Bool := decide (n < 1152)
def okCl (n : Nat) : Bool := decide (n < 16)
def okMv (n : Nat) : Bool := decide (n < 64)
def okMvCh (n : Nat) : Bool := decide (n < 16)
def okLun (n : Nat) : Bool := decide (n < 512)
def okCell (n : Nat) : Bool := decide (n < 4096)
def okMbx (n : Nat) : Bool := decide (n < 256)
def okTimer (n : Nat) : Bool := decide (n < 64)
/-- Slot tables, the transmit window among them. -/
def okTable (n : Nat) : Bool := decide (n < 18)
def okArb (n : Nat) : Bool := decide (n < 116)
def okBarrier (n : Nat) : Bool := decide (n < 256)
def okXt (n : Nat) : Bool := decide (n < 8)
def okField (n : Nat) : Bool := decide (n < 4)
/-- One of two host ports, UARTs or I²C ports. -/
def okPair (n : Nat) : Bool := decide (n < 2)
def okLine16 (n : Nat) : Bool := decide (n < 16)
def okPort32 (n : Nat) : Bool := decide (n < 32)
def okOrder (n : Nat) : Bool := decide (n < 5)
def okClk (n : Nat) : Bool := decide (n < 7)
def okRail (n : Nat) : Bool := decide (0x10 ≤ n) && decide (n ≤ 0x16)
def okSlot (n : Nat) : Bool := decide (n < 4)
def okSrc (n : Nat) : Bool := decide (n = 1) || decide (n = 2)
def okDetail (n : Nat) : Bool := decide (1 ≤ n) && decide (n ≤ 3)
/-- The pages a write reaches: a function's BAR0, BAR2 and BAR4, and its configuration space under the number 7. -/
def okBar (n : Nat) : Bool := decide (n = 0) || decide (n = 2) || decide (n = 4) || decide (n = 7)
/-- A 32-bit register offset. -/
def okOff (n : Nat) : Bool := decide (n % 4 = 0) && decide (n < 0x1000000)
def okVec (n : Nat) : Bool := decide (n < 256)
def okByte (n : Nat) : Bool := decide (n < 256)
def okWord16 (n : Nat) : Bool := decide (n < 65536)
/-- A measured voltage in mV. -/
def okMv16 (n : Nat) : Bool := decide (n < 65536)
/-- A port that can be a sideband. -/
def okSideband (n : Nat) : Bool := [0x30, 0x31, 0x38, 0x39].contains n
def okDesc (b : List Byte) : Bool := decide (b.length = 32)
def okEngs (l : List Nat) : Bool := l.all okEng
def okMovers (l : List Nat) : Bool := l.all okMv
def okChans (l : List Nat) : Bool := l.all okCl
def okSamples (l : List Nat) : Bool := l.all okMv16
/-- A LUN with the 22 bytes of what it answered: its Read ID and its parameter page (log 108). -/
def okLunIds (l : List (Nat × List Byte)) : Bool := l.all (fun x => okLun x.1 && decide (x.2.length = 22))
def okProbes (l : List LunProbe) : Bool := l.all (fun x => okLun x.lun && decide (x.id.length = 6))
def okReports (l : List ExtReport) : Bool := l.all (fun x => okWord16 x.cls && okByte x.kind)
def okNor (x : Option NorImage) : Bool := match x with | some y => decide (y.fwSig ≤ 7) && decide (y.ucSig ≤ 7) | none => true

def QRef.ok : QRef → Bool
  | .io n => okSq n
  | .adm fn => okFn fn

/-- The command names objects that exist. -/
def Instr.wf : Instr → Bool
  | .sqTailDoorbell fn off _ => okFn fn && okOff off
  | .cqHeadDoorbell fn off _ => okFn fn && okOff off
  | .sqEntryFetch q _ => q.ok
  | .ownReread q _ => q.ok
  | .sqOwnTimeout q => q.ok
  | .admitStart sq _ => okSq sq
  | .seatFreedPlacement sq => okSq sq
  | .resumeEntry sq => okSq sq
  | .haltHoldEntry sq => okSq sq
  | .haltEntry sq => okSq sq
  | .sqEnableWrite fn n _ => okFn fn && okSq n
  | .haltAll fn n _ => okFn fn && okSq n
  | .aqEnable fn _ => okFn fn
  | .completionPost q => q.ok
  | .heldCompletionPost cq => okCq cq
  | .msixCoalesceTimeout cq => okCq cq
  | .cqStalled cq => okCq cq
  | .adminEventPost fn => okFn fn
  | .ccwFetch e _ => okEng e
  | .nop e => okEng e
  | .tic e _ => okEng e
  | .loop e => okEng e
  | .branch e => okEng e
  | .wait e => okEng e
  | .waitLimitExpiry e => okEng e
  | .deviceTimeWaitDone e => okEng e
  | .signalDoorbell e => okEng e
  | .signalInterrupt e => okEng e
  | .signalMailboxWord e _ => okEng e
  | .signalBarrierArrival e => okEng e
  | .signalRequestAcknowledge e => okEng e
  | .suspend e => okEng e
  | .halt e => okEng e
  | .postNotice e => okEng e
  | .postStatusWord e _ => okEng e
  | .call e => okEng e
  | .ret e => okEng e
  | .move e _ => okEng e
  | .append e _ => okEng e
  | .readStream e _ => okEng e
  | .regionWrite e _ => okEng e
  | .regionRead e _ => okEng e
  | .vaultRead e _ => okEng e
  | .portOut e _ => okEng e
  | .portIn e _ => okEng e
  | .fill e _ => okEng e
  | .setg e => okEng e
  | .addg e => okEng e
  | .loadg e _ => okEng e
  | .storeg e _ => okEng e
  | .testg e => okEng e
  | .seal e => okEng e
  | .trim e => okEng e
  | .sync e => okEng e
  | .syncComplete e => okEng e
  | .syncLimitExpiry e => okEng e
  | .sense e _ => okEng e
  | .landingChargeGrant _ _ => true
  | .stepTimeout e => okEng e
  | .deadlineExpiry e => okEng e
  | .selftestTurn c => okCl c
  | .selftestComplete c _ => okCl c
  | .clusterGate c => okCl c
  | .clusterWake c => okCl c
  | .clusterWakeReady c => okCl c
  | .barrierCfgWrite mid b _ => okMid mid && okBarrier b
  | .broadcast order _ => okOrder order
  | .broadcastComplete => true
  | .snapshotGo mid _ => okMid mid
  | .clusterReset c => okCl c
  | .clusterReady c failed => okCl c && okEngs failed
  | .descriptorWrite m ch d => okMv m && okMvCh ch && okDesc d
  | .descriptorComplete m ch _ => okMv m && okMvCh ch
  | .moverStallTimeout m ch => okMv m && okMvCh ch
  | .dreqRequest n => okLine16 n
  | .mvMove m _ => okMv m
  | .mvLoop m => okMv m
  | .mvWait m _ => okMv m
  | .mvSignal m => okMv m
  | .mvEnd m => okMv m
  | .lqReassign m => okMv m
  | .cplPush mid q _ => okMid mid && okCell q
  | .cplPop mid q => okMid mid && okCell q
  | .cplFlush mid q => okMid mid && okCell q
  | .cplReserveWrite mid q _ => okMid mid && okCell q
  | .frameStart => true
  | .slotStart t => okTable t
  | .arbiterHold arb kind unit _ => okArb arb && okByte kind && okWord16 unit
  | .boundVoidExpiry => true
  | .pageProgramComplete lun _ => okLun lun
  | .nandOpTimeout lun => okLun lun
  | .rowCloseTimeout _ => true
  | .fastLanePageProgram => true
  | .c0BoundMiss detail _ => okDetail detail
  | .annealTask => true
  | .scrubPeriod _ => true
  | .retentionRelease stream => okWord16 stream
  | .checkpointWrite => true
  | .landingLimitRecompute vbankMv => okMv16 vbankMv
  | .tripRecompute => true
  | .pulseStart vbankMv => okMv16 vbankMv
  | .pulseEnd samples => okSamples samples
  | .capPublish vbankMv => okMv16 vbankMv
  | .bankStale => true
  | .quenchArmCheck bad _ => okMovers bad
  | .armingTimeout => true
  | .quenchTrigger _ vbankMv => okMv16 vbankMv
  | .quenchSeal _ => true
  | .holdEntry _ vbankMv => okMv16 vbankMv
  | .holdExitReset => true
  | .supplyCollapse _ => true
  | .powerUp _ => true
  | .bootComplete xh0 xh1 => okNor xh0 && okNor xh1
  | .loadComplete luns failed => okLunIds luns && okChans failed
  | .rebuildComplete _ _ _ => true
  | .engineErrorLine e => okEng e
  | .heartbeatRequest missing => okEngs missing
  | .sourceCollected ext => okReports ext
  | .pairFault cls kind unit => okWord16 cls && okByte kind && okWord16 unit
  | .windowClose => true
  | .quietPeriodEnd => true
  | .fcsClearFirst mid _ => okMid mid
  | .mgpWatchdogExpiry => true
  | .lockstepMismatch => true
  | .mgpRestartTimeout => true
  | .wdogService _ => true
  | .iwdgExpiry => true
  | .landingScrub _ _ => true
  | .vaultPinScrub x _ => okXt x
  | .railOutOfRange rail => okRail rail
  | .clockFault clk => okClk clk
  | .createSq fn => okFn fn
  | .deleteSq fn => okFn fn
  | .createCq fn => okFn fn
  | .deleteCq fn => okFn fn
  | .createCrew fn => okFn fn
  | .deleteCrew fn => okFn fn
  | .bindSq fn => okFn fn
  | .createStream fn => okFn fn
  | .deleteStream fn => okFn fn
  | .setRetention fn => okFn fn
  | .createRegion fn => okFn fn
  | .deleteRegion fn => okFn fn
  | .vaultInstall fn _ _ => okFn fn
  | .vaultActivate fn => okFn fn
  | .pinWindow fn => okFn fn
  | .loadProgram fn _ => okFn fn
  | .invalidatePrograms fn => okFn fn
  | .slotTableWrite fn _ => okFn fn
  | .slotTableSwap fn => okFn fn
  | .setWeights fn => okFn fn
  | .class0Contract fn => okFn fn
  | .propose fn _ => okFn fn
  | .ratify fn _ _ => okFn fn
  | .withdraw fn => okFn fn
  | .accessRules fn _ => okFn fn
  | .consentGroup fn => okFn fn
  | .rootHash fn _ => okFn fn
  | .rootRevoke fn => okFn fn
  | .deviceKeyRotate fn _ => okFn fn
  | .rollbackFloor fn => okFn fn
  | .vaultFloor fn => okFn fn
  | .lockedWrite fn => okFn fn
  | .yardPartition fn _ => okFn fn
  | .vendorTable fn _ => okFn fn
  | .provisionLock fn => okFn fn
  | .debugUnlock fn => okFn fn
  | .debugUnlockSignature slot _ => okSlot slot
  | .debugChallengeExpiry => true
  | .faultLogRead fn => okFn fn
  | .reintegrate fn _ => okFn fn
  | .setReaction fn => okFn fn
  | .energyStatus fn => okFn fn
  | .bankTest fn _ => okFn fn
  | .mediaCharacterise fn _ probes _ => okFn fn && okProbes probes
  | .clusterTest fn _ => okFn fn
  | .yardTest fn _ => okFn fn
  | .lunScan fn _ => okFn fn
  | .mediaReport fn => okFn fn
  | .portConfig fn _ => okFn fn
  | .timeSet fn => okFn fn
  | .timeDiscipline fn => okFn fn
  | .disciplineSample src port _ => okSrc src && okField port
  | .holdoverEntry => true
  | .modeRequestBoot fn => okFn fn
  | .modeRequestProvision fn => okFn fn
  | .modeRequestService fn => okFn fn
  | .modeRequestDiagnostic fn => okFn fn
  | .identify fn => okFn fn
  | .getTelemetry fn => okFn fn
  | .updateBegin fn => okFn fn
  | .updateStage fn _ _ _ => okFn fn
  | .updateFirmwareRestart fn _ => okFn fn
  | .updateCluster fn _ => okFn fn
  | .updateCommit fn _ => okFn fn
  | .updateAbandon fn _ => okFn fn
  | .commandLimitExpiry fn _ => okFn fn
  | .sidebandPacket port _ => okSideband port
  | .portReset port => okPair port
  | .flr fn => okFn fn
  | .dlDown port => okPair port
  | .dlUp port => okPair port
  | .msixUnmask fn vec => okFn fn && okVec vec
  | .frameReceive port _ => okField port
  | .fpLinkChange port _ => okField port
  | .fpCommitGateList e _ => okEng e
  | .gateListTakeEffect port => okField port
  | .fpLinkDownOrder e _ => okEng e
  | .fpLinkUpOrder e _ => okEng e
  | .dreqClearPending e _ => okEng e
  | .xtAssertHold e _ => okEng e
  | .xtRelease e _ => okEng e
  | .xtResetCycle e _ => okEng e
  | .xtCycleDone n _ => okXt n
  | .xtWindowFault n => okXt n
  | .uartFlush e _ => okEng e
  | .i2cBusRecovery e _ => okEng e
  | .gpioSet e _ => okEng e
  | .gpioClear e _ => okEng e
  | .gpioToggle e _ => okEng e
  | .gpioEdge line _ => okPort32 line
  | .xtRead n _ _ => okXt n
  | .xtPageProgram n _ _ => okXt n
  | .xtRecordAccepted n => okXt n
  | .xtErase n _ => okXt n
  | .xtReadId n => okXt n
  | .xtReadStatus n => okXt n
  | .xtReadSfdp n _ _ => okXt n
  | .xtWriteEnable n => okXt n
  | .xtWriteDisable n => okXt n
  | .xtVolatileConfigWrite n _ => okXt n
  | .captureEdge k => okLine16 k
  | .ppsOutPulse => true
  | .mbxTxCommit mid ch _ _ => okMid mid && okMbx ch
  | .mbxRxRead mid ch => okMid mid && okMbx ch
  | .mbxChannelCfg mid ch _ => okMid mid && okMbx ch
  | .mbxRxTimeout ch _ => okMbx ch
  | .tmrMatch t => okTimer t
  | .tmrCmpCommit mid t _ => okMid mid && okTimer t
  | .tmrIntCommit mid t _ => okMid mid && okTimer t
  | .streamSnapshot mid _ => okMid mid
  | .tallyLatch mid _ => okMid mid
  | .registerWrite mid bar off _ => okMid mid && okBar bar && (decide (bar = 7) || okOff off)
  | .consentExpiry _ => true
  | .mvWaitExpiry m => okMv m
  | .debugHalt => true
  | .debugHaltEnd => true
  | .vbatApplied => true
  | .vbatRemoved => true
  | .blockEraseComplete lun _ => okLun lun
  | .pageReadComplete lun => okLun lun
  | .frameTransmit port => okField port
  | .gclIntervalEnd port => okField port
  | .gptpMessageReceive port kind _ => okField port && okByte kind
  | .gptpIntervalTimeout port kind => okField port && okByte kind
  | .uartRxByte n _ => okPair n
  | .uartIdleGap n => okPair n
  | .dreqDeassert n => okLine16 n
  | .holdInputLoss _ vbankMv => okMv16 vbankMv
  | .pulseRecoveryTimeout vbankMv => okMv16 vbankMv
  | .retentionRefreshDue _ => true
  | .handoverWindowEnd c => okCl c
  | .clientRstMinElapsed n => okXt n

end Sys2Proof
end

