-- ==== Sys2Proof/Tests/Slice0.lean ====
section
/-! SUPPORT. Tests: ill-formed commands, a witness for the hypotheses of every statement, and single steps with the results
that the rules give. -/
set_option maxRecDepth 100000
set_option Elab.async false
namespace Sys2Proof.Tests
open Sys2Proof Sys2Proof.Machine

/-! ## Ill-formed commands: one that each check refuses -/

theorem test_wf_fn : Instr.wf (.identify 8) = false ∧ Instr.wf (.identify 7) = true := by decide
theorem test_wf_mid : Instr.wf (.streamSnapshot 64 0) = false ∧ Instr.wf (.streamSnapshot 63 0) = true := by decide
theorem test_wf_sq : Instr.wf (.seatFreedPlacement 4096) = false ∧ Instr.wf (.seatFreedPlacement 4095) = true := by decide
theorem test_wf_cq : Instr.wf (.cqStalled 2048) = false ∧ Instr.wf (.cqStalled 2047) = true := by decide
theorem test_wf_eng : Instr.wf (.nop 1152) = false ∧ Instr.wf (.nop 1151) = true := by decide
theorem test_wf_cl : Instr.wf (.clusterWake 16) = false ∧ Instr.wf (.clusterWake 15) = true := by decide
theorem test_wf_mv : Instr.wf (.mvEnd 64) = false ∧ Instr.wf (.mvEnd 63) = true := by decide
theorem test_wf_mvCh : Instr.wf (.moverStallTimeout 0 16) = false ∧ Instr.wf (.moverStallTimeout 0 15) = true := by decide
theorem test_wf_lun : Instr.wf (.pageReadComplete 512) = false ∧ Instr.wf (.pageReadComplete 511) = true := by decide
theorem test_wf_cell : Instr.wf (.cplPop 0 4096) = false ∧ Instr.wf (.cplPop 0 4095) = true := by decide
theorem test_wf_mbx : Instr.wf (.mbxRxRead 0 256) = false ∧ Instr.wf (.mbxRxRead 0 255) = true := by decide
theorem test_wf_timer : Instr.wf (.tmrMatch 64) = false ∧ Instr.wf (.tmrMatch 63) = true := by decide
theorem test_wf_table : Instr.wf (.slotStart 18) = false ∧ Instr.wf (.slotStart 17) = true := by decide
theorem test_wf_arb : Instr.wf (.arbiterHold 116 0 0 0) = false ∧ Instr.wf (.arbiterHold 115 255 65535 0) = true := by decide
theorem test_wf_barrier : Instr.wf (.barrierCfgWrite 0 256 0) = false ∧ Instr.wf (.barrierCfgWrite 0 255 0) = true := by decide
theorem test_wf_xt : Instr.wf (.xtErase 8 0) = false ∧ Instr.wf (.xtErase 7 0) = true := by decide
theorem test_wf_field : Instr.wf (.frameTransmit 4) = false ∧ Instr.wf (.frameTransmit 3) = true := by decide
theorem test_wf_pair : Instr.wf (.portReset 2) = false ∧ Instr.wf (.portReset 1) = true := by decide
theorem test_wf_line16 : Instr.wf (.dreqRequest 16) = false ∧ Instr.wf (.dreqRequest 15) = true := by decide
theorem test_wf_port32 : Instr.wf (.gpioEdge 32 true) = false ∧ Instr.wf (.gpioEdge 31 true) = true := by decide
theorem test_wf_order : Instr.wf (.broadcast 5 0) = false ∧ Instr.wf (.broadcast 4 0) = true := by decide
theorem test_wf_clk : Instr.wf (.clockFault 7) = false ∧ Instr.wf (.clockFault 6) = true := by decide
theorem test_wf_rail : Instr.wf (.railOutOfRange 0x0F) = false ∧ Instr.wf (.railOutOfRange 0x10) = true
    ∧ Instr.wf (.railOutOfRange 0x16) = true ∧ Instr.wf (.railOutOfRange 0x17) = false := by decide
theorem test_wf_slot : Instr.wf (.debugUnlockSignature 4 true) = false ∧ Instr.wf (.debugUnlockSignature 3 true) = true := by decide
theorem test_wf_src : Instr.wf (.disciplineSample 0 0 0) = false ∧ Instr.wf (.disciplineSample 1 3 0) = true
    ∧ Instr.wf (.disciplineSample 2 0 0) = true ∧ Instr.wf (.disciplineSample 3 0 0) = false := by decide
theorem test_wf_detail : Instr.wf (.c0BoundMiss 0 0) = false ∧ Instr.wf (.c0BoundMiss 3 0) = true ∧ Instr.wf (.c0BoundMiss 4 0) = false := by decide
theorem test_wf_bar : Instr.wf (.registerWrite 0 1 0 0) = false ∧ Instr.wf (.registerWrite 0 4 0 0) = true := by decide
theorem test_wf_off : Instr.wf (.sqTailDoorbell 0 2 0) = false ∧ Instr.wf (.sqTailDoorbell 0 0x1000000 0) = false
    ∧ Instr.wf (.registerWrite 0 0 2 0) = false ∧ Instr.wf (.registerWrite 0 7 0x11 0) = true := by decide
theorem test_wf_vec : Instr.wf (.msixUnmask 0 256) = false ∧ Instr.wf (.msixUnmask 0 255) = true := by decide
theorem test_wf_byte : Instr.wf (.gptpIntervalTimeout 0 256) = false ∧ Instr.wf (.gptpIntervalTimeout 0 255) = true := by decide
theorem test_wf_word16 : Instr.wf (.retentionRelease 65536) = false ∧ Instr.wf (.retentionRelease 65535) = true := by decide
theorem test_wf_mv16 : Instr.wf (.pulseStart 65536) = false ∧ Instr.wf (.pulseStart 65535) = true := by decide
theorem test_wf_pkt : Instr.wf (.sidebandPacket 0x32 []) = false ∧ Instr.wf (.sidebandPacket 0x30 []) = true
    ∧ Instr.wf (.sidebandPacket 0x39 [0xC0]) = true := by decide
theorem test_wf_desc : Instr.wf (.descriptorWrite 0 0 (List.replicate 31 0)) = false
    ∧ Instr.wf (.descriptorWrite 0 0 (List.replicate 32 0)) = true := by decide
theorem test_wf_queue : Instr.wf (.sqEntryFetch (.io 4096) .error) = false ∧ Instr.wf (.sqEntryFetch (.adm 8) .error) = false
    ∧ Instr.wf (.sqEntryFetch (.adm 7) .error) = true := by decide
theorem test_wf_lists : Instr.wf (.clusterReady 0 [1152]) = false ∧ Instr.wf (.quenchArmCheck [64] false) = false
    ∧ Instr.wf (.loadComplete [] [16]) = false ∧ Instr.wf (.pulseEnd [65536]) = false ∧ Instr.wf (.loadComplete [(0, [0])] []) = false
    ∧ Instr.wf (.loadComplete [(511, List.replicate 22 0)] [15]) = true := by decide

/-- The table gives no row bits, so no word spells a command. -/
theorem test_decode_none (nbits w : Nat) : decodeTableWord nbits w = none := rfl

/-! ## Small machines -/

/-- A part in mode Service. -/
def tS : State := { State.reset with top := { State.reset.top with mode := .service } }

/-- A word: opcode, flags, SPACE, MODE, COUNT, SUB, ADDR. -/
def wd (opc flags space mode count sub addr : Nat) : Ccw :=
  { opc := BitVec.ofNat 8 opc, flags := BitVec.ofNat 8 flags, space := BitVec.ofNat 4 space, mode := BitVec.ofNat 4 mode, rsv := 0,
    count := BitVec.ofNat 24 count, sub := BitVec.ofNat 8 sub, addr := BitVec.ofNat 64 addr, buf := none, bad := false }

/-- A queue of function 0 with completion queue 0. -/
def tSq : Sq :=
  { fn := 0, base := 0x1000, depth := 4, head := 0, tail := 0, phase := true, cqid := 0, c0 := false, v1 := false, noticesMax := 0, crew := some 0, en := true,
    spec := false, haltAll := [], halted := [], ownWait := none, stopped := false, dbErr := false, ownErr := false, rdErr := false, copy := none, staged := [], bells := [] }

def tCq : Cq :=
  { fn := 0, base := 0x2000, depth := 8, head := 0, tail := 0, phase := true, vector := 0, ivEn := false, icount := 0, itimeUs := 0, since := 0, firstAt := none,
    ready := [], held := [], stall := none, stalled := false, dbErr := false, c0Over := false, c0Full := false, stalls := 0 }

def tSqe : Sqe :=
  { opc := 1, cls := 2, nowait := false, hold := false, seed := false, space := 0, tag := 7, program := 0x4000, deadline := 0, seeds := [], hint := 0,
    own := true, reserved := false }

def tStaged : Staged := { sqe := tSqe, bell := 0, hdr := none, waiting := false, no := 0 }

/-- A class-2 program at 0x4000 of host memory, with the words `op` delivered. -/
def tP (op : List Ccw) : Prog := { newProg 1 0 0 2 tSq tStaged none with phase := .fetched, op := op }

/-- Program `p` on engine 0, its queues and crew in place. -/
def tOn (p : Prog) : State :=
  ({ tS with
      qe := { tS.qe with sqs := [(0, tSq)], cqs := [(0, tCq)] }
      eng := { tS.eng with crews := [(0, { owner := 0, cls := 2, mask := 1, seats := 1, shared := false, stepUs := 100, minMinor := 0, pinned := 1, lostIn := [] })] } } :
    State).updEngine 0 (fun g => { g with prog := some p })

/-- The hypotheses of a statement about a delivered word, as one test. -/
def here (s : State) (p : Prog) : Bool := decide (s.running 0 = some p ∧ p.phase = .fetched ∧ p.xf = none ∧ p.barred false = false)

theorem here_delivered (s : State) (p : Prog) (h : here s p = true) : Delivered s 0 p p.op := by
  have := of_decide_eq_true h
  exact ⟨this.1, this.2.1, rfl, this.2.2⟩

/-- Engine 0 stands at the word `w` of a class-2 program. -/
def atWord (w : Ccw) : Bool := here (tOn (tP [w])) (tP [w])

def okX (bs : List Byte) : Xfer := { data := bs, status := .ok, devstat := 0, busy := false }
def badX : Xfer := { data := [], status := .link, devstat := 0, busy := false }

/-- The machine at tick `n`: a tick is 10 ns of device time. -/
def later (s : State) (n : Nat) : State := { s with tick := n, tmr := { s.tmr with time := BitVec.ofNat 64 (n * 10) } }

/-- Function 0 can issue requests. -/
def tLink (s : State) : State := { s with hpc := { fns := [(0, { Fn.reset with bme := true })], ports := [(0, { HPort.reset with dlUp := true })] } }

/-! ## Witnesses: words (chapter 3) -/

theorem witness_WordChecksDecide_rows (x : Xfer) (r : Rd) (agree : Bool) :
    (Instr.nop 0, opcIs 0, fun (_ : State) (p : Prog) (w : Ccw) => zeroChecks p w false) ∈ wordRows 0 x r agree
    ∧ (Instr.loadg 0 x, opcIs 0x22, fun (s : State) (p : Prog) (w : Ccw) => s.regMemChecks p w false) ∈ wordRows 0 x r agree
    ∧ (Instr.postStatusWord 0 x, (fun w : Ccw => decide (w.opc = 8) && decide (w.sub = 1)), fun (s : State) (p : Prog) (w : Ccw) => s.statusChecks p w)
        ∈ wordRows 0 x r agree
    ∧ (Instr.fill 0 x, opcIs 0x18, fun (s : State) (p : Prog) (w : Ccw) => s.fillChecks p w) ∈ wordRows 0 x r agree := by
  simp [wordRows, controlRows, deviceRows, dataRows]

theorem witness_WordChecksDecide :
    (let w := wd 0 1 1 0 0 0 0; atWord w ∧ opcIs 0 w ∧ zeroChecks (tP [w]) w false = some (.ends Ending.programFault 0))
    ∧ (let w := wd 0 3 0 0 0 0 0; atWord w ∧ opcIs 0 w ∧ zeroChecks (tP [w]) w false = some (.ends Ending.chainFault 0))
    ∧ (let w := wd 0 1 0 0 0 1 0; atWord w ∧ opcIs 0 w ∧ zeroChecks (tP [w]) w false = some .undef)
    ∧ (let w := wd 0x22 1 2 0 3 0 0; atWord w ∧ opcIs 0x22 w ∧ (tOn (tP [w])).regMemChecks (tP [w]) w false = some (.ends Ending.programFault 0))
    ∧ (let w := wd 0x22 1 2 0 8 16 0; atWord w ∧ opcIs 0x22 w ∧ (tOn (tP [w])).regMemChecks (tP [w]) w false = some .undef) := by
  decide +kernel

/-- A program with a HOST write on its way. -/
def tUnacked (w : Ccw) : Prog := { tP [w] with unacked := true }
/-- The same, held by BAR. -/
def tBarred (w : Ccw) : Prog := { tUnacked w with phase := .bar }

theorem witness_WordChecksDecide_bar :
    (let w := wd 0 9 0 0 0 0 0; DeliveredUnacked (tOn (tUnacked w)) 0 (tUnacked w) [w] ∧ opcIs 0 w ∧ zeroChecks (tUnacked w) w false = none ∧ w.bar = true)
    ∧ (let w := wd 8 1 2 0 0 1 8; DeliveredUnacked (tOn (tUnacked w)) 0 (tUnacked w) [w] ∧ w.opc = 8 ∧ w.sub = 1 ∧ w.bar = false
      ∧ (tOn (tUnacked w)).statusChecks (tUnacked w) w = none)
    ∧ (let w := wd 0 9 0 0 0 0 0; let s := tOn (tBarred w); let u : Prog := { tBarred w with phase := .fetched, unacked := false }
      Stands s 0 (tBarred w) .bar ∧ (tBarred w).op = [w] ∧ (tBarred w).xf = none ∧ zeroChecks u w false = none
      ∧ Stands (tLink s) 0 (tBarred w) .bar ∧ (tLink s).canIssue 0 = true ∧ s.canIssue 0 = false) := by
  unfold DeliveredUnacked Stands
  decide +kernel

theorem witness_RegisterWordsRun :
    (let w := wd 0x20 1 0 0 0 15 0x55; atWord w ∧ (tP [w]).goesOn ∧ w.opc = 0x20
      ∧ ctlChecks (tP [w]) w (decide (w.space = 0)) (!w.plain false true false true || decide (15 < w.sub.toNat)) false [] = none)
    ∧ (let w := wd 0x21 1 0 1 0 0 15; atWord w ∧ w.opc = 0x21 ∧ ctlChecks (tP [w]) w (decide (w.space = 0)) (arithUndef w) false [] = none)
    ∧ (let w := wd 0x24 1 0 0 0 0 3; atWord w ∧ w.opc = 0x24 ∧ ctlChecks (tP [w]) w (decide (w.space = 0)) (arithUndef w) false [] = none)
    ∧ (let w := wd 0x22 1 2 0 8 0 (16 * kib - 8); atWord w ∧ w.opc = 0x22
      ∧ (tOn (tP [w])).regMemChecks (tP [w]) w false = none ∧ ((tP [w]).eff w).space = spLocal)
    ∧ (let w := wd 0x22 1 0 0 4 0 0x100
      atWord w ∧ w.opc = 0x22 ∧ (tOn (tP [w])).regMemChecks (tP [w]) w false = none ∧ ((tP [w]).eff w).space = spHost
      ∧ w.count.toNat ≤ (okX [1, 2, 3, 4]).data.length ∧ xferEnding badX.status true = some Ending.linkFault)
    ∧ (let w := wd 0x22 1 1 0 8 0 (yardSize - 8); let s := tOn (tP [w])
      atWord w ∧ w.opc = 0x22 ∧ s.regMemChecks (tP [w]) w false = none
      ∧ ((tP [w]).eff w).space = spYard ∧ s.yard.firstBad ((tP [w]).eff w).addr.toNat w.count.toNat = none
      ∧ (let t := { s with yard := { s.yard with bad := [yardSize - 8] } }
         here t (tP [w]) ∧ t.yard.firstBad ((tP [w]).eff w).addr.toNat w.count.toNat = some (yardSize - 8)))
    ∧ (let w := wd 0x23 1 2 0 8 0 0; atWord w ∧ w.opc = 0x23 ∧ (tOn (tP [w])).regMemChecks (tP [w]) w true = none
      ∧ ((tP [w]).eff w).space ≠ spHost)
    ∧ (let w := wd 0x23 1 0 0 8 0 0; atWord w ∧ w.opc = 0x23 ∧ (tOn (tP [w])).regMemChecks (tP [w]) w true = none
      ∧ ((tP [w]).eff w).space = spHost ∧ xferEnding badX.status true = some Ending.linkFault) := by
  unfold Prog.goesOn Prog.undisturbed
  decide +kernel


/-- Flags and register of the program on engine 0 after a command. -/
def progAfter (i : Instr) (s : State) : Option Prog :=
  match exec i s with
  | .next t => t.prog 0
  | _ => none

theorem test_addg_carry :
    (let w := wd 0x21 1 0 0 0 0 1
     let p := (tP [w]).setGp 0 0xFFFFFFFFFFFFFFFF
     (progAfter (.addg 0) (tOn p)).map (fun q => (q.getGp 0, q.z, q.n, q.c, q.steps, q.pc))) = some (0, true, false, true, 1, 0x4010) := by
  decide +kernel

theorem test_testg_lower :
    (let w := wd 0x24 1 0 0 0 3 5
     let p := (tP [w]).setGp 3 4
     (progAfter (.testg 0) (tOn p)).map (fun q => (q.getGp 3, q.z, q.n, q.c))) = some (4, false, true, true) := by
  decide +kernel

theorem witness_ControlWordsContinue :
    (let w := wd 0 1 0 0 0 0 0; atWord w ∧ w.opc = 0 ∧ zeroChecks (tP [w]) w false = none)
    ∧ (let w := wd 2 1 0 0 0 15 0x8000; ctlChecks (tP [w]) w (chainSpace w) (!chainPlain w true || decide (15 < w.sub.toNat)) false [] = none
      ∧ atWord w ∧ w.opc = 2 ∧ (tP [w]).getGp w.sub.toNat = 0
      ∧ (let p := (tP [w]).setGp 15 1; here (tOn p) p ∧ p.getGp w.sub.toNat = 1)
      ∧ (let p := (tP [w]).setGp 15 2; here (tOn p) p ∧ p.getGp w.sub.toNat = 2 ∧ p.target w = some 0x8000))
    ∧ (let w := wd 2 1 1 0 0 15 0x8000; ctlChecks (tP [w]) w (chainSpace w) (!chainPlain w true || decide (15 < w.sub.toNat)) false [] = none
      ∧ (let p := (tP [w]).setGp 15 2; here (tOn p) p ∧ p.target w = none))
    ∧ (let w := wd 3 1 0 0 0 1 0x8000; ctlChecks (tP [w]) w (chainSpace w) (!chainPlain w true || decide (8 < w.sub.toNat)) false [] = none
      ∧ atWord w ∧ w.opc = 3 ∧ (tP [w]).cond w.sub.toNat = false)
    ∧ (let w := wd 3 0 0 0 0 8 0x8000; ctlChecks (tP [w]) w (chainSpace w) (!chainPlain w true || decide (8 < w.sub.toNat)) false [] = none
      ∧ atWord w ∧ (tP [w]).cond w.sub.toNat = true ∧ (tP [w]).target w = some 0x8000)
    ∧ (let w := wd 3 0 1 0 0 8 0x8000; ctlChecks (tP [w]) w (chainSpace w) (!chainPlain w true || decide (8 < w.sub.toNat)) false [] = none
      ∧ atWord w ∧ (tP [w]).cond w.sub.toNat = true ∧ (tP [w]).target w = none)
    ∧ (let w := wd 9 0 1 0 0 0 0x8000; atWord w ∧ w.opc = 9 ∧ (tP [w]).stack.length < 4 ∧ (tP [w]).target w = none
      ∧ ctlChecks (tP [w]) w (chainSpace w) (!chainPlain w false) false [] = none)
    ∧ (let w := wd 0x0A 0 0 0 0 0 0; let p := { tP [w] with stack := [0x4040] }
      here (tOn p) p ∧ w.opc = 0x0A ∧ zeroChecks p w false = none) := by
  decide +kernel

theorem witness_ControlWordsContinue_complete :
    (let w := wd 0 1 0 0 0 0 0; let s := tOn (tP [w]); s.prog 0 = some (tP [w]) ∧ (tP [w]).chan = none) := by
  decide +kernel

/-- A line of NOPs, and one whose first word is a TIC. -/
def lineNops : List Byte := List.replicate 64 0
def lineTic : List Byte := 1 :: List.replicate 63 0

theorem witness_ControlWordsContinue_tic :
    (let w := wd 1 0 0 0 0 0 0x8000; let s := tOn (tP [w])
     here s (tP [w]) ∧ w.opc = 1 ∧ ctlChecks (tP [w]) w (chainSpace w) (!chainPlain w false) false [] = none ∧ (tP [w]).target w = some 0x8000
     ∧ (match s.fetchLine 0 (tP [w]) 0x8000 [(lineOf 0x8000, .data lineNops)] with | .line l _ => decide (leAt (l.drop (0x8000 % 64)) 0 1 ≠ 1) | _ => false) = true
     ∧ (match s.fetchLine 0 (tP [w]) 0x8000 [(lineOf 0x8000, .data lineTic)] with | .line l _ => decide (leAt (l.drop (0x8000 % 64)) 0 1 = 1) | _ => false) = true
     ∧ (match s.fetchLine 0 (tP [w]) 0x8000 [(lineOf 0x8000, .error)] with | .error _ => true | _ => false) = true)
    ∧ (let w := wd 1 0 1 0 0 0 0x8000; atWord w ∧ ctlChecks (tP [w]) w (chainSpace w) (!chainPlain w false) false [] = none ∧ (tP [w]).target w = none) := by
  decide +kernel

theorem witness_CallStackHoldsFour :
    (let w := wd 9 0 0 0 0 0 0x8000
     ctlChecks (tP [w]) w (chainSpace w) (!chainPlain w false) false [] = none ∧ (tP [w]).target w = some 0x8000
     ∧ (let p := { tP [w] with stack := [1, 2, 3] }; here (tOn p) p ∧ p.stack.length < 4 ∧ p.undisturbed)
     ∧ (let p := { tP [w] with stack := [1, 2, 3, 4] }; here (tOn p) p ∧ 4 ≤ p.stack.length))
    ∧ (let w := wd 0x0A 0 0 0 0 0 0; here (tOn (tP [w])) (tP [w]) ∧ (tP [w]).stack = []
      ∧ zeroChecks (tP [w]) w false = none) := by
  unfold Prog.undisturbed
  decide +kernel

theorem witness_HaltAndSuspend :
    (let w := wd 7 0 0 0 0 1 0; atWord w ∧ w.opc = 7
      ∧ ctlChecks (tP [w]) w (decide (w.space = 0)) (!w.plain false true false false || decide (1 < w.sub.toNat)) false [] = none)
    ∧ (let w := wd 6 1 0 0 0 0 0; atWord w ∧ w.opc = 6 ∧ zeroChecks (tP [w]) w (decide ((tP [w]).cls ≤ 1)) = none
      ∧ (let p := { tP [w] with cls := 1 }; here (tOn p) p ∧ p.cls ≤ 1 ∧ w.reservedBits = false ∧ w.plain false false false false = true)) := by
  decide +kernel

/-- The status of the newest completion that is ready on completion queue 0. -/
def statusAfter (i : Instr) (s : State) : Option (BitVec 16) :=
  match exec i s with
  | .next t => (t.cq 0).bind (fun q => q.ready.getLast?.map (fun w => w.cqe.status))
  | _ => none

theorem test_halt_ends : statusAfter (.halt 0) (tOn (tP [wd 7 0 0 0 0 0 0])) = some Status.success := by decide +kernel
theorem test_suspend_posts : statusAfter (.suspend 0) (tOn (tP [wd 6 1 0 0 0 0 0])) = some Status.suspended := by decide +kernel
theorem test_suspend_class1 : statusAfter (.suspend 0) (tOn { tP [wd 6 1 0 0 0 0 0] with cls := 1 }) = some Status.programFault := by decide +kernel

/-- Completion queue 0 with `n` notices of engine 0 held. -/
def withNotes (s : State) (n : Nat) : State :=
  let w : Waiting := { cqe := { tag := 0, sqid := 0, status := 1, body := 0, time := 0 }, src := .note 0, groups := [], pid := 0, bell := none }
  s.updCq 0 (fun q => { q with held := List.replicate n w })

theorem witness_PostWordsRun :
    (let w := wd 8 1 0 0 5 0 0
     ctlChecks (tP [w]) w (decide (w.space = 0)) (!w.plain false false true false) false [] = none ∧ w.opc = 8 ∧ w.sub = 0
     ∧ (let p := { tP [w] with cls := 0 }; let s := tOn p
        here s p ∧ s.notesHeld 0 p.cqid < 4 ∧ ctlChecks p w (decide (w.space = 0)) (!w.plain false false true false) false [] = none
        ∧ p.cls = 0 ∧ s.noticesMax p ≤ p.notices)
     ∧ (let p := { tP [w] with cls := 0 }; let s := (tOn p).updSq 0 (fun q => { q with noticesMax := 3 }); here s p ∧ p.notices < s.noticesMax p)
     ∧ (let s := withNotes (tOn (tP [w])) 4; here s (tP [w]) ∧ 4 ≤ s.notesHeld 0 (tP [w]).cqid)
     ∧ (let s := withNotes (tOn (tP [w])) 3; here s (tP [w]) ∧ (tP [w]).cls ≠ 0 ∧ s.notesHeld 0 (tP [w]).cqid < 4))
    ∧ (let w := wd 8 1 2 0 0 1 0x3FF8; atWord w ∧ w.sub = 1 ∧ w.space.toNat ≠ spHost ∧ (tOn (tP [w])).statusChecks (tP [w]) w = none ∧ (tP [w]).unacked = false)
    ∧ (let w := wd 8 1 0 0 0 1 0x3FF8; atWord w ∧ w.space.toNat = spHost ∧ (tOn (tP [w])).statusChecks (tP [w]) w = none
      ∧ xferEnding badX.status true = some Ending.linkFault) := by
  decide +kernel

/-- Channel 0 joins the engines of function 0 and the MGP; barrier 0 belongs to function 0 on cluster 0. -/
def tChan (s : State) (n : Nat) : State :=
  s.updMchan 0 (fun c => { c with en := true, e0 := { c.e0 with kind := kindEngine, mid := 0 }, e1 := { c.e1 with kind := kindMgp, mid := 0x10 }
                                  q01 := List.replicate n { value := 1, mid := 0 } })


def tBar (s : State) : State := s.updBar 0 (fun b => { b with count := 1, owner := 0, enable := true, mask := 1 })

theorem witness_SignalWordsAct :
    (let w := wd 5 1 0 0 0 1 0x300000000; let s := tOn (tP [w]); atWord w ∧ w.opc = 5 ∧ w.sub = 1
      ∧ signalChecks (tP [w]) w (decide (fld w.addr 12 20 ≠ 0) || decide (fld w.addr 48 16 ≠ 0))
          (badIf (match s.sq (fld w.addr 0 12) with | some q => decide (q.fn ≠ (tP [w]).fn) | none => true) Ending.protectionFault 0) = none)
    ∧ (let w := wd 5 1 0 0 0 2 255; atWord w ∧ w.sub = 2 ∧ signalChecks (tP [w]) w (decide (fld w.addr 8 56 ≠ 0)) none = none)
    ∧ (let w := wd 5 1 0 0 0 3 0xF00; let p := tP [w]
      let chk := fun (s : State) => signalChecks p w (decide (fld w.addr 12 52 ≠ 0)) (badIf (s.engineEnd (fld w.addr 0 8) p.mid).isNone Ending.protectionFault 0)
      (let s := tChan (tOn p) 7; here s p ∧ w.sub = 3 ∧ chk s = none ∧ s.engineEnd (fld w.addr 0 8) p.mid = some false
        ∧ ((s.mchan (fld w.addr 0 8)).side false).aborted = false ∧ ((s.mchan (fld w.addr 0 8)).outq false).length < mbxDepth)
      ∧ (let s := tChan (tOn p) 8; here s p ∧ chk s = none ∧ s.engineEnd (fld w.addr 0 8) p.mid = some false
        ∧ ((s.mchan (fld w.addr 0 8)).side false).aborted = false ∧ mbxDepth ≤ ((s.mchan (fld w.addr 0 8)).outq false).length)
      ∧ (let s := (tChan (tOn p) 8).updMchan 0 (fun c => c.updSide false (fun m => { m with aborted := true }))
        here s p ∧ chk s = none ∧ s.engineEnd (fld w.addr 0 8) p.mid = some false ∧ ((s.mchan (fld w.addr 0 8)).side false).aborted = true))
    ∧ (let w := wd 5 1 0 0 0 4 0; let s := tBar (tOn (tP [w])); here s (tP [w]) ∧ w.sub = 4
      ∧ signalChecks (tP [w]) w (decide (fld w.addr 8 56 ≠ 0)) (s.arrivalChecks 0 (tP [w]) (fld w.addr 0 8)) = none)
    ∧ (let w := wd 5 1 0 0 0 5 15; atWord w ∧ w.sub = 5 ∧ signalChecks (tP [w]) w (decide (fld w.addr 4 60 ≠ 0)) none = none) := by
  decide +kernel

theorem test_signal_doorbell_tail :
    (let w := wd 5 1 0 0 0 1 0x300000000
     match exec (.signalDoorbell 0) (tOn (tP [w])) with
     | .next t => (t.sq 0).map (fun q => q.tail)
     | _ => none) = some 3 := by decide +kernel

/-- Engine 0 at the WAIT word `w` on a part in which `f` has set up what it waits for, and its checks. -/
def atWait (f : State → State) (w : Ccw) : Bool :=
  let s := (f (tOn (tP [w]))).updCluster 0 (fun c => { c with minor := 1 })
  here s (tP [w]) && decide (w.opc = 4) && decide (s.waitChecks 0 (tP [w]) w = none)

theorem witness_WaitWordsWait :
    atWait (fun s => s.updTimer 3 (fun t => { t with ctrl := 0 })) (wd 4 1 0 1 1 1 3)
    ∧ (let w := wd 4 1 0 0 1 2 15; atWait id w ∧ (tOn (tP [w])).takeDreq 15 = none
      ∧ (let f := fun (s : State) => s.updDreq 15 (fun d => { d with pending := 1 }); atWait f w ∧ ((f (tOn (tP [w]))).takeDreq 15).isSome = true))
    ∧ (let w := wd 4 1 0 0 1 3 0x100; let mid := (tP [w]).mid
      let f := fun (s : State) => (tChan s 0).updMchan 0 (fun c => { c with q10 := [{ value := 1, mid := 0x10 }] })
      let g := fun (s : State) => (tChan s 0).updMchan 0 (fun c => c.updSide false (fun m => { m with aborted := true }))
      atWait (fun s => tChan s 0) w ∧ (tChan tS 0).engineEnd 0 mid = some false ∧ ((tChan tS 0).mbxTake 0 false).1 = none
      ∧ atWait f w ∧ (f tS).engineEnd 0 mid = some false ∧ ((f tS).mbxTake 0 false).1 = some { value := 1, mid := 0x10 }
      ∧ ((f tS).mchan 0).side false = ((tChan tS 0).mchan 0).side false ∧ (((f tS).mchan 0).side false).aborted = false
      ∧ atWait g w ∧ (g tS).engineEnd 0 mid = some false ∧ (((g tS).mchan 0).side false).aborted = true)
    ∧ (let w := wd 4 1 0 0 1 4 5; atWait id w ∧ (tS.cpq 5).words = []
      ∧ (let f := fun (s : State) => s.updCpq 5 (fun q => { q with words := [{ payload := 0, sop := true, eop := true }] })
         atWait f w ∧ ((f tS).cpq 5).words ≠ []))
    ∧ (let w := wd 4 1 0 0 1 5 0; atWait tBar w ∧ (tP [w]).arrivals.find 0 = none
      ∧ (let p := { tP [w] with arrivals := [(0, 0)] }; let s := tBar (tOn p); here s p ∧ s.waitChecks 0 p w = none ∧ p.arrivals.find 0 = some 0 ∧ (s.bar 0).done ≤ 0
         ∧ (let u := s.updBar 0 (fun b => { b with done := 1 }); here u p ∧ u.waitChecks 0 p w = none ∧ 0 < (u.bar 0).done)))
    ∧ atWait id (wd 4 1 0 1 1 6 100) ∧ atWait id (wd 4 1 0 0 1 7 0xFFFFFFFF) := by
  decide +kernel

theorem witness_WaitWordsWait_ends :
    (let y : WaitS := { kind := .devTime 100, startTick := 0, limitUs := 1, onExpiry := false }
     let p := { tP [wd 4 1 0 0 1 6 100] with phase := .wait y }; let s := later (tOn p) 10
     Stands s 0 p (.wait y) ∧ y.kind = .devTime 100 ∧ (100 : W64).toNat ≤ s.now ∧ y.startTick < s.tick)
    ∧ (let y : WaitS := { kind := .delay 100, startTick := 0, limitUs := 1, onExpiry := false }
     let p := { tP [wd 4 1 0 0 1 7 100] with phase := .wait y }; let s := later (tOn p) 10
     Stands s 0 p (.wait y) ∧ y.kind = .delay 100 ∧ 100 ≤ s.now ∧ y.startTick < s.tick)
    ∧ (let y : WaitS := { kind := .devTime 0xFFFFFFFFFF, startTick := 0, limitUs := 1, onExpiry := false }
     let p := { tP [wd 4 1 0 0 1 6 100] with phase := .wait y }; let s := later (tOn p) 1000
     Stands s 0 p (.wait y) ∧ s.waitDue y = false ∧ y.limitUs ≠ 0 ∧ s.passedUs y.startTick y.limitUs = true) := by
  unfold Stands
  decide +kernel

theorem test_wait_expires :
    (let y : WaitS := { kind := .devTime 0xFFFFFFFFFF, startTick := 0, limitUs := 1, onExpiry := false }
     statusAfter (.waitLimitExpiry 0) (later (tOn { tP [wd 4 1 0 0 1 6 100] with phase := .wait y }) 1000)) = some Status.stepTimeout := by
  decide +kernel

/-- A stream with one record, and a region with one unit. -/
def tStr (r : Rec) : Stream :=
  { owner := 0, enc := false, policy := 0, limit := 0x100000, next := r.seq + 1, old := r.seq, recs := [r], reserved := [], lastTs := 0, full := false, segs := []
    wrapped := none, keyPair := 0 }
def tRec3 : Rec :=
  { seq := 3, ts := 0, payload := [0xAA], group := 0, clock := 0, durable := true, posted := true, seg := none, places := [], gone := false }
def tUnit : RUnit := { data := List.replicate 4096 7, order := 0, seg := none, places := [] }
def tReg (u : RUnit) : Region := { owner := 0, size := 0x4000, enc := false, units := [(0, u)], durUnits := [], wrapped := none, keyPair := 0 }

/-- Stream 1, region 2, and a verified image in slot 0. -/
def tObjs (s : State) : State :=
  { s with
    mm := { s.mm with
      streams := [(1, tStr tRec3)], regions := [(2, tReg tUnit)], slots := [(0, { image := [1, 2, 3, 4], version := 1, verified := true, durable := true })] }
    lq := { s.lq with limitValid := true, armed := true, limitMib := 32 } }

/-- The data operation `op` on engine 0, with the objects in place. -/
def tD (op : List Ccw) : State := tObjs (tOn (tP op))

/-- A vendor table entry: 16 KiB pages with 2 KiB spare, 4 rows in TLC and 2 in pSLC mode, 8 blocks, array times of 10 to 60 µs. -/
def tVend : List Byte :=
  List.replicate 8 0 ++ leBytes 4 16384 ++ leBytes 2 2048 ++ leBytes 2 4 ++ leBytes 2 2 ++ leBytes 4 8 ++ leBytes 2 10 ++ leBytes 2 60 ++ leBytes 2 30
    ++ leBytes 4 50 ++ leBytes 4 40 ++ leBytes 2 5 ++ leBytes 2 5 ++ leBytes 2 20 ++ leBytes 1 2 ++ List.replicate 45 0 ++ leBytes 2 90 ++ List.replicate 6 0

/-- The same in mode Diagnostic, with LUN 0 there. -/
def tDiag (s : State) : State :=
  { s with
    top := { s.top with mode := .diagnostic }, mm := { s.mm with vendor := [tVend] }
    fc := { s.fc with luns := [(0, { Lun.absent with present := true })] } }

/-- The stream's record on NAND, on a fenced LUN with no mate; the region's unit there too. -/
def tGone (s : State) : State :=
  let s := tObjs s
  { s with
    mm := { s.mm with
      streams := [(1, tStr { tRec3 with seg := some 0, places := [(0, 0, 0)] })], regions := [(2, tReg { tUnit with seg := some 0, places := [(0, 0, 0)] })] }
    fc := { s.fc with luns := [(0, { Lun.absent with present := true, fenced := true }), (1, { Lun.absent with present := true, fenced := true, used := [(0, 0)] })] } }

/-- The operation `op` in hand, with `y` kept of it, on mover 0's channel 1. -/
def tRun (op : List Ccw) (y : Xfr) : Prog := { tP op with xf := some { y with chan := some (0, 1) } }
def tCar (op : List Ccw) (y : Xfr) : State := (tObjs (tOn (tRun op y))).updMvCh 0 1 (fun k => { k with st := .running })

/-- A mover carries it. -/
def carries (op : List Ccw) (y : Xfr) : Bool :=
  let s := tCar op y
  let p := tRun op y
  decide (s.running 0 = some p ∧ p.phase = .fetched ∧ (p.xf.any (fun x => x.reads.any (fun i => s.mm.jobs.has i))) = false) && s.carried p

theorem witness_DataWordsMove :
    (let w := wd 0x10 1 2 0 4 0x20 0x100; let p := tP [w]; here (tD [w]) p ∧ w.opc = 0x10 ∧ (tD [w]).moveChecks p w = none ∧ (p.eff w).space ≠ spRaw)
    ∧ (let w := wd 0x10 1 15 0 4 0x20 0; let p := tP [w]; let s := tDiag (tD [w]); here s p ∧ s.moveChecks p w = none ∧ (p.eff w).space = spRaw)
    ∧ (let w := wd 0x18 1 2 0 64 0xAB 0x3FC0; let p := tP [w]; here (tD [w]) p ∧ w.opc = 0x18 ∧ (tD [w]).fillChecks p w = none)
    ∧ (let w := wd 0x15 1 5 0 4 0x20 0; let p := tP [w]; here (tD [w]) p ∧ w.opc = 0x15 ∧ (tD [w]).vaultChecks p w = none)
    ∧ (let w := wd 0x14 1 4 0 16 0x20 0x0200000000000FF8; let p := tP [w]
      (let s := tD [w]; here s p ∧ w.opc = 0x14 ∧ s.regionReadChecks p w = none ∧ s.region (regionId w.addr) = some (tReg tUnit)
        ∧ s.unitPages (regionId w.addr) (tReg tUnit) (regionOff w.addr) (opLen p.op) = [])
      ∧ (let s := tGone (tOn p); let r := tReg { tUnit with seg := some 0, places := [(0, 0, 0)] }
        here s p ∧ s.regionReadChecks p w = none ∧ s.region (regionId w.addr) = some r
        ∧ (s.unitPages (regionId w.addr) r (regionOff w.addr) (opLen p.op)).any (fun z => s.pageLost z.1 z.2) = true)) := by
  decide +kernel

theorem witness_DataWordsMove_carried :
    (let w := wd 0x10 1 2 0 4 0x20 0x100; carries [w] Xfr.fresh ∧ ((tRun [w] Xfr.fresh).eff w).space ≠ spRaw)
    ∧ carries [wd 0x18 1 2 0 64 0xAB 0x3FC0] Xfr.fresh
    ∧ (let y := { Xfr.fresh with src := List.replicate 16 7 }; carries [wd 0x14 1 4 0 16 0x20 0x0200000000000FF8] y ∧ carries [wd 0x15 1 5 0 16 0x20 0] y)
    ∧ (let w := wd 0x10 1 15 0 4 0x20 0; let y := { Xfr.fresh with granted := true }; let p := tRun [w] y
      carries [w] y ∧ (p.eff w).space = spRaw ∧ (p.eff w).mode % 2 = 0)
    ∧ (let w := wd 0x10 1 15 1 4 0x20 0; let p := tRun [w] Xfr.fresh; let g := (tCar [w] Xfr.fresh).collectNext 0 p false Xfer.none
      carries [w] Xfr.fresh ∧ (p.eff w).space = spRaw ∧ (p.eff w).mode % 2 = 1 ∧ g.fail = none ∧ cellEnd (p.pieces p.op) g = false
      ∧ opLen p.op ≤ g.bytes.length
      ∧ (let y := { Xfr.fresh with granted := true }; carries [w] y)) := by
  decide +kernel

/-- Bytes of engine 0's local store after a command. -/
def storeAfter (i : Instr) (s : State) (a n : Nat) : List Byte :=
  match exec i s with
  | .next t => (t.localStore 0).readN a n
  | _ => []

theorem test_region_read : storeAfter (.regionRead 0 Xfer.none) (tD [wd 0x14 1 4 0 4 0x20 0x0200000000000FFE]) 0 4 = [7, 7, 0, 0] := by decide +kernel
theorem test_vault_read : storeAfter (.vaultRead 0 Xfer.none) (tD [wd 0x15 1 5 0 3 0x20 1]) 0 3 = [2, 3, 4] := by decide +kernel
theorem test_fill : storeAfter (.fill 0 Xfer.none) (tD [wd 0x18 1 2 0 2 0xAB 0x3FFE]) 0x3FFD 3 = [0, 0xAB, 0xAB] := by decide +kernel

theorem witness_DataWordEnding :
    (let y := { Xfr.fresh with src := List.replicate 16 7 }; let op := [wd 0x15 1 5 0 16 0x20 0]; let s := tCar op y; let p := tRun op y
     s.prog 0 = some p ∧ p.chan = some (0, 1) ∧ p.moved + 4 < opLen p.op ∧ opLen p.op ≤ p.moved + 16 ∧ (p.moved + 4) / 65536 = p.moved / 65536)
    ∧ (let op := [wd 0x18 1 2 0 0x20000 0 0]; let p := { tRun op Xfr.fresh with moved := 65535 }; let s := tOn p
     s.prog 0 = some p ∧ p.chan = some (0, 1) ∧ p.moved + 1 < opLen p.op ∧ (p.moved + 1) / 65536 ≠ p.moved / 65536)
    ∧ (let p := tP [wd 0x10 1 2 0 4 0x20 0x100]
     (tOn p).prog 0 = some p ∧ p.opTol = false ∧ p.chan = none ∧ p.goesOn
     ∧ (let p := tP [wd 0x10 0x41 2 0 4 0x20 0x100]; (tOn p).prog 0 = some p ∧ p.opTol = true ∧ p.chan = none ∧ p.goesOn)) := by
  unfold Prog.goesOn Prog.undisturbed
  decide +kernel

theorem witness_StreamReadDelivers :
    (let w := wd 0x12 1 3 0 64 0x20 0x0001000000000000; let p := tP [w]; let q := p.setGp 1 3; let id := fld w.addr 48 16
     w.opc = 0x12 ∧ w.mode.getLsbD 0 = false
     ∧ (let s := tD [w]; here s p ∧ s.streamChecks p w = none ∧ s.stream id = some (tStr tRec3) ∧ (p.getGp (fld w.sub 0 4 + 1)).toNat < (tStr tRec3).oldSeq)
     ∧ (let s := tObjs (tOn q); let st := tStr tRec3; let cur := (q.getGp (fld w.sub 0 4 + 1)).toNat
        here s q ∧ s.streamChecks q w = none ∧ s.stream id = some st ∧ st.oldSeq ≤ cur
        ∧ (s.recPages id ((st.from false cur).takeWhile (fun r => decide (r.seq < (takeRecs id (st.from false cur) (opLen q.op)).2.getD 0)))).any
            (fun z => s.pageLost z.1 z.2) = false)
     ∧ (let s := tGone (tOn q); let st := tStr { tRec3 with seg := some 0, places := [(0, 0, 0)] }; let cur := (q.getGp (fld w.sub 0 4 + 1)).toNat
        here s q ∧ s.streamChecks q w = none ∧ s.stream id = some st ∧ st.oldSeq ≤ cur
        ∧ (s.recPages id ((st.from false cur).takeWhile (fun r => decide (r.seq < (takeRecs id (st.from false cur) (opLen q.op)).2.getD 0)))).any
            (fun z => s.pageLost z.1 z.2) = true))
    ∧ (let y := { Xfr.fresh with src := List.replicate 33 7, heads := 32, next := 4 }; carries [wd 0x12 0x41 3 0 64 0x20 0x0001000000000000] y) := by
  decide +kernel

theorem test_read_below_oldest :
    statusAfter (.readStream 0 Xfer.none) (tD [wd 0x12 1 3 0 64 0x20 0x0001000000000000]) = some Status.dataGone := by decide +kernel

theorem test_read_stream_cursor :
    (let p := (tP [wd 0x12 0x41 3 0 64 0x20 0x0001000000000000]).setGp 1 3
     (progAfter (.readStream 0 Xfer.none) (tObjs (tOn p))).map (fun q => (q.getGp 1, q.c, q.z))) = some (4, true, false) := by decide +kernel

/-- The write of the word `w`, and what its charge finds in `s`. -/
def chargeOf (s : State) (p : Prog) (w : Ccw) : Option ChargeRes :=
  (p.persistTarget w).bind (fun t =>
    let o := s.openGroup 0 p
    if s.pinnedFull t (opLen p.op) = none ∧ o.2.groupCharge (some o.1) + t.charge (opLen p.op) ≤ groupMax then
      some (o.2.tryCharge { p with group := some o.1 } (t.charge (opLen p.op)))
    else none)

theorem witness_PersistWordsRun :
    (let w := wd 0x11 1 3 0 8 0x20 0x0001000000000000; let p := tP [w]; here (tD [w]) p ∧ w.opc = 0x11 ∧ (tD [w]).appendChecks p w = none)
    ∧ (let w := wd 0x13 1 4 0 4096 0x20 0x0200000000001000; let p := tP [w]; here (tD [w]) p ∧ w.opc = 0x13 ∧ (tD [w]).regionWriteChecks p w = none)
    ∧ (let w := wd 0x31 1 3 0 0 0 0x0001000000000000; let p := tP [w]; here (tD [w]) p ∧ w.opc = 0x31 ∧ (tD [w]).trimChecks p w = none) := by
  decide +kernel

theorem witness_PersistWordsRun_charge :
    (let w := wd 0x11 1 3 0 8 0x20 0x0001000000000000; let p := tP [w]; let s := tD [w]
     s.prog 0 = some p ∧ (match p.persistTarget w with | some (.append 1) => true | _ => false) = true ∧ chargeOf s p w = some .granted
     ∧ (let u := { s with lq := { s.lq with limitMib := 0 } }; u.prog 0 = some p ∧ chargeOf u p w = some .refused)
     ∧ (let u := { s with lq := { s.lq with overLimit := true } }; u.prog 0 = some p ∧ chargeOf u p w = some .waits)
     ∧ (let u := s.updStream 1 (fun x => { x with policy := 2, limit := 0 }); u.prog 0 = some p ∧ u.pinnedFull (.append 1) (opLen p.op) = some 1)
     ∧ (Target.append 1).moves (opLen p.op) ≠ 0 ∧ (Target.trimStream 1 0).moves 0 = 0)
    ∧ (let w := wd 0x11 1 3 0 8 0x20 0x0001000000000000; let p := { tP [w] with group := some 0 }
       let g : Group := { id := 0, pid := p.pid, cls := 2, crew := 0, fn := 0, sqid := 0, tag := 0, sealed := false, sealNo := 0, bell := 0, posted := false, deadline := 0
                          late := 0, missed := false, askedAt := 0
                          writes := [{ kind := .trimStream 1 0, charge := 4 * mib, left := 0, seg := none, asked := false, reads := [], spots := [], pages := [], rows := []
                                       released := false }] }
       let s := { tObjs (tOn p) with lq := { (tObjs (tOn p)).lq with groups := [g], nextGroup := 1 } }; let o := s.openGroup 0 p
       s.prog 0 = some p ∧ s.pinnedFull (.append 1) (opLen p.op) = none ∧ groupMax < o.2.groupCharge (some o.1) + (Target.append 1).charge (opLen p.op))
    ∧ (let op := [wd 0x11 1 2 0 8 0x20 0x0001000000000000]; let y := { Xfr.fresh with granted := true }; let p := { tRun op y with group := some 0 }
       let s := (tObjs (tOn p)).updMvCh 0 1 (fun k => { k with st := .running }); let g := s.collectNext 0 p false Xfer.none
       Carried s 0 p op { y with chan := some (0, 1) } ∧ p.group = some 0 ∧ g.fail = none ∧ cellEnd (p.pieces p.op) g = false)
    ∧ (let p := { tP [wd 0x11 1 3 0 8 0x20 0x0001000000000000] with phase := .charge }
       let c : Charge := { eng := 0, cls := 2, bytes := 4096, tick := 0 }
       let s := { tObjs (tOn p) with lq := { (tObjs (tOn p)).lq with shQueue := [c] } }
       s.lq.queue false = [c] ∧ s.running c.eng = some p ∧ s.chargeOpen c.cls = true ∧ c.bytes ≤ s.freeRoom c.cls + p.reserve) := by
  unfold Carried Begun
  decide +kernel

theorem witness_SealAndSyncRun :
    (let w := wd 0x30 1 0 0 0 0 0; let p := tP [w]; here (tD [w]) p ∧ w.opc = 0x30 ∧ zeroChecks p w false = none)
    ∧ (let w := wd 0x32 1 0 2 1 0 0; let p := tP [w]; let s := tD [w]; here s p ∧ w.opc = 0x32 ∧ s.syncChecks 0 p w = none
      ∧ w.mode.getLsbD 1 = true ∧ ((s.sealOpen 0).prog 0).isSome = true)
    ∧ (let y : SyncS := { groups := [], stream := none, startTick := 0, limitUs := 1 }; let p := { tP [wd 0x32 1 0 0 1 0 0] with phase := .sync y }
      Stands (tOn p) 0 p (.sync y) ∧ (tOn p).syncDone y = true)
    ∧ (let y : SyncS := { groups := [], stream := some (1, 9), startTick := 0, limitUs := 1 }; let p := { tP [wd 0x32 1 0 0 1 0 0] with phase := .sync y }
      let s := later (tObjs (tOn p)) 1000; Stands s 0 p (.sync y) ∧ s.syncDone y = false ∧ y.limitUs ≠ 0 ∧ s.passedUs y.startTick y.limitUs = true) := by
  unfold Stands
  decide +kernel

theorem witness_TimeLimitsEndPrograms :
    (let w := wd 0x10 1 2 0 4 0x20 0x100; let p := tP [w]; let s := later (tD [w]) 100000; s.running 0 = some p ∧ p.phase = .fetched
      ∧ p.op.head?.any (fun w => decide (w.opc = 0x30)) = false ∧ s.passedUs p.execAt (s.stepUs p) = true)
    ∧ (let p := tP [wd 0x30 1 0 0 0 0 0]; let s := later (tOn p) 100000; s.running 0 = some p ∧ p.phase = .fetched
      ∧ p.op.head?.any (fun w => decide (w.opc = 0x30)) = true ∧ s.passedUs p.execAt (s.stepUs p) = true)
    ∧ (let p := { tP [] with phase := .boundary, deadline := 10 }; let s := later (tOn p) 1
       s.running 0 = some p ∧ p.deadline ≠ 0 ∧ p.deadline.toNat ≤ s.now ∧ 2 ≤ p.cls ∧ p.phase.inWord = false)
    ∧ (let p := { tP [] with deadline := 10, cls := 1 }; let s := later (tOn p) 1
       let t := { s with fcs := { s.fcs with lost := true } }; t.running 0 = some p ∧ p.deadline.toNat ≤ t.now ∧ p.cls = 1 ∧ t.fcs.lost = true ∧ p.phase.inWord = true
        ∧ p.op.head?.any (fun w => decide (w.opc = 0x30)) = false)
    ∧ (let p := { tP [wd 0x30 1 0 0 0 0 0] with deadline := 10 }; let s := later (tOn p) 1
       s.running 0 = some p ∧ p.deadline.toNat ≤ s.now ∧ p.phase = .fetched ∧ p.op.head?.any (fun w => decide (w.opc = 0x30)) = true) := by
  decide +kernel

theorem test_step_timeout : statusAfter (.stepTimeout 0) (later (tD [wd 0x10 1 2 0 4 0x20 0x100]) 100000) = some Status.stepTimeout := by decide +kernel
theorem test_deadline_class2 :
    statusAfter (.deadlineExpiry 0) (later (tOn { tP [] with phase := .boundary, deadline := 10 }) 1) = some Status.stepTimeout := by decide +kernel

theorem witness_SealWithoutGroupDoesNothing :
    (let w := wd 0x30 1 0 0 0 0 0; let p := tP [w]; here (tD [w]) p ∧ w.opc = 0x30 ∧ zeroChecks p w false = none ∧ p.group = none ∧ p.goesOn) := by
  unfold Prog.goesOn Prog.undisturbed
  decide +kernel

theorem witness_ExplicitGroupLeftOpenIsDiscarded :
    (let p := { tP [wd 7 0 0 0 0 0 0] with hdr := some { minMinor := 0, policy := 0, maxSteps := 9, maxBytes := 9, maxOps := 9 }, group := some 0 }
     (tOn p).prog 0 = some p ∧ p.policy = 0 ∧ p.group = some 0 ∧ p.phase ≠ .postwait ∧ p.opLnk = false ∧ p.chan = none ∧ p.haltPend = false) := by
  decide +kernel

/-! ## Witnesses: queues and admission (chapters 4, 6 and 7) -/

/-- Queue 0, changed by `f`, on a part whose engine 0 is idle. -/
def tQ (f : Sq → Sq) : State := (tLink (tOn (tP []))).updSq 0 f |>.updEngine 0 (fun g => { g with prog := none })
def tQs (f : Sq → Sq) : Sq := f tSq

theorem witness_DoorbellsMoveQueues :
    (let s := tQ id; s.fnLive 0 = true ∧ s.sq 0 = some tSq ∧ tSq.fn = 0 ∧ tSq.fn ≠ 1 ∧ s.fnLive 1 = true
      ∧ tSq.depth ≤ fld (4 : W32) 0 16 ∧ fld (3 : W32) 0 16 < tSq.depth)
    ∧ (let s := (tQ id).updAq 0 (fun a => { a with sqDepth := 4 }); (s.aq 0).sqDepth ≤ fld (4 : W32) 0 16 ∧ fld (3 : W32) 0 16 < (s.aq 0).sqDepth)
    ∧ (let q := { tCq with head := 6, tail := 1 }; let s := (tQ id).updCq 0 (fun _ => q); s.cq 0 = some q ∧ q.fn = 0
      ∧ fld (1 : W32) 0 16 < q.depth ∧ (fld (1 : W32) 0 16 + q.depth - q.head) % q.depth ≤ (q.tail + q.depth - q.head) % q.depth
      ∧ (q.tail + q.depth - q.head) % q.depth < (fld (2 : W32) 0 16 + q.depth - q.head) % q.depth ∧ q.depth ≤ fld (8 : W32) 0 16) := by
  decide +kernel

theorem witness_DoorbellsMoveQueues_dropped :
    ({ tQ id with fcs := { tS.fcs with fencedFns := [0] } } : State).fnLive 0 = false ∧ (tQ id).sq 0xFFF = none ∧ (tQ id).cq 0x7FF = none
    ∧ (let q := { tCq with fn := 1 }; let s := (tQ id).updCq 0 (fun _ => q); s.cq 0 = some q ∧ q.fn ≠ 0)
    ∧ (let s := (tQ id).updAq 0 (fun a => { a with cqDepth := 4, cqHead := 3, cqTail := 1 })
       inRing (s.aq 0).cqHead (s.aq 0).cqTail (s.aq 0).cqDepth (fld (1 : W32) 0 16) = true
       ∧ inRing (s.aq 0).cqHead (s.aq 0).cqTail (s.aq 0).cqDepth (fld (2 : W32) 0 16) = false) := by
  decide +kernel

/-- The bytes of a START entry, with its OWN mark. -/
def sqeBytes (own : Byte) : List Byte :=
  [1, 0, 2, 0] ++ [7, 0, 0, 0] ++ [0, 0x40, 0, 0, 0, 0, 0, 0] ++ List.replicate 46 0 ++ [0xFF, own]

theorem witness_QueuesFetchAndStop :
    (let f := fun (q : Sq) => { q with tail := 1 }; let s := tQ f; let q := tQs f; s.sq 0 = some q ∧ s.mayFetch 0 q = true ∧ q.ownWait = none
      ∧ q.head ≠ q.tail ∧ copyAt q.copy q.head = none ∧ copyAt (some (blockCopy q.head q.depth (sqeBytes 1))) q.head = some (sqeBytes 1)
      ∧ (sqeOf (sqeBytes 1)).own = q.phase ∧ (sqeOf (sqeBytes 1)).undef = false)
    ∧ (let f := fun (q : Sq) => { q with tail := 1 }; let q := tQs f; copyAt (some (blockCopy q.head q.depth (sqeBytes 0))) q.head = some (sqeBytes 0)
      ∧ (sqeOf (sqeBytes 0)).own ≠ q.phase)
    ∧ (let f := fun (q : Sq) => { q with tail := 1, ownWait := some 0 }; let s := later (tQ f) 50000; let q := tQs f; s.sq 0 = some q ∧ s.mayFetch 0 q = true
      ∧ q.ownWait.isSome = true ∧ (sqeBytes 1).length = 64 ∧ (sqeOf (sqeBytes 1)).own = q.phase ∧ s.passedUs 0 (s.aq q.fn).ownWaitUs = true)
    ∧ (let s := tQ id; s.mayWrite (midOf 0) qeBlock = true ∧ s.sq 0 = some tSq ∧ tSq.fn = 0 ∧ (1 : W32).getLsbD 2 = false ∧ (4 : W32).getLsbD 2 = true
      ∧ (4 : W32).getLsbD 0 = false ∧ (1 : W32).getLsbD 0 = true ∧ (s.aq 0).en = false) := by
  decide +kernel

/-- Function 0's admin pair, started and changed by `f`. -/
def tAq (f : Aq → Aq) : State :=
  (tQ id).updAq 0 (fun a => f { a with en := true, rdy := true, sqDepth := 4, cqDepth := 4, sqTail := 1 })

theorem witness_QueuesFetchAndStop_more :
    (let q := tQs (fun q => { q with tail := 1 }); copyAt q.copy q.head = none)
    ∧ (let f := fun (q : Sq) => { q with spec := true }; let s := tQ f; let q := tQs f; s.sq 0 = some q ∧ s.mayFetch 0 q = true ∧ q.ownWait = none ∧ q.head = q.tail
      ∧ q.spec = true ∧ copyAt q.copy q.tail = none)
    ∧ (sqeOf (List.replicate 64 0)).undef = true
    ∧ ((tQ id).sq 0).any (fun q => decide (q.fn ≠ 1)) = true ∧ (5 : W32).getLsbD 2 = true ∧ (5 : W32).getLsbD 0 = true := by
  decide +kernel

theorem witness_QueuesFetchAndStop_admin :
    (let s := tAq id; let a := s.aq 0; s.mayFetchAq 0 a = true ∧ a.ownWait = none ∧ a.sqHead ≠ a.sqTail ∧ copyAt a.copy a.sqHead = none
      ∧ (sqeOf (sqeBytes 1)).own = a.sqPhase ∧ (sqeOf (sqeBytes 0)).own ≠ a.sqPhase
      ∧ copyAt (some (blockCopy a.sqHead a.sqDepth (sqeBytes 1))) a.sqHead = some (sqeBytes 1))
    ∧ (let s := tAq (fun a => { a with copy := some (blockCopy 0 4 (sqeBytes 0)) }); let a := s.aq 0; s.mayFetchAq 0 a = true
      ∧ copyAt a.copy a.sqHead = some (sqeBytes 0))
    ∧ (let s := later (tAq (fun a => { a with ownWait := some 0 })) 50000; s.mayFetchAq 0 (s.aq 0) = true ∧ (s.aq 0).ownWait = some 0
      ∧ s.passedUs 0 (s.aq 0).ownWaitUs = true ∧ (sqeBytes 1).length = 64) := by
  decide +kernel

theorem test_own_stages :
    (match exec (.sqEntryFetch (.io 0) (.data (sqeBytes 1))) (tQ (fun q => { q with tail := 1 })) with
     | .next t => (t.sq 0).map (fun q => (q.head, q.staged.map (fun e => (e.sqe.tag, e.sqe.program)))) | _ => none) = some (1, [(7, 0x4000)]) := by
  decide +kernel

def tW (src : CSrc) : Waiting := { cqe := { tag := 9, sqid := 0, status := 0, body := 0, time := 5 }, src := src, groups := [], pid := 1, bell := none }

theorem witness_CompletionsArePosted :
    (let q := { tCq with ready := [tW (.final 0)] }; let s := (tQ id).updCq 0 (fun _ => q); let u := s.updCq 0 (fun x => { x with ready := [] })
     s.cq 0 = some q ∧ s.postMode = true ∧ q.held = [] ∧ q.full = false ∧ u.canIssue q.fn = true)
    ∧ (let q := { tCq with ready := [tW (.final 0)], tail := 7 }; let s := (tQ id).updCq 0 (fun _ => q); let u := s.updCq 0 (fun x => { x with ready := [] })
     s.cq 0 = some q ∧ q.full = true ∧ (u.updCq 0 (fun x => { x with held := x.held ++ [tW (.final 0)] })).cqC0 0 = false)
    ∧ (let q := { tCq with held := [tW (.final 0)] }; let s := (tQ id).updCq 0 (fun _ => q)
     s.cq 0 = some q ∧ minBy heldKey q.held = some (tW (.final 0)) ∧ q.full = false ∧ s.canIssue q.fn = true ∧ s.postMode = true)
    ∧ (let q := { tCq with ivEn := true, firstAt := some 0, itimeUs := 10, stall := some (0, 0) }; let s := later ((tQ id).updCq 0 (fun _ => q)) 500000
     s.cq 0 = some q ∧ q.ivEn = true ∧ s.passedUs 0 q.itimeUs = true ∧ q.stalled = false ∧ s.passedUs 0 (s.aq q.fn).cqStallUs = true)
    ∧ (let e : AEvent := { code := 1, num := 0, count := 1, info := 0, no := 0 }
       let s := (tQ id).updAq 0 (fun a => { a with en := true, rdy := true, sqDepth := 4, cqDepth := 4, events := [e] })
     (s.aq 0).events = [e] ∧ s.admOpen 0 = true) := by
  decide +kernel

theorem witness_CompletionsArePosted_more :
    (let q := { tCq with ready := [tW (.final 0)] }; let s := (tOn (tP [])).updCq 0 (fun _ => q); s.cq 0 = some q ∧ s.postMode = true ∧ s.canIssue q.fn = false)
    ∧ (let q := { tCq with held := [tW (.final 0)], tail := 7 }; let s := (tQ id).updCq 0 (fun _ => q)
      s.cq 0 = some q ∧ minBy heldKey q.held = some (tW (.final 0)) ∧ q.full = true ∧ s.canIssue q.fn = true ∧ s.postMode = true)
    ∧ (let s := { tAq (fun a => { a with replies := [(3, { tag := 9, sqid := 0, status := 0, body := 0, time := 5 })], invalidates := [3] }) with
                  mgp := { tS.mgp with running := true } }
      (s.aq 0).replies.length = 1 ∧ s.admOpen 0 = true ∧ s.mgp.running = true ∧ s.mgp.halted = false ∧ (s.aq 0).events = []
      ∧ (s.aq 0).invalidates.contains 3 = true) := by
  decide +kernel

/-- A control entry for the program with TAG 7, staged on queue 0. -/
def tCtl (opc : Nat) (hold : Bool) (tag : W32) : Staged := { tStaged with sqe := { tSqe with opc := opc, hold := hold, tag := tag } }
def tCs (x : Staged) (p : Prog) : State := (tLink (tOn p)).updSq 0 (fun q => { q with staged := [x] })

theorem witness_ControlEntriesAct :
    (let x := tCtl opcHalt false 8; let s := tCs x (tP []); let u := s.updSq 0 (fun q => { q with staged := q.staged.erase x })
     s.controlEntry 0 opcHalt false = some x ∧ u.targets 0 x.sqe.tag = [])
    ∧ (let x := tCtl opcHalt false 7; let p := tP []; let s := tCs x p; let u := s.updSq 0 (fun q => { q with staged := q.staged.erase x })
     s.controlEntry 0 opcHalt false = some x ∧ u.targets 0 x.sqe.tag = [0] ∧ u.prog 0 = some p ∧ p.haltPend = false
     ∧ (let p := { p with haltPend := true }; let s := tCs x p; (s.updSq 0 (fun q => { q with staged := q.staged.erase x })).targets 0 x.sqe.tag = [0]))
    ∧ (let x := tCtl opcHalt true 7; let p := { tP [] with phase := .boundary }; let s := tCs x p; let u := s.updSq 0 (fun q => { q with staged := q.staged.erase x })
     s.controlEntry 0 opcHalt true = some x ∧ u.targets 0 x.sqe.tag = [0] ∧ u.prog 0 = some p ∧ 2 ≤ p.cls ∧ p.haltPend = false ∧ p.holdPend = false
     ∧ (let p := { p with cls := 1 }; let s := tCs x p; (s.updSq 0 (fun q => { q with staged := q.staged.erase x })).targets 0 x.sqe.tag = [0] ∧ p.cls ≤ 1))
    ∧ (let x := tCtl opcResume false 7; let p := { tP [] with phase := .susp .host }; let s := tCs x p; let u := s.updSq 0 (fun q => { q with staged := q.staged.erase x })
     s.controlEntry 0 opcResume false = some x ∧ u.targets 0 x.sqe.tag = [0] ∧ u.prog 0 = some p ∧ p.phase = .susp .host) := by
  decide +kernel

theorem witness_ControlEntriesAct_phases :
    (let x := tCtl opcHalt true 7
     let at_ := fun (p : Prog) => let s := tCs x p; let u := s.updSq 0 (fun q => { q with staged := q.staged.erase x })
       decide (s.controlEntry 0 opcHalt true = some x ∧ u.targets 0 x.sqe.tag = [0] ∧ u.prog 0 = some p ∧ 2 ≤ p.cls ∧ p.haltPend = false)
     at_ { tP [] with phase := .susp .host } ∧ at_ { tP [] with holdPend := true } ∧ at_ { tP [] with phase := .noteHold } ∧ at_ (tP [])
     ∧ at_ { tP [] with phase := .charge })
    ∧ (let x := tCtl opcResume false 7; let p := tP []; let s := tCs x p; let u := s.updSq 0 (fun q => { q with staged := q.staged.erase x })
     s.controlEntry 0 opcResume false = some x ∧ u.targets 0 x.sqe.tag = [0] ∧ u.prog 0 = some p ∧ p.phase = .fetched)
    ∧ (let x := tCtl opcHalt false 7; let s := (tCs x (tP [])).updEngine 1 (fun g => { g with prog := some (tP []) })
     let u := s.updSq 0 (fun q => { q with staged := q.staged.erase x })
     s.controlEntry 0 opcHalt false = some x ∧ 2 ≤ (u.targets 0 x.sqe.tag).length) := by
  decide +kernel

theorem test_halt_entry_ends : statusAfter (.haltEntry 0) (tCs (tCtl opcHalt false 7) { tP [] with phase := .boundary }) = some Status.halted := by decide +kernel
theorem test_shared_tag_stops :
    (exec (.haltEntry 0) ((tCs (tCtl opcHalt false 7) (tP [])).updEngine 1 (fun g => { g with prog := some (tP []) })) matches .fault .sharedTag) = true := by
  decide +kernel

/-- A part whose cluster 0 takes programs, with a stored program at 0x100 whose first word is an HDR, and a crew of class `c`. -/
def tAdmit (c : Nat) (e : Staged) : State :=
  let s := (tQ (fun q => { q with staged := [e], c0 := decide (c = 0) })).updCluster 0 (fun k => { k with ready := true, seats := 64 })
  { s with
    eng := { s.eng with
      crews := [(0, { owner := 0, cls := c, mask := 1, seats := 1, shared := false, stepUs := 100, minMinor := 0, pinned := 1, lostIn := [] })]
      store := [(0x100, { addr := 0x100, len := 64, fns := 1, removed := false, owner := 0
                          first := [0x3F, 1, 0x10, 0, 1, 0, 0, 2, 64, 0, 0, 0, 0, 1, 0, 0] })] }
    lq := { s.lq with limitValid := true, armed := true, limitMib := 32 }
    fcs := { s.fcs with lost := decide (c = 0) } }

def tStart (c : Nat) (dl : W64) : Staged := { tStaged with sqe := { tSqe with cls := c, space := if c = 2 then 0 else 1, program := if c = 2 then 0x4000 else 0x100, deadline := dl } }

/-- What the checks of the START `e` find, and whether a seat is free. -/
def goes (s : State) (e : Staged) : Option (Option Hdr × Bool) :=
  match s.crew 0, s.sq 0 with
  | some x, some q => (match s.checkStart x q e (.data lineNops) with
    | .go h u => some (h, (u.seatFor 0 e.no e.sqe.hint (u.placement x h)).isSome)
    | _ => none)
  | _, _ => none

def tHdr : Hdr := { minMinor := 0, policy := 1, maxSteps := 1, maxBytes := 64, maxOps := 1 }

theorem witness_StartsAreAdmitted :
    (let e := tStart 1 0; let s := tAdmit 2 e; s.nextStart = some 0 ∧ (s.sq 0).map (fun q => (q.headStart, q.crew)) = some (some e, some 0)
      ∧ (match s.crew 0, s.sq 0 with | some x, some q => (match s.checkStart x q e .error with | .refuse _ _ => true | _ => false) | _, _ => false) = true)
    ∧ (let e := tStart 2 0; let s := tAdmit 2 e; s.nextStart = some 0 ∧ goes s e = some (none, true))
    ∧ (let e := tStart 1 10000000; let s := tAdmit 1 e; s.nextStart = some 0 ∧ goes s e = some (some tHdr, true) ∧ s.proved tHdr 10000000 = true)
    ∧ (let e := tStart 1 828000; let s := tAdmit 1 e; s.nextStart = some 0 ∧ goes s e = some (some tHdr, true) ∧ s.proved tHdr 828000 = false)
    ∧ (let e := tStart 0 0; let s := tAdmit 0 e; s.nextStart = some 0 ∧ goes s e = some (some tHdr, true))
    ∧ (let e := tStart 2 0; let s := (tAdmit 2 e).updCluster 0 (fun k => { k with out := true }); s.nextStart = some 0 ∧ goes s e = some (none, false))
    ∧ (let e := { tStart 2 0 with waiting := true, hdr := some none }; let s := tAdmit 2 e; e.waiting = true ∧ s.crewTurn 0 2 = some 0
      ∧ (match s.sq 0 with | some q => s.queueMode q && s.fnLive q.fn | none => false) = true ∧ s.qeHolds 0 = false
      ∧ (match s.crew 0 with | some x => (s.seatFor 0 e.no e.sqe.hint (s.placement x (e.hdr.getD none))).isSome | none => false) = true) := by
  decide +kernel

/-- What the checks of the START `e` say where they neither pass nor refuse it: 0 it waits, 1 undefined. -/
def waits (s : State) (e : Staged) (r : Rd) : Option Nat :=
  match s.crew 0, s.sq 0 with
  | some x, some q => (match s.checkStart x q e r with | .wait _ => some 0 | .undef => some 1 | _ => none)
  | _, _ => none

theorem witness_StartsAreAdmitted_more :
    (let e := tStart 2 0; let s := tAdmit 2 e; s.nextStart = some 0 ∧ waits s e (.data []) = some 0
      ∧ waits s e (.data ([0x3F, 1, 0x30, 0, 1, 0, 0, 2, 64, 0, 0, 0, 0, 1, 0, 0] ++ List.replicate 48 0)) = some 1)
    ∧ (let e := { tStart 2 0 with waiting := true, hdr := some none, no := 5 }; let f := { tStart 2 0 with waiting := true, hdr := some none, no := 2 }
      let s := { tAdmit 2 e with qe := { (tAdmit 2 e).qe with sqs := [(0, { tSq with staged := [e] }), (1, { tSq with staged := [f] })], turn := [(0, 0)] } }
      s.queueMode tSq = true ∧ s.fnLive 0 = true ∧ s.qeHolds 0 = false ∧ s.qeHolds 1 = false
      ∧ (((s.crewQueues 0).filter (fun m => decide (m ≠ 1))).foldl State.retest s).crewTurn 0 2 = some 0
      ∧ (match s.crew 0 with | some x => (s.seatFor 0 f.no f.sqe.hint (s.placement x (f.hdr.getD none))).isSome | none => false) = true) := by
  decide +kernel

theorem test_admit_places :
    (match exec (.admitStart 0 (.data lineNops)) (tAdmit 2 (tStart 2 0)) with
     | .next t => (t.prog 0).map (fun p => (p.tag, p.pc, p.phase, p.cls)) | _ => none) = some (7, 0x4000, .boundary, 2) := by decide +kernel

theorem test_admit_class1_refused : statusAfter (.admitStart 0 (.data lineNops)) (tAdmit 1 (tStart 1 828000)) = some Status.admitRefused := by decide +kernel

theorem witness_ProgramsStartAndFetch :
    (let p := { tP [] with phase := .boundary }; let s := tOn p; s.running 0 = some p ∧ p.phase = .boundary
      ∧ (match State.fetchOp 0 p [(0x4000, .data lineNops)] 256 p.pc.toNat [] s with | .words op _ => !op.head?.any wordUndef | _ => false) = true
      ∧ (match State.fetchOp 0 p [(0x4000, .error)] 256 p.pc.toNat [] s with | .error i _ => decide (i = 0) | _ => false) = true) := by
  decide +kernel

theorem witness_ProgramsStartAndFetch_more :
    (let p := { tP [] with phase := .boundary }; let s := tOn p
      (match State.fetchOp 0 p [(0x4000, .data (0xEE :: List.replicate 63 0))] 256 p.pc.toNat [] s with | .words op _ => op.head?.any wordUndef | _ => false) = true
      ∧ (match State.fetchOp 0 p [] 256 p.pc.toNat [] s with | .absent => true | _ => false) = true)
    ∧ (let p := { tP [] with phase := .boundary, yard := true, pc := BitVec.ofNat 64 yardSize }; let s := tOn p; Stands s 0 p .boundary
      ∧ (match State.fetchOp 0 p [] 256 p.pc.toNat [] s with | .beyond i _ => decide (i = 0) | _ => false) = true)
    ∧ (let w := wd 0x18 1 2 0 64 0 0; let p := tP [w]; (tOn p).prog 0 = some p ∧ w.nof = false ∧ w.brk = false ∧ w.bad = false ∧ w.opc ≠ 0x3F ∧ w.opc ≠ 0x40
      ∧ dataOpc w.opc.toNat = true) := by
  unfold Stands
  decide +kernel

theorem test_fetch_fails : statusAfter (.ccwFetch 0 [(0x4000, .error)]) (tOn { tP [] with phase := .boundary }) = some Status.linkFault := by decide +kernel


/-! ## Witnesses: engines (chapter 5) -/

/-- A ready cluster 0, changed by `f`, at tick `n`. -/
def tC (n : Nat) (f : Cluster → Cluster) : State := (later tS n).updCluster 0 (fun k => f { k with ready := true, seats := 64 })

theorem witness_SelfTestTurns :
    (let s := tC 40000 (fun k => { k with turnAt := some 30000 }); let k := s.cluster 0; k.bist = .idle ∧ k.ready = true ∧ k.gated = false ∧ k.waking = none
      ∧ k.fenced = false ∧ s.passedUs 30000 turnUs = true ∧ (s.nextSlot 0 k.bistSlot).isSome = true)
    ∧ (let s := tC 40000 (fun k => { k with bist := .window 39600, bistSlot := 64 }); (s.cluster 0).bist = .window 39600 ∧ s.passedUs 39600 windowUs = true
      ∧ ((s.takeForTest 0).engine ((s.takeForTest 0).bistEngine 0)).testing = true)
    ∧ (let s := tC 40000 (fun k => { k with bist := .test 36400, bistSlot := 71 }); (s.cluster 0).bist = .test 36400 ∧ s.passedUs 36400 testUs = true
      ∧ (s.engine (s.bistEngine 0)).fenced = false) := by
  decide +kernel

theorem witness_SelfTestTurns_windows :
    (let s := tC 39650 (fun k => { k with bist := .window 39600 }); (s.cluster 0).bist = .window 39600 ∧ s.passedUs 39600 windowUs = false)
    ∧ (let s := (tC 40000 (fun k => { k with bist := .window 39600, bistSlot := 64 })).updEngine 64 (fun g => { g with fenced := true })
      let e := (s.takeForTest 0).bistEngine 0
      s.passedUs 39600 windowUs = true ∧ ((s.takeForTest 0).engine e).testing = false ∧ ((s.takeForTest 0).engine e).fenced = true)
    ∧ (let s := (tC 40000 (fun k => { k with bist := .window 39600 })).updEngine 0 (fun g => { g with prog := some { tP [wd 0x10 1 2 0 4 0x20 0] with cls := 0 } })
      let e := (s.takeForTest 0).bistEngine 0
      s.passedUs 39600 windowUs = true ∧ ((s.takeForTest 0).engine e).testing = false ∧ ((s.takeForTest 0).engine e).fenced = false) := by
  decide +kernel

theorem test_selftest_wraps :
    (match exec (.selftestComplete 0 true) (tC 40000 (fun k => { k with bist := .test 36400, bistSlot := 71 })) with
     | .next t => some ((t.cluster 0).bistSlot, (t.cluster 0).sweeps, (t.engine 71).tested) | _ => none) = some (0, 1, true) := by decide +kernel

theorem witness_ClustersGateAndReset :
    (let s := tC 10000 (fun k => { k with gateIdleUs := 100 }); s.mayGate 0 = true ∧ s.passedUs (s.cluster 0).idleSince (s.cluster 0).gateIdleUs = true)
    ∧ (let s := tC 0 (fun k => { k with gated := true, wakeReq := true }); (s.cluster 0).gated = true ∧ (s.cluster 0).wakeReq = true ∧ (s.cluster 0).fenced = false)
    ∧ (let s := tC 800 (fun k => { k with waking := some 0 }); (s.cluster 0).waking = some 0 ∧ s.passedUs 0 8 = true ∧ (s.cluster 0).orders = [])
    ∧ (let s := tC 0 (fun k => { k with resetReq := true }); (s.cluster 0).resetAt = none ∧ (s.cluster 0).resetReq = true)
    ∧ (let s := { State.reset with top := { State.reset.top with mode := .load } }; (s.cluster 0).resetAt = none ∧ s.arrayTurn 0 = true)
    ∧ (let s := tC 4200 (fun k => { k with resetAt := some 0 }); (s.cluster 0).resetAt = some 0 ∧ s.passedUs 0 42 = true ∧ s.inMode [.load] = false)
    ∧ (let s := (List.range 16).foldl (fun u c => u.updCluster c (fun k => { k with done := decide (c ≠ 3), resetAt := if c = 3 then some 0 else none }))
         { later State.reset 4200 with top := { State.reset.top with mode := .load } }
      s.inMode [.load] = true ∧ (s.cluster 3).resetAt = some 0 ∧ s.passedUs 0 42 = true ∧ (s.cluster 3).ready = false
      ∧ ∀ d, d < 16 → d ≠ 3 → (s.cluster d).done = true) := by
  decide +kernel

theorem test_cluster_not_ready_early :
    (let s := tC 4199 (fun k => { k with resetAt := some 0 }); match exec (.clusterReady 0 []) s with | .next t => decide ((t.cluster 0).resetAt = some 0) | _ => false) = true := by
  decide +kernel

theorem witness_BarriersAndBroadcasts :
    (tS.mayWrite 0 engBlock = true ∧ 1 ≤ fld (1 : W32) 0 11 ∧ fld (0x400 : W32) 0 11 = 1024 ∧ fld (0x800 : W32) 0 11 = 0 ∧ 1024 < fld (0x401 : W32) 0 11)
    ∧ orderCode 4 = some .ucodeSwap ∧ tS.powered = true
    ∧ orderCode 5 = none
    ∧ (let b : Bcast := { order := .cacheInvalidate, mask := 1, left := [0] }
      (let s := { tS with eng := { tS.eng with bcast := [{ b with left := [] }] } }; s.eng.bcast = [{ b with left := [] }])
      ∧ (let s := { tS with eng := { tS.eng with bcast := [b] } }; s.eng.bcast = [b] ∧ b.left.filter (fun e => !(s.engine e).fenced) = [0])
      ∧ (let s := ({ tS with eng := { tS.eng with bcast := [b] } } : State).updEngine 0 (fun g => { g with fenced := true })
         s.eng.bcast = [b] ∧ b.left.filter (fun e => !(s.engine e).fenced) = []))
    ∧ (1 : W32).getLsbD 0 = true ∧ tS.eng.snapBusy ≤ tS.tick ∧ (let s := { tS with eng := { tS.eng with snapBusy := 1 } }; s.tick < s.eng.snapBusy) := by
  decide +kernel

theorem test_barrier_generation :
    (match exec (.barrierCfgWrite 0 3 0x80000002) (tS.updBar 3 (fun b => { b with gen := 0xFFFF, arrived := 1 })) with
     | .next t => some (t.bar 3) | _ => none)
     = some { Barrier.reset with count := 2, enable := true, gen := 0, arrived := 0, mask := (tS.bar 3).mask } := by decide +kernel

/-! ## Witnesses: movers and the Cell Pool (chapter 10) -/

/-- A descriptor of 4 bytes within the Yard; with `flags` and a requester. -/
def dsBytes (flags : Byte) (req : Byte) : List Byte :=
  [0, 0, 0xF0, 7, 0, 0, 0, 0] ++ [0, 0x10, 0xF0, 7, 0, 0, 0, 0] ++ [4, 0, 0, 0x11, flags, 2, 0, 0] ++ [req, 0, 0, 0] ++ [0, 0, 0, 0]

/-- Mover 0, changed by `f`. -/
def tMv (s : State) (f : Mover → Mover) : State := s.updMover 0 f
def tMvCh (f : MvCh → MvCh) : Mover → Mover := fun m => m.updChan 0 f

theorem witness_DescriptorsRun :
    (let d := dsBytes 0 0; tS.descMode 0 = true ∧ d.length = 32 ∧ (Desc.read d).mayUse 1 = true ∧ tS.spaceOk (Desc.read d) = true ∧ descUndef d = false
      ∧ (tS.mvCh 0 1).active = none
      ∧ (let s := tS.updMvCh 0 1 (fun k => { k with active := some (Desc.read d) }); s.descMode 0 = true ∧ s.spaceOk (Desc.read d) = true
         ∧ (s.mvCh 0 1).active.isSome = true ∧ (s.mvCh 0 1).shadow = none))
    ∧ (let d := dsBytes 0x20 0; d.length = 32 ∧ (Desc.read d).mayUse 1 = true ∧ tS.spaceOk (Desc.read d) = true ∧ descUndef d = true) := by
  decide +kernel

/-- Channel 0 of mover 0 with the descriptor `d`, in the state `st`, at tick 20,000. -/
def tDesc (d : Desc) (st : ChState) : State := tMv (later tS 20000) (tMvCh (fun k => { k with active := some d, st := st }))

/-- What a descriptor's transfer of `n` bytes answers. -/
def moveSt (s : State) (d : Desc) (n : Nat) (x : Xfer) : Nat × Nat := let r := s.mvMoveBytes d d.src d.dst n x; (r.1, r.2.1)

theorem witness_DescriptorsRun_moves :
    (let d := Desc.read (dsBytes 0 0); let s := tDesc d .running; s.descMode 0 = true ∧ (s.mvCh 0 0).active = some d ∧ s.chanEngine 0 0 = none
      ∧ Xfer.none.status ≠ .timeout ∧ s.mvHost d = true ∧ (s.mvCh 0 0).st = .running ∧ s.codecReady 0 0 = true
      ∧ moveSt s d 4 Xfer.none = (4, dsOk) ∧ d.length ≤ 4 ∧ d.wb = false ∧ (moveSt s d 4 badX).2 = dsLink
      ∧ s.passedUs (s.mvCh 0 0).movedAt (fld s.mv.cfg 0 16) = true)
    ∧ (let d := { Desc.read (dsBytes 0 0) with paced := true, burst := 1, length := 128 }; let s := tDesc d .running
      s.mvHost d = true ∧ s.codecReady 0 0 = true ∧ moveSt s d 64 Xfer.none = (64, dsOk) ∧ (s.mvCh 0 0).moved + 64 < d.length)
    ∧ (let d := { Desc.read (dsBytes 1 0) with dstSpace := spHost }; let s := tLink (tDesc d .running)
      s.mvHost d = true ∧ s.codecReady 0 0 = true ∧ moveSt s d 4 Xfer.none = (4, dsOk) ∧ d.wb = true ∧ (tDesc d .running).mvHost d = false
      ∧ (let u := tLink (tDesc d .barrier); u.mvHost d = true ∧ (u.mvCh 0 0).st = .barrier ∧ u.chanEngine 0 0 = none))
    ∧ (let op := [wd 0x18 1 2 0 64 0xAB 0]; let s := (later (tCar op Xfr.fresh) 20000).updMvCh 0 1 (fun k => { k with active := some (Desc.read (dsBytes 0 0)) })
      s.descMode 0 = true ∧ (s.mvCh 0 1).active.isSome = true ∧ (s.mvCh 0 1).st = .running ∧ s.passedUs (s.mvCh 0 1).movedAt (fld s.mv.cfg 0 16) = true
      ∧ s.chanEngine 0 1 = some 0) := by
  decide +kernel

theorem test_descriptor_moves :
    (let s := tMv { tS with yard := { tS.yard with mem := [(0x7F00001, 9)] } } (fun m =>
       { (tMvCh (fun k => { k with active := some (Desc.read (dsBytes 0 0)), st := .running }) m) with activeCh := some 0 })
     match exec (.descriptorComplete 0 0 Xfer.none) s with
     | .next t => some (t.yard.mem, ((t.mover 0).chan 0).lastStatus, ((t.mover 0).chan 0).active)
     | _ => none) = some ([(0x7F00001, 9), (0x7F01001, 9)], dsOk, none) := by decide +kernel

/-- Mover 0 runs a program of one instruction. -/
def tPrg (i : List Byte) (f : Mover → Mover) : State :=
  tMv (later tS 20000) (fun m => f { m with prgMode := true, prgRun := true, ram := Memory.writeN [] 0 i })

theorem witness_MoverProgramsRun :
    (let s := tPrg [1, 0x10, 0x11, 0, 4, 0, 0, 0] id; s.prgOn 0 = true ∧ (s.mover 0).wait = none ∧ leAt (s.mover 0).insn 0 1 = 1
      ∧ s.prgUndef (s.prgDesc 0) = false ∧ moveSt s (s.prgDesc 0) (s.prgDesc 0).length Xfer.none = (4, dsOk)
      ∧ (moveSt s (s.prgDesc 0) (s.prgDesc 0).length badX).2 ≠ dsOk)
    ∧ (let s := tPrg [1, 0x10, 0x11, 0, 0, 0, 0, 0] id; s.prgOn 0 = true ∧ leAt (s.mover 0).insn 0 1 = 1 ∧ s.prgUndef (s.prgDesc 0) = true)
    ∧ (let s := tPrg [0] id; s.prgOn 0 = true ∧ (s.mover 0).wait = none ∧ leAt (s.mover 0).insn 0 1 = 0)
    ∧ (let s := tPrg [6] id; 5 < leAt (s.mover 0).insn 0 1)
    ∧ (let s := tPrg [2, 3, 0, 0, 0, 1] id; leAt (s.mover 0).insn 0 1 = 2 ∧ 256 ≤ leAt (s.mover 0).insn 4 2)
    ∧ (let s := tPrg [4, 4] id; leAt (s.mover 0).insn 1 1 = 4)
    ∧ (let s := tPrg [4, 5] id; 4 < leAt (s.mover 0).insn 1 1)
    ∧ (let s := tPrg [3, 6, 255, 0] id; leAt (s.mover 0).insn 0 1 = 3 ∧ 5 < leAt (s.mover 0).insn 1 1)
    ∧ (let s := tPrg [2, 3, 0, 0, 255, 0] id; s.prgOn 0 = true ∧ leAt (s.mover 0).insn 0 1 = 2 ∧ leAt (s.mover 0).insn 4 2 < 256
      ∧ (s.mover 0).k.get (leAt (s.mover 0).insn 1 1 % 4) 0 = 0)
    ∧ (let s := tPrg [2, 3, 0, 0, 255, 0] (fun m => { m with k := [(3, 1)] }); (s.mover 0).k.get (leAt (s.mover 0).insn 1 1 % 4) 0 = 1)
    ∧ (let s := tPrg [2, 3, 0, 0, 255, 0] (fun m => { m with k := [(3, 2)] }); (s.mover 0).k.get (leAt (s.mover 0).insn 1 1 % 4) 0 = 2)
    ∧ (let s := tPrg [4, 1] id; s.prgOn 0 = true ∧ leAt (s.mover 0).insn 0 1 = 4 ∧ leAt (s.mover 0).insn 1 1 = 1)
    ∧ (let s := tPrg [4, 2] id; leAt (s.mover 0).insn 0 1 = 4 ∧ leAt (s.mover 0).insn 1 1 = 2)
    ∧ (let s := tPrg [4, 3] id; leAt (s.mover 0).insn 0 1 = 4 ∧ leAt (s.mover 0).insn 1 1 = 3)
    ∧ (let s := tPrg [5, 9] id; s.prgOn 0 = true ∧ leAt (s.mover 0).insn 0 1 = 5)
    ∧ (let s := tPrg [3, 3, 255, 0] id; s.prgOn 0 = true ∧ leAt (s.mover 0).insn 0 1 = 3 ∧ leAt (s.mover 0).insn 1 1 = 3 ∧ leAt (s.mover 0).insn 2 2 < 256
      ∧ fld (BitVec.ofNat 64 (leAt (s.mover 0).insn 8 8)) 0 32 = 0
      ∧ (s.prgEvent 0 { source := 3, operand := 0, alt := 255, startTick := s.tick, limitUs := 0 } false).isSome = true)
    ∧ (let s := tPrg [3, 4, 255, 0] id; s.prgOn 0 = true ∧ leAt (s.mover 0).insn 0 1 = 3 ∧ (s.mover 0).wait = none
      ∧ s.prgEvent 0 { source := 4, operand := 0, alt := 255, startTick := s.tick, limitUs := 0 } false = none
      ∧ (let u := tPrg [3, 4, 255, 0] (fun m => { m with event := true }); (u.mover 0).event = true))
    ∧ (let u : QUnit := { group := none, data := [], place := none, bytes := 64, lun := 0, mover := some 0, taken := false, moved := false, programmed := false }
      (let s := { later tS 20000 with lq := { tS.lq with units := [u] } }; s.nextUnit 0 = some (0, u))
      ∧ (let s := { later tS 20000 with lq := { tS.lq with units := [{ u with programmed := true }] } }; s.nextUnit 0 = none ∧ s.unitsClosed = true)
      ∧ ((later tS 0).updDreq 15 (fun d => { d with pending := 1 })).takeDreq 15 ≠ none)
    ∧ (let w : MvWait := { source := 4, operand := 0, alt := 7, startTick := 0, limitUs := 1 }; let s := tPrg [3, 4, 7, 0] (fun m => { m with wait := some w })
      s.prgOn 0 = true ∧ (s.mover 0).wait = some w ∧ w.limitUs ≠ 0 ∧ s.passedUs w.startTick w.limitUs = true)
    ∧ (let u : QUnit := { group := none, data := [], place := none, bytes := 64, lun := 0, mover := some 63, taken := false, moved := false, programmed := false }
      let s := { later tS 20000 with top := { tS.top with mode := .quench }, lq := { tS.lq with units := [u] } }
      s.inMode [.quench] = true ∧ s.lq.units.any (fun u => decide (u.mover = some 63) && !u.taken && !u.programmed) = true
      ∧ s.passedUs (s.mover 63).tookAt (fld s.mv.cfg 16 16) = true ∧ s.nextMover 63 = some 0) := by
  decide +kernel

theorem test_mv_loop : (match exec (.mvLoop 0) (tPrg [2, 3, 0, 0, 255, 0] (fun m => { m with k := [(3, 2)] })) with
    | .next t => some ((t.mover 0).pc, (t.mover 0).k.get 3 0) | _ => none) = some (255, 1) := by decide +kernel


/-! ## Witnesses: media and Scheduler (chapters 7 and 8) -/

def tJob : PageJob :=
  { lun := 0, block := 0, page := 0, kind := 1, seg := 0, row := 0, cls := 2, crew := 0, deadline := 0, units := 0, bytes := 64, data := [], tag := [], writes := []
    suspends := false, issued := true, ready := false, askedAt := 0 }

/-- LUN 0 with operation `o`, and page job 0. -/
def tLun (o : LunOp) : State :=
  let s := later tS 1000000
  { s with
    fc := { s.fc with luns := [(0, { Lun.absent with present := true, op := o })] }, mm := { s.mm with vendor := [tVend], jobs := [(0, tJob)] } }

/-- The same with page job 0, issued or not, over the suspended operation. -/
def tOver (o : LunOp) (issued : Bool) : State :=
  let s := tLun o
  { s with
    fc := { s.fc with luns := [(0, { Lun.absent with present := true, op := o, above := some 0 })] }, mm := { s.mm with jobs := [(0, { tJob with issued := issued })] } }

theorem witness_NandOperationsEnd :
    (tLun .idle).progJob 0 = none ∧ (tLun (.program 0)).progJob 0 = some (0, tJob)
    ∧ ((tLun (.program 0)).lun 0).above = none ∧ ((tOver (.eraseSusp 5 true) true).lun 0).above = some 0
    ∧ ((tLun (.erase 5 true)).lun 0).op = .erase 5 true
    ∧ (let s := tOver (.eraseSusp 5 true) false; (s.lun 0).op = .eraseSusp 5 true ∧ (s.lun 0).above = some 0 ∧ s.mm.jobs.find 0 = some { tJob with issued := false })
    ∧ ((tLun .idle).lun 0).op = .idle
    ∧ (let s := tLun (.read 0); (s.lun 0).op = .read 0 ∧ s.mm.jobs.find 0 = some tJob ∧ tJob.issued = true ∧ tJob.ready = false)
    ∧ (tLun .idle).opLimitUs 0 = none := by
  decide +kernel

theorem witness_NandOperationsEnd_late :
    (let s := tLun (.program 0); s.opLimitUs 0 = some 120 ∧ s.passedUs (s.lun 0).opAt 120 = true
      ∧ ((s.drive (.nandReset 0)).report 0x1A 0 kindLun 0 0).progJob 0 = some (0, tJob)
      ∧ (later s 0).passedUs (s.lun 0).opAt 120 = false)
    ∧ (let s := tLun (.erase 5 true); s.opLimitUs 0 = some 80 ∧ s.passedUs (s.lun 0).opAt 80 = true
      ∧ ((s.drive (.nandReset 0)).report 0x1A 0 kindLun 0 0).progJob 0 = none
      ∧ (((s.drive (.nandReset 0)).report 0x1A 0 kindLun 0 0).lun 0).op = .erase 5 true)
    ∧ (let s := tLun (.read 0); s.opLimitUs 0 = some 20 ∧ s.passedUs (s.lun 0).opAt 20 = true
      ∧ ((s.drive (.nandReset 0)).report 0x1A 0 kindLun 0 0).progJob 0 = none
      ∧ (((s.drive (.nandReset 0)).report 0x1A 0 kindLun 0 0).lun 0).op = .read 0) := by
  decide +kernel

def tSeg : Segment :=
  { set := 0, kind := .stream 1, gen := 0, blocks := [], row := 0, fill := 0, page := [], pageWrites := [], pageFirst := none, pageGroup := 0, xor := [], rowAt := some 0
    pageId := 0, closed := true, programmedAt := 0, heatAt := 0, age := 0, scrubAt := 0, scrubRow := 0 }

def tRec : Rec := { tRec3 with seq := 0, payload := [1], seg := some 0 }

/-- Segment 0 of stream 1, which keeps its records for `lim` ns; 400 days on both clocks. -/
def tUp (lim : Nat) : State :=
  let s := later (tObjs tS) 6000000000
  { s with mm := { s.mm with
      vendor := [tVend], segs := [(0, tSeg)], retClock := 400 * dayNs, heat := 400 * dayNs, streams := [(1, { tStr tRec with policy := 1, limit := lim, segs := [0] })]
      tasks := [Task.fresh 8 0 0 0] } }

/-- Fast-lane set 0 with an open row. -/
def tFl (at_ : Option Nat) : State :=
  let s := tUp 0
  { s with mm := { s.mm with
      sets := [(0, { members := [0, 1], fastLane := true, low := false })]
      flRows := [(0, { written := [0], passed := [], page := 0, blocks := [], openAt := at_, seg := segKeys, xor := [] })] } }

theorem witness_MediaUpkeep :
    (let s := tUp 0; 0 < segKeys ∧ s.mm.segs.find 1 = none ∧ s.mm.segs.find 0 = some tSeg ∧ tSeg.rowAt = some 0 ∧ s.passedMs 0 (fld s.mm.rowCfg 0 16) = true
      ∧ fld s.mm.retCfg 12 8 * dayNs ≤ s.mm.retClock - tSeg.scrubAt ∧ s.retDays tSeg * dayNs ≤ s.retAge tSeg
      ∧ s.mm.tasks.contains (Task.fresh 8 0 0 0) = true ∧ s.mm.tasks.contains (Task.fresh 4 0 0 0) = false)
    ∧ (let s := { tUp 0 with mm := { (tUp 0).mm with retClock := 0, heat := 0, tasks := [], segs := [(0, { tSeg with rowAt := none })] } }
      s.mm.retClock - tSeg.scrubAt < fld s.mm.retCfg 12 8 * dayNs ∧ s.retAge tSeg < s.retDays tSeg * dayNs ∧ s.mm.tasks.contains (Task.fresh 8 0 0 0) = false)
    ∧ (let s := tFl (some 0); segKeys ≤ segKeys ∧ s.flSets.find? (fun p => decide ((s.flRow p.1).seg = segKeys)) = some (0, { members := [0, 1], fastLane := true, low := false })
      ∧ (s.flRow 0).openAt = some 0 ∧ ((tFl none).flRow 0).openAt = none) := by
  decide +kernel

theorem witness_MediaUpkeep_tasks :
    (let s := tUp 0; s.annealOn = true ∧ s.mm.running = none ∧ s.nextTask.isSome = true ∧ s.mmWrites = true ∧ s.ckptDue = true)
    ∧ tS.annealOn = true ∧ tS.mm.running = none ∧ tS.nextTask = none ∧ tS.ckptDue = false ∧ (tLun .idle).mmWrites = true
    ∧ ({ tS with top := { tS.top with mode := .boot } } : State).annealOn = false
    ∧ (let r := Task.fresh 9 0 0 0; let s := { tUp 0 with mm := { (tUp 0).mm with running := some r } }
      s.annealOn = true ∧ s.mm.running = some r ∧ s.nextTask.any (fun t => decide (t.rank < r.rank)) = true)
    ∧ (let r := Task.fresh 1 0 0 0; let s := { tUp 0 with mm := { (tUp 0).mm with running := some r } }
      s.mm.running = some r ∧ s.nextTask.all (fun t => decide (r.rank ≤ t.rank)) = true)
    ∧ tS.stream 1 = none
    ∧ (let first := fun (x : Stream) => x.segs.find? (fun g => x.live.any (fun r => decide (r.seg = some g)))
      ((tUp 0).stream 1).any (fun x => decide (first x = some 0) && (tUp 0).overRetained x 0) = true
      ∧ ((tUp (400 * dayNs)).stream 1).any (fun x => decide (first x = some 0) && !(tUp (400 * dayNs)).overRetained x 0) = true
      ∧ ((tObjs tS).stream 1).any (fun x => decide (first x = none)) = true) := by
  decide +kernel

/-- Frames started at tick 0, seen at tick `n`. -/
def tFrame (n : Nat) : State := { later tS n with sch := { tS.sch with frameAt := some 0 } }

def tGWrite (k : WKind) (len : Nat) : GWrite :=
  { kind := k, charge := len, left := len, seg := none, asked := false, reads := [], spots := [], pages := [], rows := [], released := false }

def tGroup (c : Nat) (k : WKind) : Group :=
  { id := 0, pid := 0, cls := c, crew := 0, fn := 0, sqid := 0, tag := 0, writes := [tGWrite k 64], sealed := true, sealNo := 0, bell := 0, posted := false, deadline := 0
    late := 0, missed := false, askedAt := 0 }

theorem witness_SchedulerEvents :
    ((tFrame 200).slotDue 16).isSome = true ∧ ((tFrame (511 * 200 + 199)).slotDue 0) = some (511, 511 * 200) ∧ tS.slotDue 16 = none
    ∧ (let s := { tFrame 0 with lq := { tS.lq with groups := [tGroup 0 (.trimStream 1 0)] } }; s.slotDue 16 = some (0, 0)
      ∧ ((s.slotTable 16).patched 0 0).owner 0 = 1 ∧ (drainC0Turn s).isSome = true ∧ drainC0Turn (tFrame 0) = none)
    ∧ (tFrame 102400).frameDue = some 102400 ∧ (tFrame 5).frameDue = none
    ∧ tS.holdLimit 111 = some 200 ∧ 200 < 201 ∧ tS.holdLimit 127 = none
    ∧ (let s := { later tS 250000 with sch := { tS.sch with voidAt := some 0 } }; s.sch.voidAt = some 0 ∧ s.boundVoid = false
      ∧ (later s 0).boundVoid = true)
    ∧ tS.mayWrite 0 mmBlock = true ∧ tS.mayWrite 0 (blockOf 0x600000) = true ∧ fld (0x730100 : W32) 0 9 ≤ 256 ∧ arbiterListed (fld (0x730100 : W32) 16 7) = true
    ∧ 256 < fld (0x730101 : W32) 0 9 ∧ tS.mayWrite 63 mmBlock = false := by
  decide +kernel

theorem witness_SchedulerEvents_bounds :
    (let g := { tGroup 0 (.record 1 0 0 [1]) with sealed := false }; let s := { later tS 2001 with lq := { tS.lq with groups := [g] } }
      s.group 0 = some g ∧ g.cls = 0 ∧ g.late < g.records ∧ 20000 < s.sinceBell g.bell)
    ∧ (let g := tGroup 0 (.record 1 0 0 [1]); let s := { later tS 200001 with lq := { tS.lq with groups := [g] } }
      s.group 0 = some g ∧ g.sealed = true ∧ g.missed = false ∧ 0 < g.records ∧ g.durable = false ∧ 2000000 < s.sinceBell g.bell)
    ∧ (let g := { tGroup 0 (.trimStream 1 0) with missed := true }; g.records ≤ g.late ∧ g.missed = true)
    ∧ (let p := { tP [] with cls := 0, group := some 0 }; let s := later (tOn p) 4001
      s.prog 0 = some p ∧ s.engsWith (fun q => decide (q.pid = p.pid) && decide (q.cls = 0) && decide (q.phase ≠ .postwait) && (match q.timedBell with
          | some b => decide (40000 < s.sinceBell b) | none => false)) = [0]) := by
  decide +kernel

theorem test_bound_on_time :
    (let g := { tGroup 0 (.record 1 0 0 [1]) with sealed := false }; let s := { later tS 2000 with lq := { tS.lq with groups := [g] } }
     match exec (.c0BoundMiss 1 0) s with | .next t => decide (t.lq = s.lq) && decide (t.fcs = s.fcs) | _ => false) = true := by decide +kernel

/-! ## Witnesses: power and boot (chapters 9 and 16) -/

/-- A part whose bank is provisioned: 10 V to 8 V, 1 F, 10 W, tripping at 8.5 V and ready at 9 V. -/
def tBank (n : Nat) (f : Psv → Psv) : State :=
  { later tS n with psv := f { tS.psv with
      bankCfg := BitVec.ofNat 32 (8000 + 900 * 65536), bankTrip := BitVec.ofNat 32 (8500 + 9000 * 65536), capNom := 1000000, senseCfg := 20000, boardMw := 10000
      pulseCfg := BitVec.ofNat 32 (0x80 + 1000 * 65536) } }

/-- A pulse that began at tick 0. -/
def tPulse (fitted : Option Nat) : Pulse := { startTick := 0, startMv := 10000, fitted := fitted, endTick := 0, test := false }

theorem witness_BankIsMeasuredAndArmed :
    (let s := tBank 200000 id; s.measures = true ∧ s.passedUs s.lq.lastCalc 1000 = true ∧ s.lq.c0Queue = [] ∧ s.lq.shQueue = [] ∧ (later s 0).passedUs s.lq.lastCalc 1000 = false)
    ∧ (let s := tBank 20000000 (fun p => { p with goodAt := some 0 }); s.pulseReady = true ∧ (s.sampleBank 10000).pulseDue = true ∧ (s.sampleBank 10000).psv.cPub = 0)
    ∧ (let s := tBank 20000000 (fun p => { p with goodAt := some 0, cap := 1000000 }); s.pulseReady = true ∧ (s.sampleBank 10000).pulseDue = true
      ∧ (s.sampleBank 10000).psv.cPub ≠ 0 ∧ (s.sampleBank 10000).pulseCovered 10000 = true)
    ∧ (let s := { tBank 20000000 (fun p => { p with goodAt := some 0, cap := 1000000 }) with lq := { tS.lq with groups := [tGroup 2 (.record 1 0 0 [1])] } }
      s.pulseReady = true ∧ (s.sampleBank 10000).pulseDue = true ∧ (s.sampleBank 10000).psv.cPub ≠ 0 ∧ (s.sampleBank 10000).pulseCovered 10000 = false)
    ∧ tS.pulseReady = false
    ∧ (let s := { tS with mgp := { tS.mgp with running := true } }; s.measures = true ∧ s.mgp.running = true)
    ∧ (let s := { later tS 200000 with lq := { tS.lq with unarmedAt := some 0 } }; s.evaluates = true ∧ s.fcs.causes.testBit 4 = false ∧ s.lq.armed = false
      ∧ s.lq.unarmedAt = some 0 ∧ s.passedUs 0 2000 = true) := by
  decide +kernel

theorem witness_BankIsMeasuredAndArmed_pulses :
    (let s := tBank 2000000000 (fun p => { p with pulse := some (tPulse none) });
      s.psv.pulse = some (tPulse none) ∧ (tPulse none).fitted = none
      ∧ (let l := [9990, 9800]; 10000 - l.getLastD 10000 < 250 ∧ l.length < 20000)
      ∧ (let l := (List.range 300).map (fun i => 10000 - i); 250 ≤ 10000 - l.getLastD 10000 ∧ s.passedUs 0 l.length = true ∧ (fitCap (fld s.psv.pulseCfg 16 16) l).isSome = true)
      ∧ (let l := [9740]; 250 ≤ 10000 - l.getLastD 10000 ∧ s.passedUs 0 l.length = true ∧ fitCap (fld s.psv.pulseCfg 16 16) l = none)
      ∧ (let l := List.replicate 20000 9951; (20000 : Nat) ≤ l.length ∧ s.passedUs 0 l.length = true ∧ 10000 - l.getLastD 10000 < 50)
      ∧ (later s 0).passedUs 0 1 = false)
    ∧ (let s := tBank 100000000 (fun p => { p with pulse := some (tPulse (some 900000)), lastCap := 1000000 })
      s.psv.pulse = some (tPulse (some 900000)) ∧ s.psv.provisioned = true ∧ (10000 : Nat) ≤ 10000 ∧ s.sinceNs 0 ≤ 1000 * msNs
      ∧ s.psv.lastCap * 9 ≤ min 900000 s.psv.nom * 10 ∧ 9999 < 10000 ∧ s.passedMs 0 1000 = true)
    ∧ (let s := tBank 100000000 (fun p => { p with pulse := some (tPulse (some 800000)), lastCap := 1000000 })
      s.psv.pulse = some (tPulse (some 800000)) ∧ min 800000 s.psv.nom * 10 < s.psv.lastCap * 9)
    ∧ (let s := tBank (48 * 3600 * 100000000) (fun p => { p with lastOk := some 0 }); s.measures = true ∧ s.psv.stale = false ∧ s.psv.lastOk = some 0
      ∧ s.passedMs 0 (48 * 3600 * 1000) = true) := by
  decide +kernel

def tMode (m : Mode) : State := { State.reset with top := { State.reset.top with mode := m } }

theorem witness_PowerLossAndReturn :
    tS.powered = true ∧ tS.inMode [.quench, .hold] = false ∧ (tMode .hold).inMode [.quench, .hold] = true
    ∧ (let s := tBank 0 (fun p => { p with tripEff := 8600 }); s.psv.provisioned = true ∧ (8599 : Nat) < s.psv.tripEff)
    ∧ (let s := { tMode .quench with psv := { tS.psv with phase := .running 0 }, lq := { tS.lq with quenchSet := [0] } }; s.psv.phase = .running 0
      ∧ s.inMode [.quench] = true ∧ s.lq.quenchSet ≠ [] ∧ s.unitsClosed = true
      ∧ (let t := { s with lq := { s.lq with quenchSet := [] } }; t.psv.phase = .running 0 ∧ t.lq.quenchSet = []))
    ∧ (let s := { tMode .quench with psv := (tBank 0 (fun p => { p with phase := .done })).psv }; s.inMode [.quench] = true ∧ s.psv.phase = .done
      ∧ s.inputGood true 9000 = true)
    ∧ (let s := { tMode .hold with psv := (tBank 0 id).psv }; s.inMode [.hold] = true ∧ s.inputGood false 9000 = false)
    ∧ (let s := { later (tMode .hold) 5000000 with psv := { tS.psv with holdAt := some 0 } }; s.inMode [.hold] = true ∧ s.psv.holdAt = some 0 ∧ s.passedMs 0 50 = true)
    ∧ (tMode .quench).inMode [.quench, .hold] = true ∧ (tMode .off).inMode [.off, .backup] = true ∧ (tMode .off).psv.lost = false
    ∧ (let s := { tMode .off with psv := { tS.psv with lost := true } }; s.psv.lost = true)
    ∧ (tMode .off).inMode [.off] = true ∧ (tMode .backup).inMode [.backup] = true := by
  decide +kernel

/-- A part in Load whose clusters are ready, with the image `img`. -/
def tLoad (locked : Bool) (img : Image) : State :=
  { tMode .load with
    top := { (tMode .load).top with image := img }, otp := { (tMode .load).otp with locked := locked }
    eng := { (tMode .load).eng with clusters := (List.range 16).map (fun c => (c, { Cluster.reset with ready := true })) } }

theorem witness_BootLoadRebuild :
    (tMode .boot).inMode [.boot] = true ∧ (tMode .boot).top.bootFail = false
    ∧ (let s := tMode .boot; let u := s.noteNors none none; (u.tryImage none).1 = false ∧ ((u.tryImage none).2.tryImage none).1 = false)
    ∧ (let s := tLoad true Image.empty; s.inMode [.load] = true ∧ (∀ c, c < 16 → (s.cluster c).ready = true) ∧ s.loadImage.otp.locked = true)
    ∧ (let s := tLoad false Image.empty; s.loadImage.otp.locked = false ∧ (s.loadImage.writeRwl (rwlEntries s.top.image.config)).isSome = true)
    ∧ (tMode .load).inMode [.load] = true ∧ ((tMode .load).cluster 3).ready = false
    ∧ (let s := { tMode .rebuild with mm := { State.reset.mm with landingEmpty := true } }
      s.inMode [.rebuild] = true ∧ s.rebuildCause ≠ .unclean ∧ s.psv.lost = false) := by
  decide +kernel

/-- Cell Pool queue 4095 of function 0, changed by `f`. -/
def tCell (f : CQueue → CQueue) : State := tS.updCpq 4095 (fun c => f { c with en := true, cap := 10 })

theorem witness_CellPoolAccess :
    (let s := tCell id; s.holds 0 7 4095 1 = true ∧ s.mayWrite 0 (blockOf 0x800000) = true ∧ (3 : W32).getLsbD 31 = false
      ∧ s.mayRead 0 (blockOf 0x800000) false = true ∧ s.holds 0 7 4095 0 = true ∧ (s.cpq 4095).en = true ∧ (s.cpq 4095).words = [])
    ∧ (let w : CWord := { payload := 1, sop := true, eop := false }; let s := tCell (fun c => { c with words := [w] }); (s.cpq 4095).en = true ∧ (s.cpq 4095).words = [w])
    ∧ (let s := tCell (fun c => { c with en := false }); s.mayWrite 0 (blockOf 0x81C000) = true ∧ (s.cpq 4095).en = false)
    ∧ (let s := tCell (fun c => { c with reserve := 5 }); s.cpl.rsvTotal - (s.cpq 4095).reserve + fld (0x40000 : W32) 0 19 ≤ poolCells
      ∧ poolCells < s.cpl.rsvTotal - (s.cpq 4095).reserve + fld (0x40001 : W32) 0 19) := by
  decide +kernel

theorem witness_CellPoolAccess_more :
    (0x80000003 : W32).getLsbD 31 = true ∧ tS.holds 0x20 7 4095 1 = false ∧ tS.mayWrite 0x20 (blockOf 0x800000) = false ∧ tS.mayRead 0x20 (blockOf 0x800000) false = false
    ∧ (let s := tCell id; (s.cpq 4095).pkt = false ∧ s.cpFull 4095 = false)
    ∧ (let s := { tCell id with otp := { tS.otp with locked := true } }; s.holds 0 7 4095 0 = false)
    ∧ ((tCell id).cpq 4095).en = true := by
  decide +kernel

theorem test_cpl_pop_order :
    (let w : CWord := { payload := 1, sop := true, eop := false }; let v : CWord := { payload := 2, sop := false, eop := true }
     match exec (.cplPop 0 4095) (tCell (fun c => { c with words := [w, v] })) with
     | .next t => some ((t.cpq 4095).words.map (fun w => w.payload), t.cpl.popHi.get (cpKey 0 4095) 0) | _ => none) = some ([2], 1) := by decide +kernel

/-! ## Witnesses: mailboxes and timers (chapter 15) -/

/-- Channel 255 joins function 0 and function 1; `n` words wait from end 0. -/
def tBox (n : Nat) : State :=
  (later tS 100000000).updMchan 255 (fun c => { c with en := true, e0 := { c.e0 with kind := kindHost, mid := 0 }, e1 := { c.e1 with kind := kindHost, mid := 1 }
                                                       q01 := List.replicate n { value := 1, mid := 0 } })

theorem witness_MailboxesDeliver :
    fnOf 0 = some 0 ∧ (tBox 0).fcs.fencedFns.contains 0 = false ∧ ((tBox 0).mchan 255).windowEnd 0 = some false ∧ ((tBox 0).mchan 255).en = true
    ∧ (((tBox 0).mchan 255).side false).kind = kindHost ∧ (((tBox 7).mchan 255).outq false).length < mbxDepth ∧ ((tBox 0).mchan 255).compat = false
    ∧ (fnOf 1 = some 1 ∧ ((tBox 1).mchan 255).windowEnd 1 = some true ∧ (((tBox 1).mchan 255).side true).kind = kindHost
      ∧ ((tBox 1).mbxTake 255 true).1 = some { value := 1, mid := 0 })
    ∧ (let s := (tBox 0).updMchan 255 (fun c => { c with en := false }); let v : W32 := 0x80000100; s.mayWrite 0 (blockOf 0xD80000) = true
      ∧ (s.mchan 255).windowEnd 0 = some false ∧ (s.mchan 255).compat = false ∧ (s.mchan 255).en = false ∧ v.getLsbD 31 = true ∧ fld v 0 6 ≠ fld v 8 6
      ∧ endFits (fld v 0 6) (fld v 6 2) = true ∧ endFits (fld v 8 6) (fld v 14 2) = true ∧ fld v 6 2 ≠ kindNode ∧ fld v 14 2 ≠ kindNode)
    ∧ (let s := { tBox 8 with mbx := { (tBox 8).mbx with cfg := 1 } }; fld s.mbx.cfg 0 16 ≠ 0 ∧ (s.mchan 255).en = true
      ∧ ((s.mchan 255).outq false).length = mbxDepth ∧ s.passedMs ((s.mchan 255).outAt false) (fld s.mbx.cfg 0 16) = true) := by
  decide +kernel

theorem witness_MailboxesDeliver_more :
    ((tBox 0).mchan 255).windowEnd 2 = none ∧ ({ tBox 0 with fcs := { tS.fcs with fencedFns := [0] } } : State).fcs.fencedFns.contains 0 = true
    ∧ ((tBox 8).mchan 255).outq false = List.replicate 8 { value := 1, mid := 0 } ∧ mbxDepth ≤ (((tBox 8).mchan 255).outq false).length
    ∧ ((tBox 0).mchan 255).inq true = [] ∧ ((tBox 1).mchan 255).inq true = [{ value := 1, mid := 0 }]
    ∧ (let s := (tBox 0).updMchan 255 (fun c => { c with compat := true }); (s.mchan 255).compat = true)
    ∧ (let s := (tBox 0).updMchan 255 (fun c => c.updSide false (fun m => { m with kind := kindEngine })); (s.mchan 255).windowEnd 0 = some false
      ∧ ((s.mchan 255).side false).kind ≠ kindHost)
    ∧ (let v : W32 := 0x80000000; fld v 0 6 = fld v 8 6) ∧ (0x100 : W32).getLsbD 31 = false ∧ (tBox 0).mayWrite 0x20 (blockOf 0xD80000) = false
    ∧ (tBox 0).waiters (fun k => match k with | .mbx c _ => decide (c = 255) | _ => false) = [] := by
  decide +kernel

def tTimer (n : Nat) : State := { later tS n with tmr := { (later tS n).tmr with timers := [(63, { Timer.reset with ctrl := 1, armed := true, cmp := 100 })] } }

theorem witness_TimersAndCaptures :
    (tTimer 10).tmrDue 63 = true ∧ (tTimer 9).tmrDue 63 = false ∧ (tTimer 9).mayWrite 0 tmrBlock = true
    ∧ (let s := { tS with tmr := { tS.tmr with caps := [(15, { Capture.reset with ctrl := 1, lastTick := some 0 })] } }
      (s.capture 15).ctrl.getLsbD 0 = true ∧ (s.capture 15).lastTick = some s.tick)
    ∧ (let s := { later tS 1 with tmr := { tS.tmr with caps := [(15, { Capture.reset with ctrl := 1, lastTick := some 0 })] } }
      (s.capture 15).ctrl.getLsbD 0 = true ∧ (s.capture 15).ctrl.getLsbD 1 = false ∧ (s.capture 15).lastTick ≠ some s.tick)
    ∧ (let s := { later tS 300000000 with tmr := { tS.tmr with discSrc := 2, disc := discLocked } }; s.tmr.discSrc = 2 ∧ s.tmr.disc = discLocked
      ∧ s.passedMs s.tmr.sampleTick 3000 = true) := by
  decide +kernel

theorem witness_TimersAndCaptures_more :
    (tTimer 10).mayWrite 0 tmrBlock = true ∧ (tTimer 10).mayWrite 0x20 tmrBlock = false ∧ (tS.capture 15).ctrl.getLsbD 0 = false
    ∧ (let s := ({ tS with tmr := { tS.tmr with discSrc := 1, discPort := 0 } } : State).updFport 0 (fun p => { p with cfg := 4, gptp := gptpSlave })
      s.tmr.discSrc = 1 ∧ s.tmr.discPort = 0 ∧ (s.fport 0).cfg.getLsbD 2 = true ∧ (s.fport 0).gptp = gptpSlave ∧ s.tmr.discSrc ≠ 2)
    ∧ tS.passedMs tS.tmr.sampleTick 3000 = false := by
  decide +kernel

/-! ## Witnesses: faults (chapter 13) -/

theorem witness_SourcesAreCollected :
    tS.powered = true ∧ (tMode .off).powered = false ∧ tS.lineDead 1151 = false ∧ tS.fcs.window = false
    ∧ (let r : Report := { cls := 0x28, detail := 0, kind := kindRail, unit := 0x10, info := 0 }
      (let s := { tS with fcs := { tS.fcs with window := true } }; s.powered = true ∧ s.lineDead 1151 = false ∧ s.fcs.window = true ∧ s.fcs.asserted.contains r = false)
      ∧ (let s := { tS with fcs := { tS.fcs with window := true, asserted := [r] } }; s.fcs.asserted.contains r = true))
    ∧ (tS.updEngine 5 (fun g => { g with fenced := true })).lineDead 5 = true
    ∧ (let s := tC 10000 id; s.powered = true ∧ s.passedUs s.fcs.hbAt 100 = true ∧ s.asked 71 = true ∧ s.fcs.hbFail.contains 71 = false) ∧ tS.passedUs tS.fcs.hbAt 100 = false
    ∧ ({ cls := 0x10, detail := 0xF, kind := kindMover, unit := 63, info := 0 } : Report).listed = true
    ∧ (let s := later tS 100000; s.passedUs s.fcs.scrubAt 1000 = true ∧ s.meetsPart 0 (32 * mib - 1) 1 = true) ∧ tS.passedUs tS.fcs.scrubAt 1000 = false
    ∧ (let s := { later tS 800000 with lpc := { tS.lpc with xts := [(7, { tS.xt 7 with win := some (0, 0, 8), loaded := true })] } }
      (s.xt 7).win.isSome = true ∧ (s.xt 7).loaded = true ∧ s.passedMs (s.fcs.pinScrubAt.get 7 0) 8 = true ∧ (s.xt 6).win = none) := by
  decide +kernel

theorem witness_WindowsAndWatchdogs :
    (let s := { tS with fcs := { tS.fcs with window := true } }; s.fcs.window = true) ∧ tS.fcs.window = false
    ∧ (let s := { later tS 25000000 with fcs := { tS.fcs with fault := true } }
      (s.fcs.fault && !s.fcs.window && !s.fcs.safeState && s.fcs.inbox.isEmpty && s.passedMs s.fcs.quietAt (fld s.fcs.quiet 0 16)) = true)
    ∧ (tS.fcs.fault && !tS.fcs.window && !tS.fcs.safeState && tS.fcs.inbox.isEmpty && tS.passedMs tS.fcs.quietAt (fld tS.fcs.quiet 0 16)) = false
    ∧ tS.mayWrite 0 fcsBlock = true ∧ (1 : W32).getLsbD 0 = true ∧ tS.fcs.fresh = none ∧ (2 : W32).getLsbD 0 = false
    ∧ (let r : Report := { cls := 0x28, detail := 0, kind := kindRail, unit := 0x10, info := 0 }; let s := { tS with fcs := { tS.fcs with fresh := some (r, 5) } }
      s.mayWrite 0 fcsBlock = true ∧ s.fcs.fresh = some (r, 5))
    ∧ tS.powered = true ∧ tS.mgp.running = false ∧ ({ tS with mgp := { tS.mgp with running := true } } : State).mgp.running = true
    ∧ (let s := { later tS 50000000 with fcs := { tS.fcs with mgpRestart := some 0 }, mgp := { tS.mgp with restartAt := some 0 } }; s.powered = true
      ∧ s.fcs.mgpRestart = some 0 ∧ s.passedMs 0 500 = true ∧ s.mgp.restartAt.isSome = true) ∧ tS.fcs.mgpRestart = none
    ∧ (let s := later tS 200000; s.powered = true ∧ s.fcs.iwdgHalted = false ∧ s.fcs.iwdgExpired = false ∧ s.passedUs s.fcs.iwdgServed 1000 = true
      ∧ s.passedUs s.fcs.iwdgServed 2000 = true) ∧ tS.passedUs tS.fcs.iwdgServed 1000 = false := by
  decide +kernel


/-! ## Witnesses: command packets (chapter 12) -/

/-- A packet of function 0: opcode, flags, parameter bytes by place, DATA_LEN; version 1, TAG 7. -/
def pk (opc fl : Nat) (ps : List (Nat × Byte)) (len : Nat) : Packet :=
  { fn := 0, mid := 0, tick := 0, no := 5, started := false, committed := false, begun := 0, resetting := false, inner := none, mute := false
    bytes := (List.range 64).map (fun k => match ps.find? (fun x => decide (x.1 = k)) with
      | some x => x.2
      | none => if k < 56 then (leBytes 2 opc ++ [BitVec.ofNat 8 fl, 1, 7]).getD k 0 else (leBytes 4 len).getD (k - 56) 0) }

/-- State `s` with packet `p` in hand and the Management Processor running. -/
def tPk (s : State) (p : Packet) : State := { tLink s with mgp := { s.mgp with running := true, staged := [p] } }
def tPkM (m : Mode) (p : Packet) : State := tPk (tMode m) p

/-- The conditions under which a row of `packetRows` has its effect, on a part that is not locked. -/
def passes (k : Nat) (s : State) (d : Rd) : Bool :=
  match (packetRows 0 d Image.empty [] 1)[k]?, s.turn with
  | some (_, c, di), some p =>
    let u := s.afterTurn p
    let data := if c.data = .input ∧ c.long = false then dataOf di p.len else some []
    let r := p.req (data.getD [])
    decide (p.fn = 0) && c.is p && decide (r.version = 1) && !c.malformed r && decide (u.verdict c r data.isSome = none) && !u.longBusy c p
      && !r.dry && !u.otp.locked
  | _, _ => false

/-- Capacity for objects: one stripe set of one LUN. -/
def tCap : State :=
  let s := tObjs tS
  let u : Lun := { Lun.absent with present := true, free := [1, 2, 3, 4], vend := 0 }
  let v : List Byte := List.replicate 8 0 ++ leBytes 4 16384 ++ leBytes 2 0 ++ leBytes 2 10 ++ List.replicate 240 0
  { s with
    fc := { s.fc with luns := [(0, u)] }
    mm := { s.mm with capCfg := 0, sets := [(0, { members := [0], fastLane := false, low := false })], vendor := [v] } }

def noD : Rd := .error

def tCkpt : Checkpoint := { gen := 1, time := 0, mc := [0, 0, 0], mark := true, quench := 0 }

theorem witness_PacketsRunTheirCommands_queues :
    ([(0, tPk (tOn (tP [])) (pk 0x0101 0 [(8, 9), (13, 1)] 0)), (1, tPk (tQ (fun q => { q with en := false })) (pk 0x0102 0 [] 0)),
      (2, tPk tS (pk 0x0103 0 [(8, 9), (13, 1)] 0)), (3, tPk ({ tS with qe := { tS.qe with cqs := [(0, tCq)] } } : State) (pk 0x0104 0 [] 0)),
      (4, tPk (tS.updCluster 0 (fun k => { k with seats := 64 })) (pk 0x0105 0 [(9, 2), (10, 1), (12, 1)] 0)),
      (5, tPk ((tOn (tP [])).updEngine 0 (fun g => { g with prog := none }) |>.updSq 0 (fun q => { q with crew := none })) (pk 0x0106 0 [] 0)),
      (6, tPk (tOn (tP [])) (pk 0x0107 0 [] 0))].all (fun x => passes x.1 x.2 noD)) = true := by decide +kernel

theorem witness_PacketsRunTheirCommands_stores :
    ([(7, tPk tS (pk 0x0201 0 [(8, 9), (10, 1)] 0), noD), (8, tPk tCap (pk 0x0202 0 [(8, 1)] 0), noD), (9, tPk tCap (pk 0x0203 0 [(8, 1)] 0), noD),
      (10, tPk tCap (pk 0x0204 0 [(8, 9), (17, 0x40)] 0), noD), (11, tPk tCap (pk 0x0205 0 [(8, 2)] 0), noD),
      (12, tPk ({ tS with mm := { tS.mm with slots := [(1, { image := [], version := 1, verified := true, durable := true })] } } : State) (pk 0x0207 0 [] 0), noD),
      (13, tPk tS (pk 0x0208 0 [(25, 0x10)] 0), noD), (14, tPk tS (pk 0x0209 0 [] 16), .data (List.replicate 16 0)), (15, tPk tS (pk 0x020A 0 [] 0), noD),
      (16, tPk tS (pk 0x0301 0 [(12, 1)] 1), .data [0]), (17, tPk tS (pk 0x0302 0 [(8, 2)] 0), noD),
      (18, tPk (tOn (tP [])) (pk 0x0303 0 [(8, 1), (18, 3)] 0), noD), (19, tPk tS (pk 0x0304 0 [(8, 50), (9, 4)] 0), noD),
      (20, tPk ({ tS with tru := { tS.tru with props := [{ id := 4, mid := 1, packet := [], data := [], digest := [], tick := 0 }] } } : State)
        (pk 0x0403 0 [(8, 4)] 0), noD)].all (fun x => passes x.1 x.2.1 x.2.2)) = true := by decide +kernel

/-- A part in mode Provision that the lock can close. -/
def tProv : State :=
  let s := tMode .provision
  { s with otp := { s.otp with roots := [2, 3, 6, 7].map (fun k => (k, { hash := [], programmed := true, revoked := false })) }
           tru := { s.tru with group := [0, 1], rules := [{ kind := 1, mid := 0, rights := 0, first := 0, last := 0 }] }
           psv := { s.psv with bankCfg := 0x10001, capNom := 1, senseCfg := 1, boardMw := 1 } }

/-- A vendor table of one entry. -/
def tTable : List Byte :=
  let h := leBytes 2 0xD2EC ++ [1, 1] ++ List.replicate 56 0
  let e := List.replicate 256 (0 : Byte)
  h ++ leBytes 4 (crc32c (h ++ e)).toNat ++ e

theorem witness_PacketsRunTheirCommands_trust :
    ([(21, tPk tS (pk 0x0404 0 [(8, 1)] 16), .data ([1, 0] ++ List.replicate 14 0)), (22, tPkM .provision (pk 0x0404 0 [(8, 2), (17, 1), (18, 0xFF), (19, 0xFF)] 0), noD),
      (23, tPkM .provision (pk 0x0404 0 [(8, 3), (10, 2)] 48), .data (List.replicate 48 3)),
      (24, tPk ({ tProv with top := tS.top } : State) (pk 0x0404 0 [(8, 4), (10, 2)] 0), noD), (25, tPk tS (pk 0x0404 0 [(8, 6), (12, 64)] 0), noD),
      (26, tPk tS (pk 0x0404 0 [(8, 7), (9, 31), (12, 5)] 0), noD), (27, tPk tS (pk 0x0404 0 [(8, 8), (14, 0x90)] 0), noD),
      (28, tPkM .provision (pk 0x0404 0 [(8, 9)] 32), .data ([32, 16, 8, 16, 16, 24, 8, 8].flatMap (leBytes 4))),
      (29, tPkM .provision (pk 0x0404 0 [(8, 10)] 320), .data tTable), (30, tPk tProv (pk 0x0404 0 [(8, 11)] 0), noD),
      (31, tPkM .provision (pk 0x0405 0 [(8, 1)] 0), noD)].all (fun x => passes x.1 x.2.1 x.2.2)) = true := by decide +kernel

theorem witness_PacketsRunTheirCommands_device :
    ([(32, tPk tS (pk 0x0501 0 [(8, 1)] 64), noD), (33, tPk tS (pk 0x0503 0 [(8, 1)] 0), noD), (34, tPk tS (pk 0x0601 0 [] 0), noD), (35, tPk tS (pk 0x0802 0 [] 64), noD),
      (36, tPk tS (pk 0x0901 0 [(8, 0x38)] 4), .data (List.replicate 4 0)), (37, tPk tS (pk 0x0A01 0 [(16, 9)] 0), noD), (38, tPk tS (pk 0x0A02 0 [(8, 2)] 0), noD),
      (39, tPk tS (pk 0x0B01 0 [(8, 2)] 0), noD), (40, tPk tS (pk 0x0B01 0 [(8, 4)] 0), noD),
      (41, tPk ({ tMode .provision with mm := { tS.mm with characterised := true, ckptA := some tCkpt } } : State) (pk 0x0B01 0 [(8, 5)] 0), noD),
      (42, tPk tS (pk 0x0B01 0 [(8, 0xB)] 0), noD), (43, tPk tS (pk 0x0B02 0 [] 0), noD), (44, tPk tS (pk 0x0B03 0 [] 128), noD),
      (45, tPk tS (pk 0x0701 0 [(8, 64)] 0), noD)].all (fun x => passes x.1 x.2.1 x.2.2)) = true := by decide +kernel

/-- The update in state `n`, with packet `p` in hand. -/
def tUpd (n : Nat) (p : Packet) : State := tPk ({ tMode .update with mgp := { tS.mgp with upd := { Update.none with state := n, length := 128 } } } : State) p

theorem witness_PacketsRunTheirCommands_background :
    ([(46, tPk tS (pk 0x0206 0 [] 2048)), (47, tPk tS (pk 0x0404 0 [(8, 5)] 0)), (48, tPk ({ tS with fc := { tS.fc with luns := [(5, { Lun.absent with fenced := true })] } } : State) (pk 0x0502 0 [(8, kindLun), (12, 5)] 0)),
      (49, tPk tS (pk 0x0602 0 [] 0)), (50, tPkM .provision (pk 0x0801 0 [(8, 1)] 0)), (51, tPkM .diagnostic (pk 0x0801 0 [(8, 2), (16, 15)] 0)),
      (52, tPkM .diagnostic (pk 0x0801 0 [(8, 3), (16, 63)] 0)), (53, tPkM .diagnostic (pk 0x0801 0 [(8, 4), (17, 1)] 0)), (54, tUpd 1 (pk 0x0702 0 [] 64)),
      (55, tUpd 2 (pk 0x0703 0 [] 0)), (56, tUpd 3 (pk 0x0703 0 [(8, 1), (9, 15)] 0)), (57, tUpd 5 (pk 0x0704 0 [] 0)),
      (58, tUpd 3 (pk 0x0705 0 [] 0))].all (fun x => passes x.1 x.2 noD)) = true := by decide +kernel

/-- The checks that end a packet before its effect, each with a packet that they end: version, malformed, a failed check, a second background command, DRY_RUN and
a protected command of a locked part. -/
theorem witness_PacketsRunTheirCommands_checks :
    (let s := tPk tS (pk 0x0B02 0 [(3, 2)] 0); (match s.turn with | some p => cmdIdentify.is p && decide ((p.req []).version ≠ 1) | none => false) = true)
    ∧ (let s := tPk tS (pk 0x0B02 0 [(8, 1)] 0); (match s.turn with | some p => decide ((p.req []).version = 1) && cmdIdentify.malformed (p.req []) | none => false) = true)
    ∧ (let s := tPkM .quench (pk 0x0B02 0 [] 0); s.turn = none)
    ∧ (let s := tPkM .rebuild (pk 0x0201 0 [(10, 1)] 0); (match s.turn with
        | some p => !cmdCreateStream.malformed (p.req []) && decide ((s.afterTurn p).verdict cmdCreateStream (p.req []) true = some Status.modeWrong) | none => false) = true)
    ∧ (let p := pk 0x0602 0 [] 0; let s := tPk tS p; let s := { s with mgp := { s.mgp with staged := [{ p with no := 4, started := true }, p] } }
       (match s.turn with | some q => decide (q = p) && decide ((s.afterTurn q).verdict cmdBankTest (q.req []) true = none) && (s.afterTurn q).longBusy cmdBankTest q | none => false) = true)
    ∧ (let s := tPk tS (pk 0x0B02 1 [] 0); (match s.turn with | some p => (p.req []).dry && !cmdIdentify.malformed (p.req []) && !cmdIdentify.verifies | none => false) = true)
    ∧ (let s := tPk tS (pk 0x0206 1 [] 2048); (match s.turn with | some p => (p.req []).dry && !cmdVaultInstall.malformed (p.req []) && cmdVaultInstall.verifies | none => false) = true)
    ∧ (let t := { tS with otp := { tS.otp with locked := true }, tru := { tS.tru with rules := [{ kind := 1, mid := 0, rights := 0xF00, first := 0, last := 0 }] } }
       let s := tPk t (pk 0x0304 0 [(8, 50), (9, 4)] 0); (match s.turn with
         | some p => (s.afterTurn p).otp.locked && cmdClass0Contract.prot (s.afterTurn p) (p.req []) && decide ((s.afterTurn p).verdict cmdClass0Contract (p.req []) true = none) | none => false) = true)
    ∧ (let t := { tS with otp := { tS.otp with locked := true } }
       let s := tPk t (pk 0x0B02 0 [] 0); (match s.turn with
         | some p => (s.afterTurn p).otp.locked && !cmdIdentify.prot (s.afterTurn p) (p.req []) && decide ((s.afterTurn p).verdict cmdIdentify (p.req []) true = none) | none => false) = true) := by
  decide +kernel

/-- Packets that the row does not take: none in hand, one of another function, another command, and one that the catalogue does not list. -/
theorem witness_PacketsRunTheirCommands_others :
    tS.turn = none
    ∧ ((tPk tS { pk 0x0B02 0 [] 0 with fn := 1, mid := 1 }).turn).any (fun p => decide (p.fn = 1)) = true
    ∧ ((tPk tS (pk 0x0B02 0 [] 0)).turn).any (fun p => !cmdCreateSq.is p && catalogue.contains p.opc) = true
    ∧ ((tPk tS (pk 0x0B77 0 [] 0)).turn).any (fun p => decide (p.fn = 0) && !catalogue.contains p.opc && !p.mute) = true := by
  decide +kernel

/-- Background commands in hand at their commit point. -/
def inHandNow (k : Nat) (p : Packet) (d : Rd) : Bool :=
  let s := tPk tS { p with started := true }
  match (commitRows 0 d true [] Image.empty [] 1)[k]? with
  | some (_, c, di) => decide (s.inHand c 0 = some { p with started := true }) && (if c.data = .input then dataOf di p.len else some []).isSome
  | none => false

theorem witness_BackgroundCommandsCommit :
    ([(0, pk 0x0206 0 [] 2, .data [1, 2]), (1, pk 0x0404 0 [(8, 5)] 0, noD), (2, pk 0x0502 0 [] 0, noD), (3, pk 0x0602 0 [] 0, noD), (4, pk 0x0801 0 [(8, 1)] 0, noD),
      (5, pk 0x0801 0 [(8, 2)] 0, noD), (6, pk 0x0801 0 [(8, 3)] 0, noD), (7, pk 0x0801 0 [(8, 4)] 0, noD), (8, pk 0x0702 0 [] 1, .data [0]),
      (9, pk 0x0703 1 [(8, 1)] 0, noD), (10, pk 0x0704 0 [] 0, noD), (11, pk 0x0705 0 [] 0, noD)].all (fun x => inHandNow x.1 x.2.1 x.2.2)) = true
    ∧ (let p := { pk 0x0703 0 [] 0 with started := true }
       (tUpd 2 p).restarting 0 = some p ∧ (tUpd 2 p).passedMs p.begun 500 = false
       ∧ ({ tUpd 2 p with tick := 60000000 } : State).restarting 0 = some p ∧ ({ tUpd 2 p with tick := 60000000 } : State).passedMs p.begun 500 = true) := by
  decide +kernel

theorem witness_BackgroundCommandsCommit_input :
    (let p := { pk 0x0206 0 [] 2 with started := true }; (tPk tS p).inHand cmdVaultInstall 0 = some p ∧ dataOf .error p.len = none)
    ∧ tS.inHand cmdVaultInstall 0 = none ∧ tS.restarting 0 = none := by
  decide +kernel

/-- One proposal of MID 1 for CLASS0_CONTRACT, stored at tick 0. -/
def tProp : Proposal := { id := 4, mid := 1, packet := (pk 0x0304 0 [(4, 0), (8, 50), (9, 4)] 0).bytes, data := [], digest := List.replicate 48 9, tick := 0 }
def tConsent (p : Packet) : State := tPk ({ tS with tru := { tS.tru with group := [0, 1], props := [tProp] } } : State) p

theorem witness_ConsentAndDebugEnd :
    (let s := { tConsent (pk 0x0B02 0 [] 0) with tick := 1000000000 }; s.tru.props = [tProp] ∧ s.passedMs tProp.tick 10000 = true
      ∧ s.mgpActs = true ∧ s.mgp.staged.find? (fun p => decide (p.fn = 0) && decide (leAt p.bytes 4 4 = (7 : W32).toNat) && s.overdue p) = some (pk 0x0B02 0 [] 0))
    ∧ (let s := { tProv with tru := { tProv.tru with challenge := some (1, [], 0) } }
       s.passedMs 0 60000 = false ∧ ({ s with tick := 6000000000 } : State).passedMs 0 60000 = true ∧ (s.rootAt (rootKey 0 3)).programmed = true
         ∧ (s.rootAt (rootKey 0 3)).revoked = false) := by
  decide +kernel

theorem witness_ProposalsAreRatified :
    (let d := (pk 0x0304 0 [(8, 50), (9, 4)] 0).bytes; let s := tConsent (pk 0x0401 0 [] 64); match s.turn with
      | some p => cmdPropose.is p && !s.proposeUndef p (.data d) && decide (dataOf (.data d) p.len = some d) && !cmdPropose.malformed (p.req d)
          && decide ((s.afterTurn p).verdict cmdPropose (p.req d) true = none) && !(p.req d).dry
      | none => false) = true
    ∧ (let s := tConsent (pk 0x0B02 0 [] 0); let r := fun (id mid : Nat) (d : List Byte) => ({ fn := 0, mid := mid, pkt := (pk 0x0402 0 [(8, BitVec.ofNat 8 id)] 48).bytes, data := d, dest := 0, no := 5, tag := 7 } : Req)
       s.pendingProp ((r 3 0 []).w 8) = none ∧ s.pendingProp ((r 4 1 []).w 8) = some tProp ∧ (r 4 1 []).mid = tProp.mid ∧ (r 4 0 []).mid ≠ tProp.mid
         ∧ ((r 4 0 []).data.take 48 ≠ tProp.digest ∧ (r 4 0 []).dry = false)
         ∧ (match s.ratified (r 4 0 tProp.digest) with | .go x c => decide (x = tProp) && decide (c.opc = 0x0304) | .refuse _ _ => false) = true)
    ∧ (let s := tConsent (pk 0x0402 0 [(8, 4)] 48); let d := tProp.digest; match s.turn with
      | some p => cmdRatify.is p && decide (dataOf (.data d) p.len = some d) && !cmdRatify.malformed (p.req d) && decide ((s.afterTurn p).verdict cmdRatify (p.req d) true = none)
      | none => false) = true
    ∧ (let p := { pk 0x0402 0 [(8, 4)] 48 with started := true, inner := some tProp }; (tConsent p).ratifying 0 = some (p, tProp)) := by
  decide +kernel

theorem witness_ProposalsAreRatified_ends :
    (let s := tConsent (pk 0x0401 0 [] 64); (s.turn).any (fun p => cmdPropose.is p && s.proposeUndef p (.data (pk 0x0304 0 [(9, 4), (20, 1)] 0).bytes)) = true)
    ∧ (let s := tConsent (pk 0x0B02 0 [] 0)
       let r : Req := { fn := 0, mid := 0, pkt := (pk 0x0402 0 [(8, 4)] 48).bytes, data := tProp.digest, dest := 0, no := 5, tag := 7 }
       let x := tProp.req r.fn r.no r.tag
       s.pendingProp (r.w 8) = some tProp ∧ r.mid ≠ tProp.mid ∧ r.data.take 48 = tProp.digest
       ∧ (cmdOf x).any (fun c => !c.long && decide (s.verdict c x true = none)) = true
       ∧ (let u := { s with top := { s.top with mode := .rebuild } }; (cmdOf x).any (fun c => (u.verdict c x true).isSome) = true))
    ∧ tS.turn = none ∧ tS.ratifying 0 = none := by
  decide +kernel

theorem witness_QueuesAreCreatedAndDeleted :
    (tOn (tP [])).sq (((pk 0x0106 0 [] 0).req []).h 8) = some tSq := by
  decide +kernel

theorem witness_KeyholdersWriteOtp_fuses :
    (let s := { later tS 100000 with psv := { tS.psv with mc := [(0, 2)] } }; s.otp.fuses < s.rollbackFloor ∧ s.passedMs s.tru.fuseAt 1 = true)
    ∧ tS.otp.fuses = tS.rollbackFloor ∧ tS.passedMs tS.tru.fuseAt 1 = false := by
  decide +kernel

theorem witness_KeyholdersWriteOtp :
    (let r := (pk 0x0404 0 [(8, 3), (10, 2)] 48).req (List.replicate 48 3); (tMode .provision).verdict cmdRootHash r true = none)
    ∧ tS.verdict cmdRollbackFloor ((pk 0x0404 0 [(8, 6), (12, 64)] 0).req []) true = none
    ∧ tS.verdict cmdVaultFloor ((pk 0x0404 0 [(8, 7), (9, 31), (12, 5)] 0).req []) true = none := by
  decide +kernel

/-- A floor that falls is refused (R406, R407). -/
theorem test_floors_never_fall :
    (let s := { tS with otp := { tS.otp with fuses := 9, vaultFloors := [(3, 6)] } }
     s.verdict cmdRollbackFloor ((pk 0x0404 0 [(8, 6), (12, 8)] 0).req []) true = some Status.badParam
     ∧ s.verdict cmdVaultFloor ((pk 0x0404 0 [(8, 7), (9, 3), (12, 5)] 0).req []) true = some Status.badParam) := by decide +kernel


/-! ## Witnesses: host ports, the sideband and registers (chapters 11, 12, 16, 17) -/

theorem witness_HostPortsResetAndHalt :
    (tS.powered = true ∧ tS.inMode [.quench, .hold] = false ∧ tS.fcs.fencedFns.contains 7 = false)
    ∧ (let s := { tS with fcs := { tS.fcs with fencedFns := [7] } }; s.powered = true ∧ s.inMode [.quench, .hold] = false ∧ s.fcs.fencedFns.contains 7 = true)
    ∧ ((tS.hfn 7).pba.contains 255 = false)
    ∧ (let s := (tLink tS).updHfn 0 (fun f => { f with pba := [255], msixEn := true }); (s.hfn 0).pba.contains 255 = true ∧ (s.hfn 0).msixEn = true
      ∧ (s.hfn 0).fmask = false ∧ s.canIssue 0 = true)
    ∧ (let s := { tS with tru := { tS.tru with debugLevel := 2 } }; s.tru.debugLevel = 2 ∧ s.powered = true ∧ s.mgp.halted = false)
    ∧ (let s := { later tS 500 with tmr := { tS.tmr with haltAt := some 100 } }; s.tmr.haltAt = some 100) := by
  decide +kernel

/-- Both sideband ports of the first UART and I²C configured, in mode `m`. -/
def tSide (m : Mode) (f : Mgp → Mgp) : State :=
  let s := tMode m
  { s with lpc := { s.lpc with sbCfg := 0xF }, mgp := f { s.mgp with running := true } }

/-- A command packet on a UART sideband, in its SLIP frame. -/
def tWire (p : Packet) : List Byte := slip (withCrc p.bytes)

theorem witness_SidebandAnswers :
    (({ tS with lpc := { tS.lpc with sbCfg := 0 } } : State).isSideband 0x30 = false ∧ (tSide .service id).isSideband 0x30 = true ∧ (tSide .service id).powered = true)
    ∧ (let p := pk 0x0B03 0 [] 128
       sidebandPkt 0x30 (tWire p) = some p.bytes ∧ sidebandPkt 0x38 (1 :: p.bytes) = some p.bytes ∧ sidebandPkt 0x38 [2] = none
       ∧ sidebandPkt 0x30 (tWire p).tail = none ∧ p.bytes.contains 0xC0 = false)
    ∧ (let p := pk 0x0B03 0 [] 128
       let s := { tSide .boot id with top := { (tSide .boot id).top with bootFail := true } }
       let r := sidebandReq 0x30 p.bytes
       s.inMode [.boot] = true ∧ s.top.bootFail = true ∧ r.opc ≠ cmdIdentify.opc ∧ s.isSideband 0x30 = true ∧ s.powered = true
       ∧ (sidebandReq 0x30 (pk 0x0B02 0 [] 128).bytes).opc = cmdIdentify.opc ∧ (tSide .boot id).top.bootFail = false ∧ (tSide .boot id).powered = true)
    ∧ (let s := tSide .service (fun m => { m with sideband := [(0x38, pk 0x0B02 0 [] 0)] })
       s.inMode [.boot] = false ∧ (s.mgp.sideband.find 0x38).isSome = true ∧ s.isSideband 0x38 = true)
    ∧ (let s := tSide .service id
       s.inMode [.boot] = false ∧ s.mgp.sideband.find 0x30 = none ∧ s.sidebandFree = true
       ∧ (let v := tSide .service (fun m => { m with halted := true }); v.sidebandFree = false ∧ v.mgp.running = true ∧ v.mgp.sideband.find 0x30 = none
          ∧ (match v.sidebandRun 0x30 (pk 0x0B03 0 [] 128).bytes with | .next _ => true | _ => false) = true)
       ∧ (let v := tSide .service id; let u := { v with mgp := { v.mgp with running := false, restartAt := none } }
          u.mgp.running = false ∧ u.mgp.restartAt = none ∧ u.sidebandFree = false)) := by
  decide +kernel

/-- Each outcome of the row that a packet asks for. -/
theorem witness_SidebandAnswers_row :
    (let s := tSide .service id
     sidebandRow (sidebandReq 0x30 (pk 0x0201 0 [] 0).bytes) = none
     ∧ ([pk 0x0B02 0 [] 0, pk 0x0B03 0 [] 128, pk 0x0601 0 [] 0, pk 0x0501 0 [(8, 1)] 16, pk 0x0B01 0 [(8, 0xB)] 0].all (fun p =>
          let r := sidebandReq 0x30 p.bytes
          match sidebandRow r with | some c => decide (r.version = 1) && !c.malformed r && !r.dry && decide (s.sidebandVerdict c r = none) | none => false)) = true
     ∧ (let r := sidebandReq 0x30 (pk 0x0B03 0 [(3, 2)] 128).bytes; (sidebandRow r).isSome = true ∧ r.version ≠ 1)
     ∧ (let r := sidebandReq 0x30 (pk 0x0B03 0 [(2, 1)] 128).bytes; (sidebandRow r).isSome = true ∧ r.version = 1 ∧ r.dry = true)
     ∧ (let r := sidebandReq 0x30 (pk 0x0B03 0 [(20, 1)] 128).bytes; (match sidebandRow r with | some c => decide (r.version = 1) && c.malformed r | none => false) = true)
     ∧ (let r := sidebandReq 0x30 (pk 0x0B01 0 [(8, 0xB)] 0).bytes
        (match sidebandRow r with | some c => decide (r.version = 1) && !c.malformed r && ((tSide .boot id).sidebandVerdict c r).isSome | none => false) = true)) := by
  decide +kernel

theorem witness_RegisterWritesFollowCodes :
    (let s := { tS with otp := { tS.otp with locked := true } }
     s.mayWrite 0 (blockOf 0xE00020) = false ∧ tS.mayWrite 0 (blockOf 0xE00020) = true ∧ s.otp.locked = true ∧ tS.otp.locked = false)
    ∧ ((tMode .quench).frozen = true ∧ tS.frozen = false ∧ (tMode .hold).frozen = true)
    ∧ (match tS.regBar0 0 0xF82004 5 with | some t => decide (t.lpc.gpioOut = (5 : W32) &&& tS.gpioFree) | none => false) = true
    ∧ tS.regBar0 0 0xE00020 9 = none
    ∧ (10 ≤ fld (10 : W32) 0 16 ∧ fld (10 : W32) 0 16 ≤ 10000 ∧ 10 ≤ fld (10000 : W32) 0 16 ∧ fld (10000 : W32) 0 16 ≤ 10000 ∧ fld (9 : W32) 0 16 < 10)
    ∧ (10000 < fld (10001 : W32) 0 16)
    ∧ ((tS.sets 0xF82014 31).clears 0xF82014 0xC0000000 = 0x40000000 ∧ (tS.sets 0xF82014 31).top.hot = [(0xF82014, 0x80000000)])
    ∧ (0x4FF8 % 16 = 8 ∧ tS.liveFn 0 = some 0 ∧ tS.liveFn 0x10 = none ∧ fnOf 8 = some 4 ∧ fnOf 0x10 = none ∧ (tS.hfn 4).pba = [])
    ∧ (let s := { tS with fcs := { tS.fcs with fencedFns := [0] } }; s.liveFn 0 = none) := by
  decide +kernel

/-! ## Witnesses: Field Ports and the local port complex (chapter 11) -/

/-- Field Port 3, enabled, its link up; a frame of `n` bytes to its address, with its FCS. -/
def tFp (f : FPort → FPort) : State := (later tS 100).updFport 3 (fun x => f { x with cfg := 4, linkUp := true })
def tFrameOf (dst : Byte) (n : Nat) : List Byte :=
  let b := dst :: List.replicate (n - 5) 0
  b ++ leBytes 4 (fcs32 b).toNat

/-- Field Port 3 with Cell Queue 9 as its default queue, which holds `cap` words. -/
def tTaken (en : Bool) (cap : Nat) : State :=
  ((later tS 100).updFport 3 (fun x => { x with cfg := 0x90C, linkUp := true })).updCpq 9 (fun c => { c with en := en, cap := cap })

theorem witness_FieldPortsCarryFrames :
    ((tFp id).fpUp 3 = true ∧ ([] : List Byte).length < 64 ∧ fcsOk (0 :: tFrameOf 0 64) = false)
    ∧ (let b := tFrameOf 2 64; 64 ≤ b.length ∧ b.length ≤ 9216 ∧ fcsOk b = true ∧ (tFp id).fpAccepts 3 (b.take (b.length - 4)) = false)
    ∧ (let b := tFrameOf 0 64; 64 ≤ b.length ∧ fcsOk b = true ∧ (tFp id).fpAccepts 3 (b.take (b.length - 4)) = true ∧ ((tFp id).fport 3).route (b.take (b.length - 4)) = none)
    ∧ (let b := tFrameOf 0 64
       let all := ((frameHead 3 0xFF (tTaken true 100).tmr.time (b.take 60)).map (fun w => leBytes 4 w)).flatten ++ b.take 60
       let after := fun (s : State) => State.cpPushBytes 9 (all.length + 1) true all (s.updFport 3 (fun x => { x with rxFrames := wrapAdd 32 x.rxFrames 1 }))
       ((tTaken true 100).fport 3).route (b.take (b.length - 4)) = some (9, 0xFF) ∧ (tTaken true 100).fpUp 3 = true
       ∧ ((after (tTaken true 100)).cpq 9).words.length = (all.length + 3) / 4 ∧ ((after (tTaken true 1)).cpq 9).words.length ≠ (all.length + 3) / 4
       ∧ ((after (tTaken true 1)).cpq 9).en = true ∧ ((after (tTaken false 1)).cpq 9).en = false)
    ∧ (let f : TxFrame := { bytes := List.replicate 60 0, prio := 7, stamp := true }; let s := tFp (fun x => { x with tx := [f] }); s.nextFrame 3 = some f ∧ s.fpUp 3 = true)
    ∧ (let g : Gcl := { base := 1000, cycle := 500, entries := [(1, 10), (2, 40)] }
       (let s := tFp (fun x => { x with committed := some g }); (s.fport 3).committed = some g ∧ g.base.toNat ≤ s.now)
       ∧ (let s := tFp (fun x => { x with committed := some { g with base := 2000 } }); s.now < 2000)
       ∧ (let s := tFp (fun x => { x with oper := g }); (s.fport 3).oper.entries ≠ [] ∧ (s.fport 3).entryEnd ≤ s.now
          ∧ (s.fport 3).opIdx + 1 < (s.fport 3).oper.entries.length ∧ (s.fport 3).entryEnd < (s.fport 3).opCycle + (s.fport 3).oper.cycle)
       ∧ (let s := tFp (fun x => { x with oper := g, opIdx := 1 }); (s.fport 3).entryEnd ≤ s.now ∧ ¬ ((s.fport 3).opIdx + 1 < (s.fport 3).oper.entries.length)))
    ∧ ((tFp id).fport 3).cfg.getLsbD 2 = true ∧ ((tFp id).fport 3).down = false ∧ (tFp id).fcs.fencedPorts.contains 3 = false
    ∧ (((tFp (fun x => { x with gptp := 1 })).fport 3).gptp = 1 ∧ ((tFp (fun x => { x with gptp := 2 })).fport 3).gptp = 2
      ∧ (tFp (fun x => { x with gptp := 2 })).fpUp 3 = true ∧ tS.fpUp 3 = false) := by
  decide +kernel

/-- xSPI port 7, enabled and out of reset. -/
def tXt (f : Xt → Xt) : State := (later (tObjs tS) 100000).updXt 7 (fun x => f { x with cfg := 1, rst := false, stream := 0x30001, wwin := 0x10001 })

theorem witness_XspiTargetsServe :
    ((tXt id).xtClient 7 = true ∧ ((tXt (fun x => { x with verified := true })).xt 7).verified = true)
    ∧ (let s := tXt (fun x => { x with wel := true }); let a := (s.xt 7).writeWindow.1; (s.xt 7).wip = false ∧ (s.xt 7).wel = true
       ∧ (s.xt 7).inWrite (a / 4096 * 4096) 4096 = true ∧ (s.stream (fld (s.xt 7).stream 0 16)).isSome = true
       ∧ s.holds (fld (s.xt 7).stream 24 6) 3 (fld (s.xt 7).stream 0 16) 1 = true ∧ a / 256 = (a + 256 - 1) / 256 ∧ (s.xt 7).inWrite a 256 = true)
    ∧ (let s := tXt (fun x => { x with win := some (0, 0, 2), cycling := true }); (s.xt 7).win = some (0, 0, 2) ∧ s.windowBytes (0, 0, 2) = some [1, 2]
       ∧ (s.xt 7).cycling = true ∧ s.xtMinPassed 7 = true)
    ∧ ((tXt (fun x => { x with loaded := true })).xt 7).loaded = true
    ∧ (let s := tXt (fun x => { x with rst := true, loaded := true, verified := true }); (s.xt 7).rst = true ∧ s.xtMayRelease 7 = true)
    ∧ (let s := tXt (fun x => { x with record := some [1], stream := 9 }); (s.xt 7).record = some [1] ∧ s.stream (fld (s.xt 7).stream 0 16) = none)
    ∧ (let s := tXt (fun x => { x with record := some [1] })
       (s.xt 7).record = some [1] ∧ (s.stream (fld (s.xt 7).stream 0 16)).isSome = true ∧ s.holds (fld (s.xt 7).stream 24 6) 3 (fld (s.xt 7).stream 0 16) 1 = true
       ∧ s.neverFits (fld (s.xt 7).stream 16 2) (chargeAppend 1) none = false ∧ (s.pinnedFull (.append (fld (s.xt 7).stream 0 16)) 1).isNone = true
       ∧ s.chargeOpen (fld (s.xt 7).stream 16 2) = true ∧ s.standsBehind (fld (s.xt 7).stream 16 2) = false
       ∧ chargeAppend 1 ≤ s.freeRoom (fld (s.xt 7).stream 16 2)) := by
  decide +kernel

/-- Reads with and without an uncorrectable word in the window, failed loads, and records that do not go. -/
theorem witness_XspiTargetsServe_more :
    (let s := tXt (fun x => { x with verified := true, win := some (0, 0, 4), pages := [5] })
     s.xtBad 7 0 4 = none ∧ (s.xt 7).inWrite 0 1 = false ∧ (s.xt 7).size = 4 ∧ (s.xt 7).at_ 0 = 0
     ∧ (let u := { s with yard := { s.yard with bad := [5 * 4096] } }; u.xtBad 7 0 4 = some (5 * 4096) ∧ (u.xt 7).verified = true))
    ∧ ((tXt (fun x => { x with wel := true })).xt 7).inWrite 0 4096 = false
    ∧ (((tXt id).xt 7).wel = false ∧ tS.xtClient 7 = false)
    ∧ (let s := tXt (fun x => { x with win := some (4, 0, 2), cycling := true }); s.windowBytes (4, 0, 2) = none ∧ (s.xt 7).win = some (4, 0, 2) ∧ (s.xt 7).cycling = true)
    ∧ (let s := tXt (fun x => { x with win := some (0, 0, 2), cycling := true, hold := true }); (s.xt 7).hold = true ∧ s.windowBytes (0, 0, 2) = some [1, 2])
    ∧ (let s := tXt (fun x => { x with win := some (0, 0, 2), cycling := true, rst := true, rstAt := 100000, cfg := 0x10001 })
       s.xtMinPassed 7 = false ∧ (s.xt 7).hold = false ∧ s.windowBytes (0, 0, 2) = some [1, 2])
    ∧ (((tXt id).xt 7).win = none ∧ ((tXt id).xt 7).cycling = false ∧ ((tXt id).xt 7).loaded = false ∧ ((tXt id).xt 7).rst = false ∧ ((tXt id).xt 7).record = none) := by
  decide +kernel

theorem witness_XspiTargetsServe_records :
    (let s := tXt (fun x => { x with record := some [1] })
     let u := { s with otp := { s.otp with locked := true } }
     u.holds (fld (u.xt 7).stream 24 6) 3 (fld (u.xt 7).stream 0 16) 1 = false ∧ (u.xt 7).record = some [1])
    ∧ (let s := tXt (fun x => { x with record := some [1] }); let u := { s with lq := { s.lq with limitMib := 0 } }
       u.neverFits (fld (u.xt 7).stream 16 2) (chargeAppend 1) none = true ∧ (u.stream (fld (u.xt 7).stream 0 16)).isSome = true)
    ∧ (let s := (tXt (fun x => { x with record := some [1] })).updStream 1 (fun st => { st with policy := 2, limit := 0 })
       (s.pinnedFull (.append (fld (s.xt 7).stream 0 16)) 1).isSome = true ∧ (s.stream 1).isSome = true
       ∧ s.neverFits (fld (s.xt 7).stream 16 2) (chargeAppend 1) none = false ∧ s.holds (fld (s.xt 7).stream 24 6) 3 (fld (s.xt 7).stream 0 16) 1 = true)
    ∧ (let s := tXt (fun x => { x with record := some [1] }); let u := { s with lq := { s.lq with overLimit := true } }
       u.chargeOpen (fld (u.xt 7).stream 16 2) = false ∧ u.neverFits (fld (u.xt 7).stream 16 2) (chargeAppend 1) none = false
       ∧ (u.pinnedFull (.append (fld (u.xt 7).stream 0 16)) 1).isNone = true) := by
  decide +kernel

theorem witness_LocalPortEvents :
    (((tS.updDreq 15 (fun d => { d with cfg := 1 })).dreq 15).bound = true)
    ∧ ((tS.dreq 15).bound = false ∧ ((tS.updDreq 15 (fun d => { d with level := true })).firstWaiter (fun k => decide (k = .dreq 15))).isNone = true)
    ∧ (tS.lpc.sbCfg.getLsbD 1 = false ∧ (tS.uart 1).rx.length < 256
      ∧ 256 ≤ ((tS.updUart 1 (fun u => { u with rx := List.replicate 256 0 })).uart 1).rx.length)
    ∧ (tS.lpc.gpioIn.getLsbD 31 ≠ true ∧ tS.lpc.gpioIrqEn.getLsbD 31 = false)
    ∧ (let s := { tS with lpc := { tS.lpc with gpioIrqEn := 0x80000000 } }; s.lpc.gpioDir.getLsbD 31 = false ∧ s.lpc.gpioIrqEn.getLsbD 31 = true
      ∧ edgeSelected (fld s.lpc.gpioCfg 16 2) true = true)
    ∧ (let s := { tS with lpc := { tS.lpc with ppsCfg := 0x10000 } }; s.lpc.ppsCfg.getLsbD 16 = true ∧ s.now % 1000000000 < 11
      ∧ s.lpc.ppsAt ≠ some (s.now / 1000000000))
    ∧ (let s := { later tS 10000000 with lpc := { tS.lpc with ppsUp := some 0 } }; s.lpc.ppsUp = some 0 ∧ 11 ≤ s.now % 1000000000
      ∧ s.passedMs 0 (fld s.lpc.ppsCfg 0 16) = true) := by
  decide +kernel

theorem witness_LocalPortEvents_more :
    (let s := tS.updDreq 15 (fun d => { d with cfg := 1 })
     ((s.updDreq 15 (fun d => { d with level := true })).mvCh (s.dreq 15).mover (s.dreq 15).channel).pending < 15
     ∧ (let u := s.updMvCh (s.dreq 15).mover (s.dreq 15).channel (fun c => { c with pending := 15 })
        (u.dreq 15).bound = true ∧ 15 ≤ ((u.updDreq 15 (fun d => { d with level := true })).mvCh (u.dreq 15).mover (u.dreq 15).channel).pending))
    ∧ (let y : WaitS := { kind := .dreq 15, startTick := 0, limitUs := 0, onExpiry := false }
       let s := tOn { tP [wd 4 1 0 0 0 0 0] with phase := .wait y }
       (s.dreq 15).bound = false ∧ (s.updDreq 15 (fun d => { d with level := true })).firstWaiter (fun k => decide (k = .dreq 15)) = some 0)
    ∧ (let s := { tS with lpc := { tS.lpc with sbCfg := 2 } }; s.lpc.sbCfg.getLsbD 1 = true)
    ∧ (tS.lpc.gpioIn.getLsbD 31 = false) := by
  decide +kernel

/-- A CONTROL word of order `k` on port `id`, delivered to engine 0. -/
def tOrd (id k : Nat) : Ccw := wd 0x40 1 6 0 0 k (id * 2 ^ 56)

/-- Whether the hypotheses hold that every order on a port has. -/
def ordered (s : State) (w : Ccw) (operand : Bool) : Bool :=
  let p := tP [w]
  here s p && decide (w.opc = 0x40) && decide (w.space.toNat = spPort) && (s.orderChecks p w operand).isNone

theorem witness_ControlOrdersAct :
    ([(3, 1), (3, 2), (3, 3), (0x1F, 1), (0x27, 1), (0x27, 2), (0x27, 3), (0x31, 1), (0x39, 1)].all (fun x => ordered (tOn (tP [tOrd x.1 x.2])) (tOrd x.1 x.2) false)) = true
    ∧ ([0x10, 0x11, 0x12].all (fun k => ordered (tOn (tP [tOrd 0x40 k])) (tOrd 0x40 k) true)) = true
    ∧ (fpOf 3 = some 3 ∧ dreqOf 0x1F = some 15 ∧ xtOf 0x27 = some 7 ∧ uartOf 0x31 = some 1 ∧ i2cOf 0x39 = some 1)
    ∧ (let s := tOn (tP [tOrd 3 1]); (s.fport 3).committed = none ∧ (s.dreq 15).bound = false ∧ (s.xt 7).cycling = false ∧ (s.xt 7).verified = false)
    ∧ (let s := (tOn (tP [tOrd 3 1])).updFport 3 (fun x => { x with committed := some x.admin }); ordered s (tOrd 3 1) false ∧ (s.fport 3).committed.isSome = true)
    ∧ (let s := (tOn (tP [tOrd 0x27 2])).updXt 7 (fun x => { x with verified := true }); ordered s (tOrd 0x27 2) false ∧ (s.xt 7).verified = true)
    ∧ (let s := (tOn (tP [tOrd 0x27 2])).updXt 7 (fun x => { x with cycling := true }); ordered s (tOrd 0x27 2) false ∧ (s.xt 7).cycling = true) := by
  decide +kernel

/-- A delivered PORT word and the state it runs in. -/
def tPort (opc flags cnt port sub : Nat) : Ccw := wd opc flags 6 0 cnt 0x20 (port * 2 ^ 56 + sub)

/-- The hypotheses that every PORT word has, as one test; and that a mover carries it once it is begun. -/
def atPort (s : State) (w : Ccw) (inw : Bool) : Bool :=
  here s (tP [w]) && decide (w.opc = if inw then 0x17 else 0x16) && (s.portChecks (tP [w]) w inw).isNone
def rides (s : State) (w : Ccw) : Bool :=
  match (s.beginXfr 0 Xfr.fresh).prog 0 with
  | some p => p.chan.isNone && (match (s.beginXfr 0 Xfr.fresh).grab 0 p w with
    | some t => (match t.prog 0 with | some q => t.carried q | none => false)
    | none => false)
  | none => false

/-- A PORT word of a class-2 program on engine 0, Field Port 3 enabled and its link up. -/
def tW3 (w : Ccw) (up : Bool) : State := (tD [w]).updFport 3 (fun x => { x with cfg := 4, linkUp := up })

theorem witness_PortWordsMove :
    (let w := tPort 0x16 1 60 3 7
     fpOf w.port = some 3
     ∧ (let s := tW3 w true; atPort s w false ∧ rides s w ∧ s.fpUp 3 = true ∧ (s.fport 3).queued 7 + opLen [w] ≤ txQueueSize)
     ∧ (let s := tW3 w false; atPort s w false ∧ s.fpUp 3 = false)
     ∧ (let s := (tW3 w true).updFport 3 (fun x => { x with tx := List.replicate 2 { bytes := List.replicate 40000 0, prio := 7, stamp := false } })
        atPort s w false ∧ s.fpUp 3 = true ∧ ¬ ((s.fport 3).queued 7 + opLen [w] ≤ txQueueSize)))
    ∧ (let w := tPort 0x17 1 60 3 9
       (atPort (tW3 w true) w true ∧ rides (tW3 w true) w)
       ∧ (let s := { tW3 w true with fcs := { (tW3 w true).fcs with fencedPorts := [3] } }; atPort s w true ∧ s.fcs.fencedPorts.contains 3 = true))
    ∧ ([(0x16, 4, 0x31), (0x16, 4, 0x39), (0x16, 4, 0x40)].all (fun x => atPort (tD [tPort x.1 1 x.2.1 x.2.2 0]) (tPort x.1 1 x.2.1 x.2.2 0) false
        && rides (tD [tPort x.1 1 x.2.1 x.2.2 0]) (tPort x.1 1 x.2.1 x.2.2 0))) = true
    ∧ ([(0x17, 4, 0x31), (0x17, 4, 0x39), (0x17, 4, 0x40)].all (fun x => atPort (tD [tPort x.1 1 x.2.1 x.2.2 0]) (tPort x.1 1 x.2.1 x.2.2 0) true
        && rides (tD [tPort x.1 1 x.2.1 x.2.2 0]) (tPort x.1 1 x.2.1 x.2.2 0))) = true
    ∧ (uartOf 0x31 = some 1 ∧ i2cOf 0x39 = some 1 ∧ (uartOf (tPort 0x17 1 4 0x31 0).port).isSome = true ∧ ((tD [tPort 0x17 1 4 0x31 0]).uart 1).rx = []) := by
  decide +kernel

/-- Some descriptor of an engine. -/
def tD0 : Desc := (tP [wd 0x10 1 2 0 4 0x20 0]).desc (wd 0x10 1 2 0 4 0x20 0) 0 0 0

/-- Every mover channel of the cluster is taken, or the word waits on a bound line, or at its UART's idle gap. -/
theorem witness_PortWordsMove_waits :
    (let w := tPort 0x16 1 4 0x40 0
     let s := tD [w]
     let t := List.foldl (fun s (m : Nat) => List.foldl (fun s (c : Nat) => s.updMvCh m c (fun k => { k with active := some tD0, st := .running })) s (List.range 16)) s (List.range 4)
     atPort t w false ∧ (match (t.beginXfr 0 Xfr.fresh).prog 0 with | some q => q.chan.isNone && ((t.beginXfr 0 Xfr.fresh).grab 0 q w).isNone | none => false) = true)
    ∧ (let w := tPort 0x17 1 4 0x31 0
       (tD [w]).gapReader 1 = some 0 ∧ atPort (tD [w]) w true ∧ (tS.gapReader 1 = none)
       ∧ ((tD [w]).uart 1).bitNs (w.portSub % 65536) ≤ (tD [w]).sinceNs (max ((tD [w]).uart 1).lastAt (tP [w]).execAt))
    ∧ (let w := tPort 0x17 1 4 0x31 16
       let s := (tD [w]).updUart 1 (fun u => { u with cfg := 115200 })
       s.gapReader 1 = some 0 ∧ atPort s w true ∧ s.sinceNs (max (s.uart 1).lastAt (tP [w]).execAt) < (s.uart 1).bitNs (w.portSub % 65536)) := by
  decide +kernel

/-- Request line 15 bound to mover 0, channel 12; a word carried on it. -/
def tDq (s : State) : State := s.updDreq 15 (fun d => { d with cfg := 1 })
def tRunD (w : Ccw) : Prog := { tP [w] with xf := some { Xfr.fresh with chan := some (0, 12) } }
def tCarD (w : Ccw) : State := (tDq (tObjs (tOn (tRunD w)))).updMvCh 0 12 (fun k => { k with st := .running })

theorem witness_PortWordsMove_bound :
    (let w := tPort 0x16 1 64 0x1F 1
     dreqOf w.port = some 15
     ∧ atPort (tDq (tD [w])) w false
     ∧ (let s := (tDq (tD [w])).updMvCh 0 12 (fun k => { k with active := some tD0 }); atPort s w false
        ∧ ((s.beginXfr 0 Xfr.fresh).mvCh ((s.beginXfr 0 Xfr.fresh).dreq 15).mover ((s.beginXfr 0 Xfr.fresh).dreq 15).channel).active.isSome = true)
     ∧ (let v := ((tDq (tD [w])).beginXfr 0 Xfr.fresh).bindWord 0 15 w
        (match v.prog 0 with | some q => !v.carried q | none => false) = true)
     ∧ (let s := tCarD w; let q := tRunD w
        s.running 0 = some q ∧ (s.bindWord 0 15 w).carried q = true ∧ (s.dreq 15).isLevel = false))
    ∧ (let w := tPort 0x17 1 64 0x1F 1
       let s := tCarD w; let q := tRunD w
       s.running 0 = some q ∧ (s.bindWord 0 15 w).carried q = true ∧ (s.dreq 15).isLevel = false) := by
  decide +kernel

/-- SENSE: a delivered word that reads its port, with the length right and wrong, and with TOL. -/
theorem witness_PortWordsMove_sense :
    ([(4, 1), (8, 1), (8, 0x11)].all (fun x =>
      let w := wd 0x41 x.2 6 1 x.1 0x20 (0x40 * 2 ^ 56)
      let s := tD [w]
      here s (tP [w]) && (s.senseChecks (tP [w]) w).isNone && (match s.senseData w.port w.portSub with
        | some d => ((d.2.deliverTo 0 (tP [w]) [{ (tP [w]).bufPiece w with len := (d.1.take w.count.toNat).length }] (d.1.take w.count.toNat) false Xfer.none).fail).isNone
        | none => false))) = true
    ∧ ([(3, 1), (0x27, 0), (0x27, 1), (0x39, 0), (0x40, 0)].all (fun x =>
      let w := wd 0x41 1 6 0 8 0x20 (x.1 * 2 ^ 56 + x.2)
      here (tD [w]) (tP [w]) && ((tD [w]).senseChecks (tP [w]) w).isNone && ((tD [w]).senseData w.port w.portSub).isSome)) = true := by
  decide +kernel

/-! ## Witnesses: the machine as a whole -/

/-- A step that gives a next state, for the statements over every step. -/
theorem witness_steps : ∃ t, step (tMode .service) = .next t := ⟨_, rfl⟩
theorem witness_CommandsAreCarriedOut : ∃ t, exec (.dlDown 0) tS = .next t := ⟨_, rfl⟩
theorem witness_OtpIsNeverUndone :
    (tProv.rootAt 2).programmed = true ∧ ({ tProv with otp := { tProv.otp with locked := true, secret := true } } : State).otp.locked = true := by decide +kernel
theorem witness_VendorRootsAreKept : VendorRootsStand State.reset := by
  intro k hk
  rcases List.mem_cons.1 hk with rfl | hk
  · exact ⟨rfl, rfl⟩
  rcases List.mem_cons.1 hk with rfl | hk
  · exact ⟨rfl, rfl⟩
  rcases List.mem_cons.1 hk with rfl | hk
  · exact ⟨rfl, rfl⟩
  rcases List.mem_cons.1 hk with rfl | hk
  · exact ⟨rfl, rfl⟩
  · cases hk
theorem witness_YardStaysCanonical : State.reset.yard.mem.wf = true := by decide +kernel
theorem witness_StepRunsFront : ({ tS with pending := [.dlDown 0] } : State).pending = .dlDown 0 :: [] := rfl


/-- A read of a LO half latches its HI half for the identity that reads (R6, R460). -/
theorem test_read_latches :
    (let s := { tS with top := { tS.top with modeTime := 0x100000005 } }
     let r := s.hostRead 0x00 0x10
     let t := { r.2 with top := { r.2.top with modeTime := 0 } }
     r.1 = 5 ∧ (t.hostRead 0x00 0x14).1 = 1 ∧ (t.hostRead 0x08 0x14).1 = 0) := by decide

end Sys2Proof.Tests
end

/-! SUPPORT. What arbitration, the mover channels and the ending of a program leave of the Landing. -/
namespace Sys2Proof.Machine

/-! ## The arbiters and the mover channels leave the Landing alone -/

/-- Updates that each leave the Landing alone do so one after the other. -/
theorem State.foldl_lq {α : Type} (f : State → α → State) (hf : ∀ s a, (f s a).lq = s.lq) (l : List α) (s : State) : (l.foldl f s).lq = s.lq := by
  induction l generalizing s with
  | nil => rfl
  | cons a l ih => rw [List.foldl_cons, ih, hf]

@[simp] theorem State.countGrant_lq (s : State) (arb w asked : Nat) : (s.countGrant arb w asked).lq = s.lq := rfl

@[simp] theorem State.loseRounds_lq (s : State) (arb w : Nat) (rs : List Nat) : (s.loseRounds arb w rs).lq = s.lq :=
  State.foldl_lq _ (fun _ _ => State.updReqr_lq ..) _ _

@[simp] theorem State.creditGrant_lq (s : State) (arb w units asked : Nat) (rs : List Nat) : (s.creditGrant arb w units asked rs).lq = s.lq := by
  simp [State.creditGrant]

@[simp] theorem State.startJob_lq (s : State) (arb : Nat) (j : CodecJob) : (s.startJob arb j).lq = s.lq := by
  simp [State.startJob, apply_ite State.lq]

@[simp] theorem State.runLane_lq (s : State) (arb : Nat) : (s.runLane arb).lq = s.lq := by
  unfold State.runLane
  split
  · rfl
  · split <;> simp

@[simp] theorem State.askLane_lq (s : State) (arb : Nat) (j : CodecJob) : (s.askLane arb j).lq = s.lq := by
  unfold State.askLane
  split <;> split <;> simp

@[simp] theorem State.askCodec_lq (s : State) (m c : Nat) (d : Desc) : (s.askCodec m c d).lq = s.lq := by
  simp [State.askCodec, apply_ite State.lq]

@[simp] theorem State.endCodec_lq (s : State) (m c : Nat) : (s.endCodec m c).lq = s.lq :=
  State.foldl_lq _ (fun _ _ => by simp) _ _

@[simp] theorem State.moverGrant_lq (s : State) (m c : Nat) (d : Desc) : (s.moverGrant m c d).lq = s.lq := by
  simp [State.moverGrant, apply_ite State.lq]

@[simp] theorem State.runNext_lq (s : State) (m : Nat) : (s.runNext m).lq = s.lq := by
  unfold State.runNext
  split
  · rfl
  · split
    · rfl
    · rw [State.updMover_lq]
      split <;> simp [apply_ite State.lq]

@[simp] theorem State.preempt_lq (s : State) (m : Nat) : (s.preempt m).lq = s.lq := by
  unfold State.preempt
  dsimp only
  split
  · rfl
  · simp [apply_ite State.lq]

@[simp] theorem State.enter_lq (s : State) (m c : Nat) : (s.enter m c).lq = s.lq := by
  unfold State.enter
  dsimp only
  split
  · rfl
  · simp [apply_ite State.lq]

@[simp] theorem State.descEnd_lq (s : State) (m c st : Nat) : (s.descEnd m c st).lq = s.lq := by
  simp [State.descEnd]

@[simp] theorem State.dropChan_lq (s : State) (e st : Nat) : (s.dropChan e st).lq = s.lq := by
  unfold State.dropChan
  split <;> simp

/-! ## Completions and the release of an engine leave the Landing alone -/

@[simp] theorem State.ack_lq (s : State) (e : Nat) : (s.ack e).lq = s.lq := rfl
@[simp] theorem State.freeEngine_lq (s : State) (e : Nat) : (s.freeEngine e).lq = s.lq := rfl
@[simp] theorem State.pushReady_lq (s : State) (cqid : Nat) (w : Waiting) : (s.pushReady cqid w).lq = s.lq := rfl
@[simp] theorem State.raiseNote_lq (s : State) (e : Nat) (p : Prog) (c : Cqe) : (s.raiseNote e p c).lq = s.lq := rfl

@[simp] theorem State.raiseOwed_lq (s : State) (e : Nat) : (s.raiseOwed e).lq = s.lq := by
  unfold State.raiseOwed
  split
  · rfl
  · split <;> simp

@[simp] theorem State.postFinal_lq (s : State) (e : Nat) (p : Prog) (n : Ending) (ccw : W64) (bell : Option Nat) :
    (s.postFinal e p n ccw bell).lq = s.lq := by
  unfold State.postFinal
  cases s.cq p.cqid with
  | none => exact s.freeEngine_lq e
  | some c => simp [apply_ite State.lq]

/-! ## The commit groups of the Landing -/

@[simp] theorem State.setsIf_lq (s : State) (b : Bool) (reg bit : Nat) : (s.setsIf b reg bit).lq = s.lq := by
  simp [State.setsIf, apply_ite State.lq]

@[simp] theorem State.dropCharge_groups (s : State) (e : Nat) : (s.dropCharge e).lq.groups = s.lq.groups := by
  simp [State.dropCharge]

/-- Each group that stands after charges are released stood before, under its id. -/
theorem State.settle_group_id {s : State} {h : Group} (hm : h ∈ s.settle.lq.groups) : ∃ k ∈ s.lq.groups, k.id = h.id := by
  simp only [State.settle] at hm
  obtain ⟨k, hk, rfl⟩ := List.mem_map.1 (List.mem_filter.1 hm).1
  refine ⟨k, hk, ?_⟩
  split <;> rfl

/-- No group of a discarded group's id remains (R38). -/
theorem State.discardGroup_group_id {s : State} {g : Nat} {h : Group} (hm : h ∈ (s.discardGroup g).lq.groups) : h.id ≠ g := by
  obtain ⟨k, hk, hid⟩ := State.settle_group_id hm
  rw [← hid]
  simpa using (List.mem_filter.1 hk).2

theorem State.discardOpen_lq {s : State} {e g : Nat} {p : Prog} (h : s.prog e = some p) (hg : p.group = some g) :
    (s.discardOpen e).lq = (s.discardGroup g).lq := by
  simp [State.discardOpen, h, hg]

/-- SEAL finds nothing to do where no group is open (R40). -/
theorem State.sealOpen_none {s : State} {e : Nat} {p : Prog} (h : s.prog e = some p) (hg : p.group = none) : s.sealOpen e = s := by
  simp [State.sealOpen, h, hg]

/-! ## The endings of a program -/

/-- Of the groups, the end of a program discards the open one and leaves the rest (R38). -/
theorem State.endProg_groups {s : State} {e : Nat} {p : Prog} (h : s.prog e = some p) (hp : p.phase ≠ .postwait) (n : Ending) (ccw : W64) :
    (s.endProg e n ccw).lq.groups = (s.discardOpen e).lq.groups := by
  simp only [State.endProg, h, hp, if_false, State.postFinal_lq]
  split <;> simp

/-- A normal end under the Explicit policy with a group open is PROGRAM_FAULT (R37). -/
theorem State.endNormal_explicit {s : State} {e g : Nat} {p : Prog} (h : s.prog e = some p) (hpol : p.policy = 0) (hg : p.group = some g) (ue : Bool) :
    s.endNormal e ue = s.endProg e Ending.programFault p.last := by
  simp [State.endNormal, h, hpol, hg]

/-- The state once the word in hand of program `p` of engine `e` has completed and the next word follows (R70, R151). -/
def State.wordDone (s : State) (e : Nat) (p : Prog) : State := (s.ack e).updProg e (fun _ => p.done p.after)

theorem State.onlyProg_wordDone {s : State} {e : Nat} {p : Prog} (h : s.prog e = some p) : OnlyProg (s.ack e) (s.wordDone e p) e (p.done p.after) :=
  onlyProg_updProg (s.ack e) e p _ h

/-- A word without LNK, of a program that no halt waits for, ends the program normally once it has completed (R70). -/
theorem State.completeWord_next_ends {s : State} {e : Nat} {p : Prog} (h : s.prog e = some p) (c : p.chan = none) (hl : p.opLnk = false)
    (hh : p.haltPend = false) : s.completeWord e .next = (s.wordDone e p).endNormal e false := by
  simp only [State.completeWord, h, hl, hh, State.dropChan_none s e dsOk p h c, Bool.or_self, Bool.false_eq_true, if_false]
  refine congrArg (State.endNormal · e false) ?_
  exact State.updProg_congr _ e p _ _ h rfl

/-- HALT ends a program that no halt waits for normally once it has completed (R87). -/
theorem State.completeWord_stop_ends {s : State} {e : Nat} {p : Prog} (h : s.prog e = some p) (c : p.chan = none) (hh : p.haltPend = false) (ue : Bool) :
    s.completeWord e (.stop ue) = (s.wordDone e p).endNormal e ue := by
  simp only [State.completeWord, h, hh, State.dropChan_none s e dsOk p h c, Bool.false_eq_true, if_false]
  refine congrArg (State.endNormal · e ue) ?_
  exact State.updProg_congr _ e p _ _ h rfl

/-- Settles O18: the normal end takes the branch of the Explicit policy, whose ending discards the open group. -/
theorem explicitGroupLeftOpenIsDiscarded : Obligations.ExplicitGroupLeftOpenIsDiscarded := by
  intro e g ue s p h hpol hg hp
  have hend := State.endNormal_explicit h hpol hg ue
  refine ⟨hend, ?_, fun c hl hh => ⟨_, State.onlyProg_wordDone h, State.completeWord_next_ends h c hl hh⟩,
    fun c hh => ⟨_, State.onlyProg_wordDone h, State.completeWord_stop_ends h c hh ue⟩⟩
  intro k hk
  rw [hend, State.endProg_groups h hp, State.discardOpen_lq h hg] at hk
  exact State.discardGroup_group_id hk

/-! ## SEAL without an open group -/

/-- Where only a program has changed, the Landing is as it was. -/
theorem OnlyProg.lq {s t : State} {e : Nat} {q : Prog} (h : OnlyProg s t e q) : t.lq = s.lq := by
  obtain ⟨-, -, hrest⟩ := h
  rw [hrest]

/-- A delivered SEAL whose checks find nothing seals the open group and completes (R35, R97). -/
theorem exec_seal {s : State} {e : Nat} {p : Prog} {w : Ccw} (d : Delivered s e p [w]) (hw : w.opc = 0x30) (hc : zeroChecks p w false = none) :
    exec (.seal e) s = .next (((s.sealOpen e).updProg e (fun q => q.deviceDone 0 0 1)).completeWord e .next) := by
  change execSeal e s = _
  rw [execSeal, State.atWord_delivered d _ _ (by simp [hw]), State.checked_none d _ _ hc]

/-- Settles O17: with no group open `sealOpen` is the identity, and the rest is the completion of a word of a program that goes on. -/
theorem sealWithoutGroupDoesNothing : Obligations.SealWithoutGroupDoesNothing := by
  intro e s p w d hw hc hg go
  have only := onlyProg_updProg_completeWord s e p (fun q => q.deviceDone 0 0 1) d.prog d.chan go rfl
  refine ⟨_, exec_seal d hw hc, ?_⟩
  rw [State.sealOpen_none d.prog hg]
  exact ⟨only, only.lq⟩

end Sys2Proof.Machine

/-! SUPPORT. The call stack: what CALL and RETURN do at its limits, and what a start leaves in it. -/
namespace Sys2Proof.Machine

/-! ## CALL and RETURN at the limits of the call stack -/

/-- The effect of a CALL with fewer than four addresses held and a target: the push, then the jump (R84). -/
theorem exec_call_pushes {s : State} {e : Nat} {p : Prog} {w : Ccw} {a : W64} (d : Delivered s e p [w]) (hw : w.opc = 9)
    (hc : ctlChecks p w (chainSpace w) (!chainPlain w false) false [] = none) (room : p.stack.length < 4) (ht : p.target w = some a) :
    exec (.call e) s = .next ((s.updProg e (fun q => { q with stack := p.opAddr 1 :: q.stack })).completeWord e (.jump a)) := by
  change execCall e s = _
  rw [execCall, State.atWord_delivered d _ _ (by simp [hw]), State.checked_none d _ _ hc, if_neg (Nat.not_le.mpr room), ht]
  refine congrArg (fun t : State => Host.Outcome.next (t.completeWord e (.jump a))) ?_
  exact State.updProg_congr s e p _ _ d.prog rfl

/-- A CALL made while four addresses are held ends the program, whatever its target (R84). -/
theorem exec_call_full {s : State} {e : Nat} {p : Prog} {w : Ccw} (d : Delivered s e p [w]) (hw : w.opc = 9)
    (hc : ctlChecks p w (chainSpace w) (!chainPlain w false) false [] = none) (full : 4 ≤ p.stack.length) :
    exec (.call e) s = .next (s.endAtWord e Ending.chainFault 0) := by
  change execCall e s = _
  rw [execCall, State.atWord_delivered d _ _ (by simp [hw]), State.checked_none d _ _ hc, if_pos full]

/-- A RETURN made while no address is held ends the program (R84). -/
theorem exec_ret_empty {s : State} {e : Nat} {p : Prog} {w : Ccw} (d : Delivered s e p [w]) (hw : w.opc = 0x0A)
    (hc : zeroChecks p w false = none) (none_held : p.stack = []) : exec (.ret e) s = .next (s.endAtWord e Ending.chainFault 0) := by
  change execRet e s = _
  rw [execRet, State.atWord_delivered d _ _ (by simp [hw]), State.checked_none d _ _ hc, none_held]

/-! ## The call stack of a program that starts -/

/-- Seeds write general registers only (R111). -/
@[simp] theorem Prog.seed_stack (p : Prog) (seeds : List W64) : (p.seed seeds).stack = p.stack := rfl

/-- A program starts with no address held (R84). -/
theorem newProg_stack (pid n k cls : Nat) (q : Sq) (e : Staged) (h : Option Hdr) : (newProg pid n k cls q e h).stack = [] := by
  simp [newProg]

/-- Settles O6: the push and the jump touch only the program, the two faults are the guards of CALL and RETURN, and seeding leaves the stack alone. -/
theorem callStackHoldsFour : Obligations.CallStackHoldsFour := by
  refine ⟨fun e s p w d => ⟨fun hw hc => ⟨fun room go a ht => ?_, exec_call_full d hw hc⟩, exec_ret_empty d⟩, newProg_stack⟩
  exact ⟨_, exec_call_pushes d hw hc room ht,
    onlyProg_updProg_jump s e p (fun q => { q with stack := p.opAddr 1 :: q.stack }) d.prog d.chan go a⟩

end Sys2Proof.Machine

/-! SUPPORT. The slot tables and the cost table at reset: their contents, and how the default table repeats within a frame. -/
namespace Sys2Proof.Machine

/-! ## The default slot table repeats every 64 entries -/

/-- Over whole periods, a periodic predicate holds as often per period as in the first one. -/
theorem countP_range_mul_of_periodic {p : Nat → Bool} {a : Nat} (hp : ∀ k, p (a + k) = p k) (n : Nat) :
    (List.range (a * n)).countP p = n * (List.range a).countP p := by
  induction n with
  | zero => rw [Nat.mul_zero, Nat.zero_mul, List.range_zero, List.countP_nil]
  | succ n ih =>
    rw [Nat.mul_succ, Nat.add_comm (a * n) a, List.range_add, List.countP_append, List.countP_map,
      show p ∘ (a + ·) = p from funext hp, ih, Nat.succ_mul, Nat.add_comm]

/-- Each residue that selects an owner is one modulo 16 or 64 (R224). -/
theorem defaultOwner_periodic (k : Nat) : defaultOwner (64 + k) = defaultOwner k := by
  have h16 : (64 + k) % 16 = k % 16 := by omega
  have h64 : (64 + k) % 64 = k % 64 := by omega
  simp only [defaultOwner, h16, h64]

/-- A frame of 512 entries gives an owner eight times what the first 64 entries give it. -/
theorem length_filter_defaultOwner (o : Nat) :
    ((List.range 512).filter (fun k => decide (defaultOwner k = o))).length
      = 8 * (List.range 64).countP (fun k => decide (defaultOwner k = o)) := by
  have periodic (k : Nat) : decide (defaultOwner (64 + k) = o) = decide (defaultOwner k = o) := by rw [defaultOwner_periodic]
  rw [← List.countP_eq_length_filter, show 512 = 64 * 8 from rfl]
  exact countP_range_mul_of_periodic periodic 8

/-- The entries a frame of the default table gives to class 0, Quench reserve, class 1, Anneal and the credit pool (R224). -/
theorem defaultOwner_counts :
    [1, 5, 2, 4, 3].map (fun o => ((List.range 512).filter (fun k => decide (defaultOwner k = o))).length) = [32, 32, 8, 8, 432] := by
  have first64 : [1, 5, 2, 4, 3].map (fun o => 8 * (List.range 64).countP (fun k => decide (defaultOwner k = o))) = [32, 32, 8, 8, 432] := by
    decide
  simpa only [length_filter_defaultOwner] using first64

/-! ## The Scheduler at reset -/

@[simp] theorem State.slotTable_reset (t : Nat) : State.reset.slotTable t = SlotTable.reset := rfl

/-- Bank A of a table at reset has no entry of its own: each reads as the default given for it (R224). -/
@[simp] theorem SlotTable.bankA_reset_get (k d : Nat) : SlotTable.reset.bankA.get k d = d := rfl

/-- Bank B too. -/
@[simp] theorem SlotTable.bankB_reset_get (k d : Nat) : SlotTable.reset.bankB.get k d = d := rfl

@[simp] theorem SlotTable.activeB_reset : SlotTable.reset.activeB = false := rfl

@[simp] theorem SlotTable.owner_reset (k : Nat) : SlotTable.reset.owner k = defaultOwner k := rfl

/-- With no cost table loaded, the built-in values apply alone (R210). -/
theorem State.cost_of_not_loaded {s : State} (h : s.sch.loaded = none) : s.cost = Cost.builtin := by
  rw [State.cost, h]

/-- No cost table is loaded at reset. -/
@[simp] theorem State.loaded_reset : State.reset.sch.loaded = none := rfl

/-- Settles O36: a table at reset has no entry of its own, so both banks read as the default table, whose period is 64; no cost table is loaded. -/
theorem defaultSlotTable : Obligations.DefaultSlotTable := by
  refine ⟨fun t _ => ?_, State.cost_of_not_loaded State.loaded_reset⟩
  simp only [State.slotTable_reset, SlotTable.owner_reset]
  refine ⟨SlotTable.activeB_reset, fun k _ => ⟨?banks, rfl⟩, defaultOwner_counts⟩
  rw [SlotTable.bankA_reset_get, SlotTable.bankB_reset_get]

end Sys2Proof.Machine

/-! SUPPORT. The part of the state that only a few commands write, and its order. -/
namespace Sys2Proof.Machine
/-- The parts of the state that few commands write: the commands that wait, the one-time memory, the bytes of the Yard, and the tick counter. -/
structure Core where
  pending : List Instr
  otp : Otp
  mem : Memory
  tick : Nat

def State.core (s : State) : Core := ⟨s.pending, s.otp, s.yard.mem, s.tick⟩

@[simp] theorem State.core_mk (yard eng qe lq mm fc sch mv cpl mbx tmr psv hpc field lpc mgp fcs tru otp top tick free out pending) :
    (State.mk yard eng qe lq mm fc sch mv cpl mbx tmr psv hpc field lpc mgp fcs tru otp top tick free out pending).core
      = ⟨pending, otp, yard.mem, tick⟩ := by rfl

@[simp] theorem State.core_eta (s : State) : (⟨s.pending, s.otp, s.yard.mem, s.tick⟩ : Core) = s.core := by rfl

@[simp] theorem State.core_ite (c : Prop) [Decidable c] (s t : State) : (if c then s else t).core = if c then s.core else t.core := by
  split <;> rfl

theorem core_foldl {α : Type} {f : State → α → State} (h : ∀ s a, (f s a).core = s.core) (l : List α) (s : State) :
    (l.foldl f s).core = s.core := by
  induction l generalizing s with
  | nil => rfl
  | cons a l ih => exact (ih _).trans (h _ _)

/-- Entry `k` of the root slots, as `State.rootAt` reads it. -/
def Otp.rootAt (o : Otp) (k : Nat) : Root := o.roots.get k { hash := [], programmed := false, revoked := false }

/-- `b` keeps all that is written once in `a` (R403, R405 to R408, R416). -/
structure Otp.Le (a b : Otp) : Prop where
  locked : a.locked = true → b.locked = true
  secret : a.secret = true → b.secret = true
  root (k : Nat) : (a.rootAt k).programmed = true → (b.rootAt k).programmed = true ∧ (b.rootAt k).hash = (a.rootAt k).hash
  revoked (k : Nat) : (a.rootAt k).revoked = true → (b.rootAt k).revoked = true
  fuses : a.fuses ≤ b.fuses
  floors (k : Nat) : a.vaultFloors.get k 0 ≤ b.vaultFloors.get k 0
  secretGen : a.secretGen ≤ b.secretGen

theorem Otp.Le.refl (a : Otp) : a.Le a := ⟨id, id, fun _ h => ⟨h, rfl⟩, fun _ => id, Nat.le_refl _, fun _ => Nat.le_refl _, Nat.le_refl _⟩

theorem Otp.Le.trans {a b c : Otp} (h : a.Le b) (h' : b.Le c) : a.Le c where
  locked := h'.locked ∘ h.locked
  secret := h'.secret ∘ h.secret
  root k hk := ⟨(h'.root k (h.root k hk).1).1, (h'.root k (h.root k hk).1).2.trans (h.root k hk).2⟩
  revoked k := h'.revoked k ∘ h.revoked k
  fuses := Nat.le_trans h.fuses h'.fuses
  floors k := Nat.le_trans (h.floors k) (h'.floors k)
  secretGen := Nat.le_trans h.secretGen h'.secretGen

/-- From `a` to `b` the waiting commands and the tick counter stand, what is written once is kept, and the Yard's memory stays in its one form. -/
structure Core.Le (a b : Core) : Prop where
  pending : b.pending = a.pending
  otp : a.otp.Le b.otp
  mem : a.mem.wf = true → b.mem.wf = true
  tick : b.tick = a.tick

@[simp] theorem Core.Le.refl (a : Core) : a.Le a := ⟨rfl, Otp.Le.refl _, id, rfl⟩

theorem Core.Le.trans {a b c : Core} (h : a.Le b) (h' : b.Le c) : a.Le c :=
  ⟨h'.pending.trans h.pending, h.otp.trans h'.otp, h'.mem ∘ h.mem, h'.tick.trans h.tick⟩

theorem Core.Le.of_eq {a b c : Core} (h : a.Le b) (hc : c = b) : a.Le c := hc ▸ h

theorem Core.le_core_ite {c : Core} {s t : State} {p : Prop} [Decidable p] (hs : c.Le s.core) (ht : c.Le t.core) : c.Le (if p then s else t).core := by
  split <;> assumption

@[simp] theorem Core.le_ite {a b c : Core} {p : Prop} [Decidable p] (hb : a.Le b) (hc : a.Le c) : a.Le (if p then b else c) := by
  split <;> assumption

theorem core_le_foldl {α : Type} {c : Core} {f : State → α → State} (h : ∀ s a, c.Le s.core → c.Le (f s a).core) (l : List α) {s : State} (hs : c.Le s.core) :
    c.Le (l.foldl f s).core := by
  induction l generalizing s with
  | nil => exact hs
  | cons a l ih => exact ih (h _ _ hs)
end Sys2Proof.Machine

/-! SUPPORT. What the functions of the engines, the queues and the pool leave of the core. -/
namespace Sys2Proof.Machine

theorem core_of_eq {α : Type} {x : α × State} {a : α} {s t : State} (h : x = (a, t)) (hc : x.2.core = s.core) : t.core = s.core := by
  subst h; exact hc
@[simp] theorem State.updSq_core (s : State) (n : Nat) (f : Sq → Sq) : (State.updSq s n f).core = s.core := by rfl

@[simp] theorem State.updCq_core (s : State) (m : Nat) (f : Cq → Cq) : (State.updCq s m f).core = s.core := by rfl

@[simp] theorem State.updAq_core (s : State) (fn : Nat) (f : Aq → Aq) : (State.updAq s fn f).core = s.core := by rfl

@[simp] theorem State.updEngine_core (s : State) (e : Nat) (f : Engine → Engine) : (State.updEngine s e f).core = s.core := by rfl

@[simp] theorem State.updProg_core (s : State) (e : Nat) (f : Prog → Prog) : (State.updProg s e f).core = s.core := by rfl

@[simp] theorem State.updCluster_core (s : State) (c : Nat) (f : Cluster → Cluster) : (State.updCluster s c f).core = s.core := by rfl

@[simp] theorem State.updCrew_core (s : State) (k : Nat) (f : Crew → Crew) : (State.updCrew s k f).core = s.core := by rfl

@[simp] theorem State.updBar_core (s : State) (b : Nat) (f : Barrier → Barrier) : (State.updBar s b f).core = s.core := by rfl

@[simp] theorem State.updMover_core (s : State) (m : Nat) (f : Mover → Mover) : (State.updMover s m f).core = s.core := by rfl

@[simp] theorem State.updCpq_core (s : State) (q : Nat) (f : CQueue → CQueue) : (State.updCpq s q f).core = s.core := by rfl

@[simp] theorem State.updMchan_core (s : State) (n : Nat) (f : MChan → MChan) : (State.updMchan s n f).core = s.core := by rfl

@[simp] theorem State.updTimer_core (s : State) (t : Nat) (f : Timer → Timer) : (State.updTimer s t f).core = s.core := by rfl

@[simp] theorem State.updHfn_core (s : State) (fn : Nat) (f : Fn → Fn) : (State.updHfn s fn f).core = s.core := by rfl

@[simp] theorem State.updHport_core (s : State) (p : Nat) (f : HPort → HPort) : (State.updHport s p f).core = s.core := by rfl

@[simp] theorem State.updFport_core (s : State) (p : Nat) (f : FPort → FPort) : (State.updFport s p f).core = s.core := by rfl

@[simp] theorem State.updXt_core (s : State) (n : Nat) (f : Xt → Xt) : (State.updXt s n f).core = s.core := by rfl

@[simp] theorem State.updDreq_core (s : State) (n : Nat) (f : Dreq → Dreq) : (State.updDreq s n f).core = s.core := by rfl

@[simp] theorem State.updUart_core (s : State) (n : Nat) (f : Uart → Uart) : (State.updUart s n f).core = s.core := by rfl

@[simp] theorem State.updChan_core (s : State) (n : Nat) (f : Chan → Chan) : (State.updChan s n f).core = s.core := by rfl

@[simp] theorem State.updLun_core (s : State) (l : Nat) (f : Lun → Lun) : (State.updLun s l f).core = s.core := by rfl

@[simp] theorem State.updTable_core (s : State) (t : Nat) (f : SlotTable → SlotTable) : (State.updTable s t f).core = s.core := by rfl

@[simp] theorem State.updStream_core (s : State) (n : Nat) (f : Stream → Stream) : (State.updStream s n f).core = s.core := by rfl

@[simp] theorem State.updRegion_core (s : State) (n : Nat) (f : Region → Region) : (State.updRegion s n f).core = s.core := by rfl

@[simp] theorem State.useKey_core (s : State) (k : Nat) (enc : Bool) : (State.useKey s k enc).core = s.core := by
  simp [State.useKey]

@[simp] theorem State.useStream_core (s : State) (n : Nat) : (State.useStream s n).core = s.core := by
  simp [State.useStream]

@[simp] theorem State.useRegion_core (s : State) (n : Nat) : (State.useRegion s n).core = s.core := by
  simp [State.useRegion]

@[simp] theorem State.updSeg_core (s : State) (n : Nat) (f : Segment → Segment) : (State.updSeg s n f).core = s.core := by rfl

@[simp] theorem State.takeFree_core (s : State) : s.takeFree.2.core = s.core := by rfl

@[simp] theorem State.drive_core (s : State) (o : Output) : (State.drive s o).core = s.core := by rfl

@[simp] theorem State.sets_core (s : State) (reg bit : Nat) : (State.sets s reg bit).core = s.core := by rfl

@[simp] theorem State.setsIf_core (s : State) (b : Bool) (reg bit : Nat) : (State.setsIf s b reg bit).core = s.core := by
  simp [State.setsIf]

@[simp] theorem State.postEvent_core (s : State) (fn code num : Nat) (info : W64) : (State.postEvent s fn code num info).core = s.core := by rfl

@[simp] theorem State.postEventAll_core (s : State) (blk code num : Nat) (info : W64) : (State.postEventAll s blk code num info).core = s.core := by
  simp [State.postEventAll, core_foldl]

@[simp] theorem State.trustEvent_core (s : State) (code num : Nat) (info : W64) : (s.trustEvent code num info).core = s.core := by
  refine core_foldl (fun s m => ?_) _ _
  split <;> simp

@[simp] theorem State.consentResolved_core (s : State) (p : Proposal) (outcome mid : Nat) : (State.consentResolved s p outcome mid).core = s.core := by
  simp [State.consentResolved]

@[simp] theorem State.endProps_core (s : State) (p : Proposal → Bool) (outcome mid : Nat) : (State.endProps s p outcome mid).core = s.core := by
  simp [State.endProps, core_foldl]

@[simp] theorem State.report_core (s : State) (cls detail kind unit : Nat) (info : W64) : (State.report s cls detail kind unit info).core = s.core := by
  simp [State.report]

@[simp] theorem State.sendMsix_core (s : State) (fn v : Nat) : (State.sendMsix s fn v).core = s.core := by
  simp [State.sendMsix]

@[simp] theorem State.redoTests_core (s : State) : (State.redoTests s).core = s.core := by rfl

@[simp] theorem State.setMode_core (s : State) (m : Mode) : (State.setMode s m).core = s.core := by
  simp [State.setMode]

@[simp] theorem State.reportBad_core (s : State) (lo len : Nat) : (State.reportBad s lo len).core = s.core := by
  simp [State.reportBad, core_foldl]

@[simp] theorem State.reportPart_core (s : State) (lo len : Nat) : (State.reportPart s lo len).core = s.core := by
  simp [State.reportPart]

@[simp] theorem State.markBad_core (s : State) (a : Nat) : (State.markBad s a).core = s.core := by
  simp [State.markBad]

/-- The one write of the Yard's bytes keeps their form (R21, R485). -/
@[simp] theorem State.yardWrite_le {c : Core} {s : State} (h : c.Le s.core) (lo : Nat) (bs : List Byte) : c.Le (s.yardWrite lo bs).core := by
  have written : c.Le ⟨s.pending, s.otp, s.yard.mem.writeN lo bs, s.tick⟩ :=
    ⟨h.pending, h.otp, fun hc => Memory.wf_writeN _ _ _ (h.mem hc), h.tick⟩
  have reported := s.reportPart_core lo bs.length
  simp only [State.core, Core.mk.injEq] at reported
  obtain ⟨hp, ho, -, ht⟩ := reported
  unfold State.yardWrite
  split
  · exact written
  · simpa only [State.core, Yard.write, hp, ho, ht] using written

@[simp] theorem State.updReqr_core (s : State) (arb r : Nat) (f : Reqr → Reqr) : (State.updReqr s arb r f).core = s.core := by rfl

@[simp] theorem State.countGrant_core (s : State) (arb w asked : Nat) : (State.countGrant s arb w asked).core = s.core := by rfl

@[simp] theorem State.loseRounds_core (s : State) (arb w : Nat) (rs : List Nat) : (s.loseRounds arb w rs).core = s.core := by
  simp [State.loseRounds, core_foldl]

@[simp] theorem State.creditGrant_core (s : State) (arb w units asked : Nat) (rs : List Nat) : (State.creditGrant s arb w units asked rs).core = s.core := by
  simp [State.creditGrant]

@[simp] theorem State.updMvCh_core (s : State) (m c : Nat) (f : MvCh → MvCh) : (State.updMvCh s m c f).core = s.core := by rfl

@[simp] theorem State.updLane_core (s : State) (arb : Nat) (f : Lane → Lane) : (State.updLane s arb f).core = s.core := by rfl

@[simp] theorem State.startJob_core (s : State) (arb : Nat) (j : CodecJob) : (State.startJob s arb j).core = s.core := by
  simp [State.startJob]

@[simp] theorem State.runLane_core (s : State) (arb : Nat) : (State.runLane s arb).core = s.core := by
  simp only [State.runLane]
  repeat' split
  all_goals simp

@[simp] theorem State.askLane_core (s : State) (arb : Nat) (j : CodecJob) : (State.askLane s arb j).core = s.core := by
  unfold State.askLane
  split <;> simp

@[simp] theorem State.askCodec_core (s : State) (m c : Nat) (d : Desc) : (State.askCodec s m c d).core = s.core := by
  simp [State.askCodec]

@[simp] theorem State.endCodec_core (s : State) (m c : Nat) : (State.endCodec s m c).core = s.core := by
  simp [State.endCodec, core_foldl]

@[simp] theorem State.moverGrant_core (s : State) (m c : Nat) (d : Desc) : (State.moverGrant s m c d).core = s.core := by
  simp [State.moverGrant]

@[simp] theorem State.runNext_core (s : State) (m : Nat) : (State.runNext s m).core = s.core := by
  simp only [State.runNext]
  repeat' split
  all_goals simp

@[simp] theorem State.preempt_core (s : State) (m : Nat) : (State.preempt s m).core = s.core := by
  simp only [State.preempt]
  split <;> simp

@[simp] theorem State.enter_core (s : State) (m c : Nat) : (State.enter s m c).core = s.core := by
  simp only [State.enter]
  split <;> simp

@[simp] theorem State.acknowledge_core (s : State) (n : Nat) : (State.acknowledge s n).core = s.core := by rfl

@[simp] theorem State.startBurst_core (s : State) (m c : Nat) : (State.startBurst s m c).core = s.core := by
  simp [State.startBurst]

@[simp] theorem State.burstOver_core (s : State) (m c : Nat) : (State.burstOver s m c).core = s.core := by
  simp [State.burstOver]

@[simp] theorem State.descEnd_core (s : State) (m c st : Nat) : (State.descEnd s m c st).core = s.core := by
  simp [State.descEnd]

theorem State.seize_core {s t : State} {c : Nat} {d : Desc} {dl : W64} {r : Nat × Nat} (h : s.seize c d dl = some (r, t)) : t.core = s.core := by
  unfold State.seize at h
  split at h
  · cases h
  · split at h
    · cases h
    · cases h
      simp

@[simp] theorem State.moverBytes_core (s : State) (m c n : Nat) : (State.moverBytes s m c n).core = s.core := by rfl

@[simp] theorem State.dropChan_core (s : State) (e st : Nat) : (State.dropChan s e st).core = s.core := by
  unfold State.dropChan
  split <;> simp

@[simp] theorem State.enqueueCharge_core (s : State) (e cls bytes : Nat) : (State.enqueueCharge s e cls bytes).core = s.core := by
  simp [State.enqueueCharge]

@[simp] theorem State.dropCharge_core (s : State) (e : Nat) : (State.dropCharge s e).core = s.core := by
  simp [State.dropCharge]

@[simp] theorem State.updGroup_core (s : State) (i : Nat) (f : Group → Group) : (State.updGroup s i f).core = s.core := by rfl

@[simp] theorem State.openGroup_core (s : State) (e : Nat) (p : Prog) : (s.openGroup e p).2.core = s.core := by
  unfold State.openGroup
  split <;> rfl

@[simp] theorem State.addWrite_core (s : State) (g : Nat) (k : WKind) (charge : Nat) : (State.addWrite s g k charge).core = s.core := by rfl

@[simp] theorem State.settle_core (s : State) : (State.settle s).core = s.core := by rfl

@[simp] theorem State.queueTask_core (s : State) (t : Task) : (State.queueTask s t).core = s.core := by
  simp [State.queueTask]

@[simp] theorem State.relocate_core (s : State) (seg : Nat) : (State.relocate s seg).core = s.core := by
  simp [State.relocate]

@[simp] theorem State.countReads_core (s : State) (l b n seg : Nat) (pslc : Bool) : (State.countReads s l b n seg pslc).core = s.core := by
  simp [State.countReads]

@[simp] theorem State.recordLoss_core (s : State) (entry : LossEntry) (id : Nat) (region : Bool) : (State.recordLoss s entry id region).core = s.core := by
  simp [State.recordLoss]

@[simp] theorem State.ladderFailed_core (s : State) (entry : LossEntry) (id : Nat) (region : Bool) : (State.ladderFailed s entry id region).core = s.core := by
  simp [State.ladderFailed]

@[simp] theorem State.lowCheck_core (s : State) (i : Nat) : (State.lowCheck s i).core = s.core := by
  unfold State.lowCheck
  split <;> simp

@[simp] theorem State.lowChecks_core (s : State) (l : Nat) : (State.lowChecks s l).core = s.core := by
  simp [State.lowChecks, core_foldl]

@[simp] theorem State.retire_core (s : State) (l b : Nat) : (State.retire s l b).core = s.core := by
  simp only [State.retire]
  repeat' split
  all_goals simp

@[simp] theorem State.driveRetries_core (s : State) (l b page k : Nat) : (s.driveRetries l b page k).core = s.core := by
  simp [State.driveRetries, core_foldl]

@[simp] theorem State.moveThr_core (s : State) (l b : Nat) (pslc : Bool) (k : Nat) : (State.moveThr s l b pslc k).core = s.core := by rfl

@[simp] theorem State.reconstructed_core (s : State) (l b : Nat) (pslc : Bool) : (State.reconstructed s l b pslc).core = s.core := by
  simp [State.reconstructed]

@[simp] theorem State.decodedAs_core (s : State) (d : Decode) (l b page seg : Nat) (pslc : Bool) : (State.decodedAs s d l b page seg pslc).core = s.core := by
  simp [State.decodedAs]

@[simp] theorem State.decoded_core (s : State) (l b page seg : Nat) (pslc : Bool) : (State.decoded s l b page seg pslc).core = s.core := by
  simp [State.decoded]

@[simp] theorem State.addJob_core (s : State) (id : Nat) (j : PageJob) : (State.addJob s id j).core = s.core := by rfl

@[simp] theorem State.freshJob_core (s : State) : s.freshJob.2.core = s.core := by rfl

@[simp] theorem State.newJob_core (s : State) (j : PageJob) : (s.newJob j).2.core = s.core := by rfl

@[simp] theorem State.askRead_core (s : State) (cls crew : Nat) (dl : W64) (seg : Nat) (pl : Nat × Nat × Nat) :
    (s.askRead cls crew dl seg pl).2.core = s.core := by rfl

@[simp] theorem State.askEach_core (cls crew : Nat) (dl : W64) (l : List (Nat × Nat × Nat × Nat)) (s : State) :
    (State.askEach cls crew dl l s).2.core = s.core := by
  induction l generalizing s with
  | nil => rfl
  | cons x t ih => exact (ih _).trans (s.askRead_core cls crew dl x.1 x.2)

@[simp] theorem State.askReads_core (cls crew : Nat) (dl : W64) (l : List (Nat × Nat × Nat × Nat)) (s : State) :
    (State.askReads cls crew dl l s).2.core = s.core := State.askEach_core ..

@[simp] theorem State.annealErase_core (s : State) (l b seg : Nat) : (s.annealErase l b seg).2.core = s.core := by rfl

@[simp] theorem State.program_core (s : State) (j : PageJob) : (State.program s j).core = s.core := by
  simp [State.program]

theorem State.journalPage_core {s t : State} {cls crew n : Nat} {dl : W64} (h : s.journalPage cls crew dl = some (n, t)) : t.core = s.core := by
  simp only [State.journalPage, Option.map_eq_some_iff, Prod.mk.injEq] at h
  obtain ⟨pl, -, -, rfl⟩ := h
  rfl

@[simp] theorem State.journal_core (s : State) (cls crew : Nat) (dl : W64) : (s.journal cls crew dl).core = s.core := by
  simp only [State.journal]
  split
  · split
    next r h => exact (State.journalPage_core h).trans rfl
    next => rfl
  · rfl

@[simp] theorem State.journalWritten_core (s : State) (n : Nat) : (State.journalWritten s n).core = s.core := by rfl

theorem State.openSegAt_core (s : State) (k : SegKind) (i n : Nat) (pick : State → Nat → Option Nat) :
    (s.openSegAt k i n pick).core = s.core := by
  unfold State.openSegAt
  split
  · rfl
  · have taken : ∀ (f : State × Tbl Nat → Nat → State × Tbl Nat) (_ : ∀ x l, (f x l).1.core = x.1.core) (l : List Nat) (x : State × Tbl Nat),
        (l.foldl f x).1.core = x.1.core := by
      intro f hf l
      induction l with
      | nil => exact fun _ => rfl
      | cons a l ih => exact fun x => (ih _).trans (hf x a)
    simp only [State.lowCheck_core]
    split <;> (refine (taken _ (fun x l => ?_) _ _).trans rfl; split <;> rfl)

theorem State.openSeg_core {s t : State} {k : SegKind} {n : Nat} (h : s.openSeg k = some (n, t)) : t.core = s.core := by
  simp only [State.openSeg] at h
  split at h
  · cases h
    exact State.openSegAt_core ..
  · cases h

@[simp] theorem State.emitPage_core (s : State) (n cls crew : Nat) (dl : W64) (kind : Nat) : (s.emitPage n cls crew dl kind).core = s.core := by
  unfold State.emitPage
  split
  · rfl
  · simp only []
    repeat' split
    all_goals simp

@[simp] theorem State.padRowFor_core (s : State) (n cls crew : Nat) (dl : W64) : (State.padRowFor s n cls crew dl).core = s.core := by
  simp only [State.padRowFor]
  split <;> simp [core_foldl]

@[simp] theorem State.padRow_core (s : State) (n : Nat) : (State.padRow s n).core = s.core := by
  simp [State.padRow]

theorem State.ensureSeg_core {s t : State} {k : SegKind} {need n : Nat} (h : s.ensureSeg k need = some (n, t)) : t.core = s.core := by
  unfold State.ensureSeg at h
  repeat' split at h
  · cases h
    rfl
  · exact (State.openSeg_core h).trans (by simp)
  · exact State.openSeg_core h

@[simp] theorem State.updWrite_core (s : State) (g i : Nat) (f : GWrite → GWrite) : (State.updWrite s g i f).core = s.core := by rfl

@[simp] theorem State.fillSeg_core (n cls crew : Nat) (dl : W64) (w : Option (Nat × Nat)) (pos : Option Nat) (fuel : Nat) (bs : List Byte) (s : State) :
    (State.fillSeg n cls crew dl w pos fuel bs s).2.core = s.core := by
  induction fuel generalizing pos bs s with
  | zero => rfl
  | succ fuel ih =>
    cases bs with
    | nil => rfl
    | cons b bs =>
      unfold State.fillSeg
      split
      · rfl
      · simp only [ih]
        repeat' split
        all_goals simp

@[simp] theorem State.dropSeg_core (s : State) (n : Nat) : (s.dropSeg n).core = s.core := by
  simp only [State.dropSeg]
  split
  · rfl
  · simp [core_foldl]

@[simp] theorem State.stopMoves_core (s : State) (g : Nat) : (State.stopMoves s g).core = s.core := by
  simp [State.stopMoves, core_foldl]

@[simp] theorem State.releaseSeg_core (s : State) (st g : Nat) : (State.releaseSeg s st g).core = s.core := by
  simp [State.releaseSeg]

@[simp] theorem State.releaseGone_core (s : State) (st : Nat) : (State.releaseGone s st).core = s.core := by
  simp only [State.releaseGone]
  split <;> simp [core_foldl]

@[simp] theorem State.acceptWrite_core (s : State) (g order : Nat) (k : WKind) : (State.acceptWrite s g order k).core = s.core := by
  unfold State.acceptWrite
  split <;> simp

@[simp] theorem State.sealGroup_core (s : State) (e g : Nat) : (State.sealGroup s e g).core = s.core := by
  simp only [State.sealGroup]
  split <;> simp [core_foldl]

@[simp] theorem State.sealOpen_core (s : State) (e : Nat) : (State.sealOpen s e).core = s.core := by
  unfold State.sealOpen
  split <;> simp

@[simp] theorem State.discardGroup_core (s : State) (g : Nat) : (State.discardGroup s g).core = s.core := by rfl

@[simp] theorem State.discardOpen_core (s : State) (e : Nat) : (State.discardOpen s e).core = s.core := by
  unfold State.discardOpen
  split <;> simp

@[simp] theorem State.markDurable_core (s : State) (g order : Nat) (w : GWrite) : (State.markDurable s g order w).core = s.core := by
  unfold State.markDurable
  split <;> simp

@[simp] theorem State.pushReady_core (s : State) (cqid : Nat) (w : Waiting) : (State.pushReady s cqid w).core = s.core := by rfl

@[simp] theorem State.pushQe_core (s : State) (sqid : Nat) (tag : W32) (n : Ending) (ccw : W64) : (State.pushQe s sqid tag n ccw).core = s.core := by
  unfold State.pushQe
  split <;> simp

@[simp] theorem State.raiseNote_core (s : State) (e : Nat) (p : Prog) (c : Cqe) : (State.raiseNote s e p c).core = s.core := by rfl

@[simp] theorem State.pushNotice_core (s : State) (e : Nat) (p : Prog) (residual : Nat) : (State.pushNotice s e p residual).core = s.core := by rfl

@[simp] theorem State.raiseOwed_core (s : State) (e : Nat) : (State.raiseOwed s e).core = s.core := by
  simp only [State.raiseOwed]
  repeat' split
  all_goals simp

@[simp] theorem State.ack_core (s : State) (e : Nat) : (State.ack s e).core = s.core := by rfl

@[simp] theorem State.freeEngine_core (s : State) (e : Nat) : (State.freeEngine s e).core = s.core := by rfl

@[simp] theorem State.postFinal_core (s : State) (e : Nat) (p : Prog) (n : Ending) (ccw : W64) (bell : Option Nat) : (State.postFinal s e p n ccw bell).core = s.core := by
  simp only [State.postFinal]
  split <;> simp

@[simp] theorem State.endProg_core (s : State) (e : Nat) (n : Ending) (ccw : W64) : (State.endProg s e n ccw).core = s.core := by
  unfold State.endProg
  split <;> simp

@[simp] theorem State.endAtLast_core (s : State) (e : Nat) (n : Ending) : (State.endAtLast s e n).core = s.core := by
  unfold State.endAtLast
  split <;> simp

@[simp] theorem State.endAtWord_core (s : State) (e : Nat) (n : Ending) (i : Nat) : (State.endAtWord s e n i).core = s.core := by
  unfold State.endAtWord
  split <;> simp

@[simp] theorem State.endNormal_core (s : State) (e : Nat) (unitException : Bool) : (State.endNormal s e unitException).core = s.core := by
  unfold State.endNormal
  split <;> simp

@[simp] theorem State.suspendProg_core (s : State) (e : Nat) (k : Susp) (ccw : W64) : (State.suspendProg s e k ccw).core = s.core := by
  unfold State.suspendProg
  split <;> simp

@[simp] theorem State.atBoundary_core (s : State) (e : Nat) : (State.atBoundary s e).core = s.core := by
  unfold State.atBoundary
  split <;> simp

@[simp] theorem State.completeWord_core (s : State) (e : Nat) (d : Dest) : (State.completeWord s e d).core = s.core := by
  simp only [State.completeWord]
  repeat' split
  all_goals simp

@[simp] theorem State.finishWait_core (s : State) (e : Nat) (z : Bool) : (State.finishWait s e z).core = s.core := by
  simp [State.finishWait]

@[simp] theorem State.finishWaits_core (s : State) (f : WaitKind → Bool) : (State.finishWaits s f).core = s.core := by
  simp [State.finishWaits, core_foldl]

@[simp] theorem State.handover_core (s : State) (a b : Nat) : (State.handover s a b).core = s.core := by rfl

@[simp] theorem State.cpNotice_core (s : State) (q : Nat) : (State.cpNotice s q).core = s.core := by
  simp [State.cpNotice]

@[simp] theorem State.cpWake_core (s : State) (q : Nat) : (State.cpWake s q).core = s.core := by
  simp [State.cpWake]

@[simp] theorem State.cpPush_core (s : State) (q : Nat) (w : CWord) : (State.cpPush s q w).core = s.core := by
  simp [State.cpPush]

@[simp] theorem State.cpPop_core (s : State) (q : Nat) : (s.cpPop q).2.core = s.core := by
  simp only [State.cpPop]
  repeat' split
  all_goals rfl

@[simp] theorem State.cpPushBytes_core (q fuel : Nat) (first : Bool) (bs : List Byte) (s : State) : (State.cpPushBytes q fuel first bs s).core = s.core := by
  induction fuel generalizing first bs s with
  | zero => rfl
  | succ fuel ih => simp [State.cpPushBytes, ih]

@[simp] theorem State.cpTake_core (q fuel n : Nat) (s : State) : (State.cpTake q fuel n s).2.core = s.core := by
  induction fuel generalizing n s with
  | zero => rfl
  | succ fuel ih =>
    unfold State.cpTake
    split
    · rfl
    · split
      next t h => exact core_of_eq h (s.cpPop_core q)
      next w t h =>
        have ht := core_of_eq h (s.cpPop_core q)
        split <;> simp [ih, ht]

@[simp] theorem State.cpSkip_core (q n : Nat) (s : State) : (State.cpSkip q n s).core = s.core := by
  induction n generalizing s with
  | zero => rfl
  | succ n ih => simp [State.cpSkip, ih]

@[simp] theorem State.cpShow_core (s : State) (mid q : Nat) (lo hi : W32) : (State.cpShow s mid q lo hi).core = s.core := by rfl

@[simp] theorem State.readPiece_core (s : State) (e : Nat) (x : Piece) (host : List Byte) : (s.readPiece e x host).st.core = s.core := by
  simp only [State.readPiece]
  repeat' split
  all_goals simp

@[simp] theorem State.gather_core (e i : Nat) (ps : List Piece) (host : List Byte) (s : State) : (State.gather e i ps host s).st.core = s.core := by
  induction ps generalizing i host s with
  | nil => rfl
  | cons x t ih =>
    simp only [State.gather]
    repeat' split
    all_goals simp [ih]

@[simp] theorem State.writePiece_le {c : Core} {s : State} (h : c.Le s.core) (e fn : Nat) (x : Piece) (bs : List Byte) : c.Le (s.writePiece e fn x bs).core := by
  unfold State.writePiece
  repeat' split
  all_goals simp [h]

@[simp] theorem State.scatter_le {c : Core} {s : State} (h : c.Le s.core) (e fn : Nat) (ps : List Piece) (bs : List Byte) :
    c.Le (State.scatter e fn ps bs s).core := by
  induction ps generalizing bs s with
  | nil => exact h
  | cons x t ih => exact ih (State.writePiece_le h e fn x _) _

@[simp] theorem State.takeFreeBytes_core (s : State) (n : Nat) : (s.takeFreeBytes n).2.core = s.core := by rfl

@[simp] theorem State.putLine_core (s : State) (c : Nat) (l : Line) : (State.putLine s c l).core = s.core := by
  simp [State.putLine]

@[simp] theorem State.dropLines_core (s : State) (p : Line → Bool) : (State.dropLines s p).core = s.core := by rfl

/-- Every state that a fetch leaves has the core `c`. -/
def FRes.HasCore (c : Core) : FRes → Prop
  | .line _ u => u.core = c
  | .error u => u.core = c
  | .absent => True

theorem State.fetchLine_core (s : State) (e : Nat) (p : Prog) (t : Nat) (host : List (Nat × Rd)) : (s.fetchLine e p t host).HasCore s.core := by
  simp only [State.fetchLine]
  repeat' split
  all_goals simp [FRes.HasCore]

/-- Every state that the fetch of an operation leaves has the core `c`. -/
def OpRes.HasCore (c : Core) : OpRes → Prop
  | .words _ u => u.core = c
  | .error _ u => u.core = c
  | .beyond _ u => u.core = c
  | .absent => True

theorem State.fetchOp_core {c : Core} (e : Nat) (p : Prog) (host : List (Nat × Rd)) (fuel a : Nat) (acc : List Ccw) {s : State} (hs : s.core = c) :
    (State.fetchOp e p host fuel a acc s).HasCore c := by
  induction fuel generalizing a acc s with
  | zero => exact hs
  | succ fuel ih =>
    have fetched := s.fetchLine_core e p a host
    simp only [State.fetchOp]
    split
    · exact hs
    · split
      next => trivial
      next u h =>
        rw [h] at fetched
        exact Eq.trans fetched hs
      next bs u h =>
        rw [h] at fetched
        have hu : u.core = c := Eq.trans fetched hs
        split <;> split
        · exact ih _ _ (by simp [hu])
        · show State.core _ = c
          simp [hu]
        · exact ih _ _ hu
        · exact hu

@[simp] theorem State.deliver_core (s : State) (e : Nat) : (State.deliver s e).core = s.core := by
  simp only [State.deliver]
  repeat' split
  all_goals simp

end Sys2Proof.Machine

/-! SUPPORT. What the functions of the engine words and the media leave of the core. -/
namespace Sys2Proof.Machine

/-- A fold over a pair keeps the core of the state it carries first. -/
theorem core_foldl_fst {α β : Type} {f : State × β → α → State × β} (h : ∀ x a, (f x a).1.core = x.1.core) (l : List α) (x : State × β) :
    (l.foldl f x).1.core = x.1.core := by
  induction l generalizing x with
  | nil => rfl
  | cons a l ih => exact (ih _).trans (h x a)

/-- A fold over a pair keeps the core of the state it carries second. -/
theorem core_foldl_snd {α β : Type} {f : β × State → α → β × State} (h : ∀ x a, (f x a).2.core = x.2.core) (l : List α) (x : β × State) :
    (l.foldl f x).2.core = x.2.core := by
  induction l generalizing x with
  | nil => rfl
  | cons a l ih => exact (ih _).trans (h x a)
@[simp] theorem State.sqSets_core (s : State) (n bit : Nat) : (State.sqSets s n bit).core = s.core := by
  unfold State.sqSets
  split <;> simp

@[simp] theorem State.cqSets_core (s : State) (m bit : Nat) : (State.cqSets s m bit).core = s.core := by
  unfold State.cqSets
  split <;> simp

@[simp] theorem State.aqSets_core (s : State) (fn bit : Nat) : (State.aqSets s fn bit).core = s.core := by rfl

@[simp] theorem State.ringSq_core (s : State) (n v : Nat) : (State.ringSq s n v).core = s.core := by
  simp [State.ringSq]

@[simp] theorem State.ringAq_core (s : State) (fn v : Nat) : (State.ringAq s fn v).core = s.core := by
  simp [State.ringAq]

@[simp] theorem State.readRing_core (s : State) (fn : Nat) (base : W64) (i n : Nat) : (State.readRing s fn base i n).core = s.core := by rfl

@[simp] theorem State.readBlock_core (s : State) (fn : Nat) (base : W64) (i depth : Nat) : (State.readBlock s fn base i depth).core = s.core := by rfl

@[simp] theorem State.logAer_core (s : State) (fn bit : Nat) : (State.logAer s fn bit).core = s.core := by rfl

@[simp] theorem State.readFailed_core (s : State) (fn : Nat) : (State.readFailed s fn).core = s.core := by rfl

@[simp] theorem State.stageAq_core (s : State) (fn : Nat) (bs : List Byte) : (State.stageAq s fn bs).core = s.core := by rfl

@[simp] theorem State.haltProg_core (s : State) (e : Nat) : (State.haltProg s e).core = s.core := by
  simp only [State.haltProg]
  repeat' split
  all_goals simp

@[simp] theorem State.haltNext_core (s : State) (n : Nat) : (State.haltNext s n).core = s.core := by
  simp only [State.haltNext]
  repeat' split
  all_goals simp

@[simp] theorem State.haltQueue_core (s : State) (n : Nat) : (State.haltQueue s n).core = s.core := by
  simp [State.haltQueue, core_foldl]

@[simp] theorem State.writeSqCtrl_core (s : State) (fn n : Nat) (v : W32) : (State.writeSqCtrl s fn n v).core = s.core := by
  unfold State.writeSqCtrl
  split <;> simp

@[simp] theorem State.markPosted_core (s : State) (gs : List Nat) : (State.markPosted s gs).core = s.core := by
  simp [State.markPosted]

@[simp] theorem State.afterPost_core (s : State) (w : Waiting) : (State.afterPost s w).core = s.core := by
  simp only [State.afterPost]
  repeat' split
  all_goals simp

@[simp] theorem State.cqMessage_core (s : State) (m : Nat) (q : Cq) : (State.cqMessage s m q).core = s.core := by
  simp [State.cqMessage]

@[simp] theorem State.c0RingFull_core (s : State) (m : Nat) (q : Cq) : (State.c0RingFull s m q).core = s.core := by
  simp [State.c0RingFull]

@[simp] theorem State.c0StillFull_core (s : State) (m : Nat) : (State.c0StillFull s m).core = s.core := by
  unfold State.c0StillFull
  split <;> simp

@[simp] theorem State.postCqe_core (s : State) (m : Nat) (q : Cq) (w : Waiting) : (State.postCqe s m q w).core = s.core := by
  simp [State.postCqe]

@[simp] theorem State.checkStall_core (s : State) (m : Nat) : (State.checkStall s m).core = s.core := by
  unfold State.checkStall
  split <;> simp

@[simp] theorem State.postReady_core (s : State) (m : Nat) (q : Cq) : (State.postReady s m q).core = s.core := by
  unfold State.postReady
  split <;> simp

@[simp] theorem State.postAdm_core (s : State) (fn : Nat) (c : Cqe) : (State.postAdm s fn c).core = s.core := by
  simp [State.postAdm]

@[simp] theorem State.refuseEntry_core (s : State) (n : Nat) (tag : W32) (st : BitVec 16) : (State.refuseEntry s n tag st).core = s.core := by
  simp [State.refuseEntry]

@[simp] theorem State.resumeProg_core (s : State) (e : Nat) (k : Susp) : (State.resumeProg s e k).core = s.core := by
  unfold State.resumeProg
  split <;> simp

@[simp] theorem State.mbxIrq_core (s : State) (m : MEnd) (b : Nat) : (State.mbxIrq s m b).core = s.core := by
  simp only [State.mbxIrq]
  repeat' split
  all_goals simp

@[simp] theorem State.mbxWake_core (s : State) (m : MEnd) : (State.mbxWake s m).core = s.core := by
  simp [State.mbxWake]

@[simp] theorem State.mbxTake_core (s : State) (ch : Nat) (i : Bool) : (s.mbxTake ch i).2.core = s.core := by
  simp only [State.mbxTake]
  split
  · rfl
  · simp

@[simp] theorem State.mbxServe_core (s : State) (ch : Nat) (i : Bool) : (s.mbxServe ch i).core = s.core := by
  simp only [State.mbxServe]
  split
  · rfl
  · split
    next t h => exact core_of_eq h (s.mbxTake_core ch i)
    next w t h => simp [core_of_eq h (s.mbxTake_core ch i)]

@[simp] theorem State.mbxQueue_core (s : State) (ch : Nat) (i : Bool) (v : W64) : (State.mbxQueue s ch i v).core = s.core := by
  simp [State.mbxQueue]

@[simp] theorem State.mbxRoom_core (s : State) (ch : Nat) (i : Bool) : (State.mbxRoom s ch i).core = s.core := by
  simp only [State.mbxRoom]
  repeat' split
  all_goals simp

@[simp] theorem State.mbxAbort_core (s : State) (ch : Nat) (i timedOut : Bool) : (State.mbxAbort s ch i timedOut).core = s.core := by
  simp only [State.mbxAbort]
  repeat' split
  all_goals simp [core_foldl]

@[simp] theorem State.mbxClear_core (s : State) (ch : Nat) : (State.mbxClear s ch).core = s.core := by rfl

@[simp] theorem State.mbxReset_core (s : State) (hit : MEnd → Bool) : (State.mbxReset s hit).core = s.core := by
  simp [State.mbxReset, core_foldl]

@[simp] theorem State.mbxForeign_core (s : State) (mid ch : Nat) : (State.mbxForeign s mid ch).core = s.core := by
  simp [State.mbxForeign]

@[simp] theorem State.mbxLatch_core (s : State) (mid ch : Nat) (w : MWord) : (State.mbxLatch s mid ch w).core = s.core := by rfl

@[simp] theorem State.mbxEmpty_core (s : State) (mid ch : Nat) : (State.mbxEmpty s mid ch).core = s.core := by rfl

@[simp] theorem State.stepTime_core (s : State) (d : W64) (why : Nat) : (State.stepTime s d why).core = s.core := by
  simp [State.stepTime]

@[simp] theorem State.applySet_core (s : State) (a : TimeAdj) : (State.applySet s a).core = s.core := by
  unfold State.applySet
  split <;> simp

@[simp] theorem State.adjustTime_core (s : State) : (State.adjustTime s).core = s.core := by
  simp only [State.adjustTime]
  split <;> simp [core_foldl]

@[simp] theorem State.blowFuse_le {c : Core} {s : State} (h : c.Le s.core) : c.Le s.blowFuse.core := by
  unfold State.blowFuse
  split
  · exact h.trans ⟨rfl, { Otp.Le.refl s.otp with fuses := Nat.le_succ _ }, id, rfl⟩
  · exact h

@[simp] theorem State.clockTick_le {c : Core} {s : State} (h : c.Le s.core) : Core.Le { c with tick := c.tick + 1 } s.clockTick.core := by
  have ticked : Core.Le { c with tick := c.tick + 1 } ⟨s.pending, s.otp, s.yard.mem, s.tick + 1⟩ :=
    ⟨h.pending, h.otp, h.mem, congrArg (· + 1) h.tick⟩
  unfold State.clockTick
  simp [ticked]

@[simp] theorem State.tmrFire_core (s : State) (t : Nat) : (State.tmrFire s t).core = s.core := by
  simp [State.tmrFire, core_foldl]

@[simp] theorem State.commitHeld_core (s : State) (mid off : Nat) : (State.commitHeld s mid off).core = s.core := by rfl

@[simp] theorem State.tmrUnfreeze_core (s : State) (ns : Nat) : (State.tmrUnfreeze s ns).core = s.core := by
  simp [State.tmrUnfreeze, core_foldl]

@[simp] theorem State.updCapture_core (s : State) (k : Nat) (f : Capture → Capture) : (State.updCapture s k f).core = s.core := by rfl

@[simp] theorem State.setDisc_core (s : State) (st : Nat) : (State.setDisc s st).core = s.core := by
  simp [State.setDisc]

@[simp] theorem State.discSample_core (s : State) (off : Int) : (State.discSample s off).core = s.core := by
  simp [State.discSample]

theorem State.afterBar_le {c : Core} {f : State → State} (hf : ∀ u, c.Le u.core → c.Le (f u).core) {s : State} (h : c.Le s.core) (e : Nat) (bar : Bool) :
    c.Le (s.afterBar e bar f).core := by
  unfold State.afterBar
  repeat' split
  all_goals simp [h, hf]

@[simp] theorem State.chainTo_core (s : State) (e : Nat) (t : Option W64) : (State.chainTo s e t).core = s.core := by
  unfold State.chainTo
  split <;> simp

@[simp] theorem State.startWait_core (s : State) (e : Nat) (w : Ccw) (k : WaitKind) : (State.startWait s e w k).core = s.core := by rfl

theorem State.takeDreq_core {s t : State} {n : Nat} (h : s.takeDreq n = some t) : t.core = s.core := by
  simp only [State.takeDreq] at h
  split at h
  · cases h
  · cases h
    rfl

@[simp] theorem State.beginWait_core (s : State) (e : Nat) (p : Prog) (w : Ccw) : (s.beginWait e p w).core = s.core := by
  have dreq {t : State} {n : Nat} (h : s.takeDreq n = some t) := State.takeDreq_core h
  have taken {t : State} {ch : Nat} {i : Bool} {v : Option MWord} (h : s.mbxTake ch i = (v, t)) := core_of_eq h (s.mbxTake_core ch i)
  simp only [State.beginWait]
  split
  · simp
  · split
    next t h => simp [dreq h]
    next => simp
  · split
    · rfl
    · split
      · simp
      · split
        next v t h => simp [taken h]
        next t h => simp [taken h]
  · split <;> simp
  · split
    · split <;> simp
    · simp
  · simp
  · simp

@[simp] theorem State.barrierDone_core (s : State) (b : Nat) : (State.barrierDone s b).core = s.core := by
  simp [State.barrierDone]

@[simp] theorem State.loseSeat_core (s : State) (c : Nat) : (State.loseSeat s c).core = s.core := by
  simp only [State.loseSeat]
  split <;> simp

@[simp] theorem State.passSeat_core (s : State) (e : Nat) : (State.passSeat s e).core = s.core := by
  simp only [State.passSeat]
  split <;> simp

@[simp] theorem State.restoreSeat_core (s : State) (c : Nat) : (State.restoreSeat s c).core = s.core := by
  simp only [State.restoreSeat]
  repeat' split
  all_goals simp

@[simp] theorem State.regainSeats_core (s : State) (c fuel : Nat) : (s.regainSeats c fuel).core = s.core := by
  induction fuel generalizing s with
  | zero => rfl
  | succ fuel ih =>
    simp only [State.regainSeats]
    repeat' split
    all_goals simp [ih]

@[simp] theorem State.moveSeat_core (s : State) (e f : Nat) : (State.moveSeat s e f).core = s.core := by rfl

@[simp] theorem State.repin_core (s : State) : (State.repin s).core = s.core := by rfl

@[simp] theorem State.gotoSlot_core (s : State) (c i : Nat) : (State.gotoSlot s c i).core = s.core := by
  unfold State.gotoSlot
  split <;> simp

@[simp] theorem State.takeForTest_core (s : State) (c : Nat) : (State.takeForTest s c).core = s.core := by
  simp only [State.takeForTest]
  repeat' split
  all_goals simp

@[simp] theorem State.stopBist_core (s : State) (c : Nat) : (State.stopBist s c).core = s.core := by rfl

@[simp] theorem State.wakeCluster_core (s : State) (c : Nat) : (State.wakeCluster s c).core = s.core := by
  simp [State.wakeCluster]

@[simp] theorem State.applyOrder_core (s : State) (c : Nat) (o : Order) : (State.applyOrder s c o).core = s.core := by
  unfold State.applyOrder
  split <;> simp

@[simp] theorem State.sendOrder_core (s : State) (o : Order) (m : BitVec 16) : (s.sendOrder o m).core = s.core := by
  simp only [State.sendOrder]
  split <;> simp [core_foldl]

@[simp] theorem State.writeSnaps_le {c : Core} {s : State} (h : c.Le s.core) (n : Nat) : c.Le (s.writeSnaps n).core :=
  State.yardWrite_le h _ _

@[simp] theorem State.snapshot_le {c : Core} {s : State} (h : c.Le s.core) (m : BitVec 16) : c.Le (s.snapshot m).core := by
  unfold State.snapshot
  split
  · exact h
  · exact core_le_foldl (fun _ n hu => State.writeSnaps_le hu n) _ (by rw [State.core_mk]; exact h)

@[simp] theorem State.detach_core (s : State) (e : Nat) : (State.detach s e).core = s.core := by rfl

@[simp] theorem State.clearEngine_core (s : State) (e : Nat) (n : Ending) : (State.clearEngine s e n).core = s.core := by
  simp [State.clearEngine]

@[simp] theorem State.resetCluster_core (s : State) (c : Nat) : (State.resetCluster s c).core = s.core := by
  simp [State.resetCluster, core_foldl]

@[simp] theorem State.orderReset_core (s : State) (c : Nat) : (State.orderReset s c).core = s.core := by
  simp [State.orderReset]

@[simp] theorem State.meterC0_core (s : State) (fn sq u : Nat) : (State.meterC0 s fn sq u).core = s.core := by
  simp [State.meterC0]

/-- Every state that the checks of a START leave has the core `c`. -/
def StartRes.HasCore (c : Core) : StartRes → Prop
  | .refuse _ u => u.core = c
  | .wait u => u.core = c
  | .go _ u => u.core = c
  | .undef => True

theorem judgeFirst_core (v1 : Bool) (cls : Nat) (w : List Byte) (s : State) : (judgeFirst v1 cls w s).HasCore s.core := by
  unfold judgeFirst
  repeat' split
  all_goals trivial

theorem State.firstWord_core (s : State) (q : Sq) (cls : Nat) (e : Sqe) (first : Rd) : (s.firstWord q cls e first).HasCore s.core := by
  simp only [State.firstWord]
  split
  · exact judgeFirst_core ..
  · split
    · exact judgeFirst_core ..
    · split
      · split <;> split
        · exact s.reportBad_core ..
        · exact judgeFirst_core ..
        · exact s.reportBad_core ..
        · exact judgeFirst_core ..
      · split
        · rfl
        · split
          · exact judgeFirst_core ..
          · rfl

@[simp] theorem State.leaveStage_core (s : State) (n k : Nat) (e : Staged) : (State.leaveStage s n k e).core = s.core := by rfl

@[simp] theorem State.refuseStart_core (s : State) (n k cls : Nat) (e : Staged) (b : Ending) : (State.refuseStart s n k cls e b).core = s.core := by
  simp [State.refuseStart]

@[simp] theorem State.placeOn_core (s : State) (g n k cls : Nat) (q : Sq) (e : Staged) (h : Option Hdr) : (State.placeOn s g n k cls q e h).core = s.core := by
  simp [State.placeOn]

@[simp] theorem State.seatStart_core (s : State) (n k : Nat) (x : Crew) (q : Sq) (e : Staged) (h : Option Hdr) : (State.seatStart s n k x q e h).core = s.core := by
  unfold State.seatStart
  split <;> simp

theorem State.checkStart_core (s : State) (x : Crew) (q : Sq) (e : Staged) (first : Rd) : (s.checkStart x q e first).HasCore s.core := by
  have judged := s.firstWord_core q x.cls e.sqe first
  unfold State.checkStart
  split
  · rfl
  · split
    · rfl
    · split
      · rfl
      · split
        next h u hu =>
          rw [hu] at judged
          repeat' split
          all_goals exact judged
        next => exact judged

@[simp] theorem State.retest_core (s : State) (n : Nat) : (State.retest s n).core = s.core := by
  simp only [State.retest]
  repeat' split
  all_goals simp

@[simp] theorem State.seatFreed_core (s : State) (sq k : Nat) (x : Crew) (q : Sq) (e : Staged) : (State.seatFreed s sq k x q e).core = s.core := by
  simp [State.seatFreed, core_foldl]

@[simp] theorem State.flEval_core (s : State) : (State.flEval s).core = s.core := by
  simp [State.flEval]

@[simp] theorem State.ifDurable_core (s : State) (g i : Nat) : (State.ifDurable s g i).core = s.core := by
  simp only [State.ifDurable]
  repeat' split
  all_goals simp

@[simp] theorem State.locateRec_core (s : State) (st seq n : Nat) (ps : List (Nat × Nat × Nat)) : (State.locateRec s st seq n ps).core = s.core := by rfl

@[simp] theorem State.locateUnit_core (s : State) (r u : Nat) (order : Option Nat) (n : Nat) (ps : List (Nat × Nat × Nat)) : (State.locateUnit s r u order n ps).core = s.core := by rfl

@[simp] theorem State.mediaFull_core (s : State) (k : SegKind) : (State.mediaFull s k).core = s.core := by
  simp [State.mediaFull]

@[simp] theorem State.notFull_core (s : State) (k : SegKind) : (State.notFull s k).core = s.core := by rfl

theorem State.drainMapping_core {s t : State} {h : Group} {i r off m : Nat} {data : List Byte} (ht : s.drainMapping h i r off data m = some t) :
    t.core = s.core := by
  unfold State.drainMapping at ht
  split at ht
  next x g u hx hu =>
    cases ht
    rw [core_foldl (fun _ _ => by simp), State.ensureSeg_core hu]
  next => cases ht

@[simp] theorem State.drainRegion_core (s : State) (h : Group) (i : Nat) (w : GWrite) (r off : Nat) (data : List Byte) :
    (s.drainRegion h i w r off data).2.core = s.core := by
  simp only [State.drainRegion]
  split
  · simp
  · split
    · simp
    · simp only [State.journal_core, State.updWrite_core, State.notFull_core]
      refine (core_foldl_snd (fun x k => ?_) _ (0, s)).trans rfl
      split
      · rfl
      · split
        next t ht => exact State.drainMapping_core ht
        next => rfl

@[simp] theorem State.drainRecord_core (s : State) (h : Group) (i : Nat) (w : GWrite) (st seq : Nat) (bs : List Byte) :
    (s.drainRecord h i w st seq bs).2.core = s.core := by
  unfold State.drainRecord
  split
  · simp
  next g u hu =>
    have hc : u.core = s.core := by
      split at hu
      · cases hu
        rfl
      · exact State.ensureSeg_core hu
    simp [hc]

@[simp] theorem State.drain_core (s : State) (h : Group) : (s.drain h).2.core = s.core := by
  unfold State.drain
  split
  · rfl
  · split <;> simp

@[simp] theorem State.putFlRow_core (s : State) (k : Nat) (r : FlRow) : (State.putFlRow s k r).core = s.core := by rfl

@[simp] theorem State.openFlBlocks_core (s : State) (k : Nat) (x : StripeSet) : (s.openFlBlocks k x).core = s.core := by
  simp only [State.openFlBlocks, State.flEval_core, State.putFlRow_core]
  refine (core_foldl_fst (fun y l => ?_) _ _).trans rfl
  split <;> rfl

@[simp] theorem State.claimLun_core (s : State) (l id : Nat) : (State.claimLun s l id).core = s.core := by rfl

@[simp] theorem State.flPage_core (s : State) (k l id : Nat) (j : PageJob) : (State.flPage s k l id j).core = s.core := by rfl

@[simp] theorem State.nextFlRow_core (s : State) (k : Nat) (x : StripeSet) : (s.nextFlRow k x).core = s.core := by
  simp only [State.nextFlRow]
  repeat' split
  all_goals simp [core_foldl]

theorem State.flParity_core {s t : State} {k : Nat} {x : StripeSet} (h : s.flParity k x = some t) : t.core = s.core := by
  simp only [State.flParity] at h
  repeat' split at h
  all_goals cases h
  all_goals simp

@[simp] theorem State.flParity_getD_core (s : State) (k : Nat) (x : StripeSet) : ((s.flParity k x).getD s).core = s.core := by
  cases h : s.flParity k x with
  | none => rfl
  | some t => exact State.flParity_core h

@[simp] theorem State.flTake_core (s : State) (h : Group) (r : FlRow) (id : Nat) (place : Nat × Nat × Nat) (p : Nat × Nat × Nat) : (State.flTake s h r id place p).core = s.core := by
  unfold State.flTake
  split <;> simp

theorem State.flWrite_core {s t : State} {h : Group} (ht : s.flWrite h = some t) : t.core = s.core := by
  unfold State.flWrite at ht
  split at ht
  · cases ht
  · split at ht
    · cases ht
    · cases ht
      simp [core_foldl]

@[simp] theorem State.pagePassed_core (s : State) (id : Nat) (ws : List (Nat × Nat)) : (State.pagePassed s id ws).core = s.core := by
  simp [State.pagePassed, core_foldl]

@[simp] theorem State.parityPassed_core (s : State) (seg row : Nat) : (State.parityPassed s seg row).core = s.core := by rfl

@[simp] theorem State.taskJobDone_core (s : State) (id : Nat) : (State.taskJobDone s id).core = s.core := by rfl

@[simp] theorem State.dropJob_core (s : State) (id : Nat) : (State.dropJob s id).core = s.core := by rfl

@[simp] theorem State.kickQuench_core (s : State) (l : Nat) : (State.kickQuench s l).core = s.core := by
  simp only [State.kickQuench]
  repeat' split
  all_goals simp

@[simp] theorem State.unitDone_core (s : State) (u : Nat) (pass : Bool) : (State.unitDone s u pass).core = s.core := by
  simp [State.unitDone]

@[simp] theorem State.jobPassed_core (s : State) (id : Nat) (j : PageJob) : (State.jobPassed s id j).core = s.core := by
  simp [State.jobPassed]

@[simp] theorem State.writeAgain_core (s : State) (w : Nat × Nat) : (State.writeAgain s w).core = s.core := by
  simp only [State.writeAgain]
  repeat' split
  all_goals simp

@[simp] theorem State.movePlace_core (s : State) (ws : List (Nat × Nat)) (a b : Nat × Nat × Nat) (n : Nat) : (s.movePlace ws a b n).core = s.core := by
  refine core_foldl (fun u w => ?_) _ _
  repeat' split
  all_goals rfl

theorem State.flAgain_core {s t : State} {id : Nat} {j : PageJob} (ht : s.flAgain id j = some t) : t.core = s.core := by
  unfold State.flAgain at ht
  repeat' split at ht
  all_goals cases ht
  all_goals simp [core_foldl]

theorem State.flParities_core {s t : State} (ht : s.flParities = some t) : t.core = s.core := by
  unfold State.flParities at ht
  split at ht
  next u hu =>
    cases ht
    obtain ⟨p, -, hp⟩ := List.exists_of_findSome?_eq_some hu
    exact State.flParity_core hp
  next =>
    obtain ⟨p, -, hp⟩ := Option.bind_eq_some_iff.mp ht
    exact State.flAgain_core hp

@[simp] theorem State.jobFailed_core (s : State) (id : Nat) (j : PageJob) : (s.jobFailed id j).core = s.core := by
  have again {t u : State} {id : Nat} {j : PageJob} (h : t.flAgain id j = some u) := State.flAgain_core h
  simp only [State.jobFailed]
  split
  · simp
  · split
    · simp
    · split
      · split
        next r h => exact (State.journalPage_core h).trans (by simp)
        next => simp
      · split
        · simp only [State.flEval_core]
          split
          next u h => simp [State.flAgain_core h]
          next => split <;> simp [core_foldl]
        · simp

@[simp] theorem State.underDone_core (s : State) (l : Nat) : (State.underDone s l).core = s.core := by
  simp only [State.underDone]
  split <;> simp

@[simp] theorem State.releaseLun_core (s : State) (l id : Nat) : (State.releaseLun s l id).core = s.core := by
  simp [State.releaseLun]

@[simp] theorem State.lifeCheck_core (s : State) : (State.lifeCheck s).core = s.core := by
  simp [State.lifeCheck]

@[simp] theorem State.eraseDone_core (s : State) (l b : Nat) (pslc pass : Bool) : (State.eraseDone s l b pslc pass).core = s.core := by
  unfold State.eraseDone
  split <;> simp

@[simp] theorem State.closeFlRow_core (s : State) (k : Nat) (x : StripeSet) : (s.closeFlRow k x).core = s.core := by
  simp only [State.closeFlRow, State.flParity_getD_core]
  refine core_foldl (fun u l => ?_) _ _
  split <;> simp

@[simp] theorem State.boundMiss_core (s : State) (detail fn n : Nat) : (State.boundMiss s detail fn n).core = s.core := by
  simp [State.boundMiss, core_foldl]

@[simp] theorem State.hideSeg_core (s : State) (st g : Nat) : (State.hideSeg s st g).core = s.core := by rfl

@[simp] theorem State.retainLoop_core (st fuel : Nat) (s : State) : (State.retainLoop st fuel s).core = s.core := by
  induction fuel generalizing s with
  | zero => rfl
  | succ fuel ih =>
    simp only [State.retainLoop]
    repeat' split
    all_goals simp [ih]

end Sys2Proof.Machine

/-! SUPPORT. What the functions of the movers and of the data words leave of the core. -/
namespace Sys2Proof.Machine

/-! ### The turns of a slot -/

/-- A turn that is taken leaves the core. -/
def Turn.KeepsCore (f : Turn) : Prop := ∀ s t, f s = some t → t.core = s.core

theorem firstTurn_core {l : List Turn} (h : ∀ f ∈ l, Turn.KeepsCore f) (s : State) : (firstTurn l s).core = s.core := by
  induction l with
  | nil => rfl
  | cons f l ih =>
    unfold firstTurn
    split
    next t ht => exact h f (by simp) s t ht
    next => exact ih fun g hg => h g (by simp [hg])

/-- A turn that applies a core-keeping operation to the job it finds. -/
theorem Turn.KeepsCore.of_map {α : Type} {o : State → Option α} {f : State → α → State} (h : ∀ s a, (f s a).core = s.core) :
    Turn.KeepsCore (fun s => (o s).map (f s)) := by
  intro s t ht
  obtain ⟨a, -, rfl⟩ := Option.map_eq_some_iff.mp ht
  exact h s a
@[simp] theorem State.relearn_core (s : State) (l : Nat) : (State.relearn s l).core = s.core := by
  simp [State.relearn]

@[simp] theorem State.readDone_core (s : State) (id : Nat) (j : PageJob) : (State.readDone s id j).core = s.core := by
  simp [State.readDone]

@[simp] theorem State.putJob_core (s : State) (id : Nat) (j : PageJob) : (State.putJob s id j).core = s.core := by rfl

@[simp] theorem State.suspendLun_core (s : State) (l : Nat) : (State.suspendLun s l).core = s.core := by rfl

@[simp] theorem State.busUnit_core (s : State) (id : Nat) (j : PageJob) : (State.busUnit s id j).core = s.core := by
  simp [State.busUnit]

@[simp] theorem State.resumeLun_core (s : State) (l : Nat) : (State.resumeLun s l).core = s.core := by rfl

theorem State.drainC0_core {s t : State} {h : Group} (ht : s.drainC0 h = some t) : t.core = s.core := by
  unfold State.drainC0 at ht
  split at ht
  · split at ht
    · cases ht
      simp
    · exact State.flWrite_core ht
  · cases ht

@[simp] theorem State.drainUnitOf_core (s : State) (h : Group) : (s.drainUnitOf h).2.core = s.core := s.drain_core h

theorem drainFrom_core (fuel : Nat) (l : List Group) : Turn.KeepsCore (drainFrom fuel l) := by
  induction fuel generalizing l with
  | zero => exact fun _ _ h => nomatch h
  | succ fuel ih =>
    intro s t ht
    unfold drainFrom at ht
    split at ht
    · cases ht
    · split at ht
      next u hu =>
        cases ht
        split at hu
        · exact State.drainC0_core hu
        · cases hu
          simp
      next => exact ih _ s t ht

theorem drainC0Turn_core : Turn.KeepsCore drainC0Turn := by
  intro s t ht
  unfold drainC0Turn at ht
  split at ht
  next u hu =>
    cases ht
    exact State.flParities_core hu
  next =>
    obtain ⟨h, -, hh⟩ := List.exists_of_findSome?_eq_some ht
    exact State.drainC0_core hh

theorem drainCreditTurn_core : Turn.KeepsCore drainCreditTurn := by
  intro s t ht
  simp only [drainCreditTurn] at ht
  split at ht
  · cases ht
  · obtain ⟨h, -, rfl⟩ := Option.map_eq_some_iff.mp ht
    simp

theorem busCredit_core (t : Nat) : Turn.KeepsCore (busCredit t) := by
  intro s u hu
  simp only [busCredit] at hu
  split at hu
  · cases hu
  · obtain ⟨h, -, rfl⟩ := Option.map_eq_some_iff.mp hu
    simp

theorem slotTurns_core (t o : Nat) (above : Bool) : ∀ f ∈ slotTurns t o above, Turn.KeepsCore f := by
  have c0 : Turn.KeepsCore (if t = 16 then drainC0Turn else busC0 t) := by
    split
    · exact drainC0Turn_core
    · exact Turn.KeepsCore.of_map fun s p => by simp
  have c1 : Turn.KeepsCore (if t = 16 then drainC1Turn else busC1 t) := by
    split <;> exact Turn.KeepsCore.of_map fun s p => by simp
  have credit : Turn.KeepsCore (if t = 16 then drainCreditTurn else busCredit t) := by
    split
    · exact drainCreditTurn_core
    · exact busCredit_core t
  have anneal : Turn.KeepsCore (if t = 16 then fun _ => none else busAnneal t) := by
    split
    · exact fun _ _ h => nomatch h
    · exact Turn.KeepsCore.of_map fun s p => by simp
  have oldest : Turn.KeepsCore (if t = 16 then drainOldestTurn else busOldest t) := by
    split
    · exact fun s u h => drainFrom_core _ _ s u h
    · exact Turn.KeepsCore.of_map fun s p => by simp
  simp only [slotTurns]
  generalize (if t = 16 then drainC0Turn else busC0 t) = f0 at *
  generalize (if t = 16 then drainC1Turn else busC1 t) = f1 at *
  generalize (if t = 16 then drainCreditTurn else busCredit t) = f2 at *
  generalize (if t = 16 then fun _ => none else busAnneal t) = f3 at *
  generalize (if t = 16 then drainOldestTurn else busOldest t) = f4 at *
  repeat' split
  all_goals simp [c0, c1, credit, anneal, oldest]

@[simp] theorem State.reportFull_core (s : State) : s.reportFull.core = s.core := by
  refine core_foldl (fun u h => ?_) _ _
  repeat' split
  all_goals simp

@[simp] theorem firstTurn_slotTurns_core (t o : Nat) (above : Bool) (s : State) : (firstTurn (slotTurns t o above) s).core = s.core :=
  firstTurn_core (slotTurns_core t o above) s

@[simp] theorem State.startSlot_core (s : State) (t k start : Nat) : (s.startSlot t k start).core = s.core := by
  simp only [State.startSlot]
  repeat' split
  all_goals simp

@[simp] theorem State.starve_core (s : State) (arb r : Nat) : (State.starve s arb r).core = s.core := by
  simp only [State.starve]
  repeat' split
  all_goals simp

@[simp] theorem State.starveCheck_core (s : State) (arb : Nat) : (State.starveCheck s arb).core = s.core := by
  simp [State.starveCheck, core_foldl]

@[simp] theorem State.refill_core (s : State) : (State.refill s).core = s.core := by rfl

@[simp] theorem State.swapAnswers_core (s : State) : s.swapAnswers.core = s.core := by
  simp only [State.swapAnswers]
  split
  · rfl
  · simp [core_foldl]

@[simp] theorem State.startFrame_core (s : State) (f : Nat) : (State.startFrame s f).core = s.core := by
  simp [State.startFrame, core_foldl]

@[simp] theorem State.freeHolds_core (s : State) (kind unit : Nat) : (State.freeHolds s kind unit).core = s.core := by rfl

@[simp] theorem State.driveCheckpoint_core (s : State) (area : Tbl Nat) (gen : Nat) : (State.driveCheckpoint s area gen).core = s.core := by
  simp [State.driveCheckpoint, core_foldl]

@[simp] theorem State.writeCheckpoint_core (s : State) (mark : Bool) (quench : Nat) : (State.writeCheckpoint s mark quench).core = s.core := by
  simp [State.writeCheckpoint]

@[simp] theorem State.checkpointNow_core (s : State) : (State.checkpointNow s).core = s.core := by
  simp [State.checkpointNow]

@[simp] theorem State.tornCheckpoint_core (s : State) (reset : Bool) : (State.tornCheckpoint s reset).core = s.core := by
  unfold State.tornCheckpoint
  split <;> simp

@[simp] theorem State.setTask_core (s : State) (x : Option Task) : (State.setTask s x).core = s.core := by rfl

@[simp] theorem State.askTask_core (s : State) (t : Task) (on : Option Nat → Nat × Nat × Nat → Bool) : (s.askTask t on).core = s.core := by
  simp [State.askTask]

@[simp] theorem State.annealFill_core (s : State) (n pos : Nat) (bs : List Byte) : (s.annealFill n pos bs).2.core = s.core := by
  simp [State.annealFill]

theorem State.copyRec_core {pick : SegKind → Nat → State → Option (Nat × State)} (hp : ∀ k n s m t, pick k n s = some (m, t) → t.core = s.core)
    (x : Task × State) (k : Nat × Nat) : (State.copyRec pick x k).2.core = x.2.core := by
  simp only [State.copyRec]
  split
  · rfl
  · split
    · simp
    next n t h => simp [hp _ _ _ _ _ h]

theorem State.copyMapping_core {pick : SegKind → Nat → State → Option (Nat × State)} (hp : ∀ k n s m t, pick k n s = some (m, t) → t.core = s.core)
    (x : Task × State) (k : Nat × Nat) : (State.copyMapping pick x k).2.core = x.2.core := by
  simp only [State.copyMapping]
  split
  next r n t _ h =>
    rw [core_foldl_snd (fun x u => by simp)]
    exact hp _ _ _ _ _ h
  · simp
  · rfl

theorem State.writeTask_core {pick : SegKind → Nat → State → Option (Nat × State)} (hp : ∀ k n s m t, pick k n s = some (m, t) → t.core = s.core)
    (s : State) (t : Task) (on : Option Nat → Nat × Nat × Nat → Bool) : (s.writeTask t on pick).2.core = s.core := by
  simp only [State.writeTask]
  rw [core_foldl_snd (State.copyMapping_core hp), core_foldl_snd (State.copyRec_core hp)]

@[simp] theorem State.logTask_core (s : State) (t : Task) : (s.logTask t).core = s.core := by
  simp only [State.logTask]
  split
  next u h => simp [State.journalPage_core h]
  next => simp

@[simp] theorem State.applyMoves_core (s : State) (t : Task) : (s.applyMoves t).core = s.core := by
  simp [State.applyMoves, core_foldl]

@[simp] theorem State.foldUnit_core (s : State) (t : Task) : (s.foldUnit t).core = s.core := by
  simp only [State.foldUnit]
  split
  · simp
  · split
    · simp
    · split
      · simp
      · simp only [State.setTask_core]
        exact State.writeTask_core (fun _ _ _ _ _ h => State.ensureSeg_core h) ..
      · simp
      · split <;> simp

theorem State.moveTarget_core {s t : State} {g : Segment} {hot : Bool} {n : Nat} (h : s.moveTarget g hot = some (n, t)) : t.core = s.core := by
  unfold State.moveTarget at h
  repeat' split at h
  · cases h
    exact State.openSegAt_core ..
  · cases h
  · cases h
  · exact State.openSeg_core h

@[simp] theorem State.replaceSeg_core (s : State) (a b : Nat) : (State.replaceSeg s a b).core = s.core := by rfl

@[simp] theorem State.moveUnit_core (s : State) (t : Task) : (s.moveUnit t).core = s.core := by
  simp only [State.moveUnit]
  split
  · simp
  · split
    · repeat' split
      all_goals simp
    · split
      · simp
      · split
        · simp
        next n u h =>
          have hu := State.moveTarget_core h
          simp only [State.setTask_core, State.updSeg_core, State.padRowFor_core]
          refine (State.writeTask_core (fun k n v m w hw => ?_) ..).trans hu
          cases hw
          rfl
    · simp
    · repeat' split
      all_goals simp

@[simp] theorem State.moveFl_core (s : State) (t : Task) : (State.moveFl s t).core = s.core := by
  simp only [State.moveFl]
  repeat' split
  all_goals simp

@[simp] theorem State.scrubUnit_core (s : State) (t : Task) : (s.scrubUnit t).core = s.core := by
  simp only [State.scrubUnit]
  repeat' split
  all_goals simp

@[simp] theorem State.taskUnit_core (s : State) (t : Task) : (State.taskUnit s t).core = s.core := by
  unfold State.taskUnit
  split <;> simp

@[simp] theorem State.startTask_core (s : State) (t : Task) : (State.startTask s t).core = s.core := by
  simp [State.startTask]

@[simp] theorem State.sampleBank_core (s : State) (v : Nat) : (State.sampleBank s v).core = s.core := by rfl

@[simp] theorem State.judgeCharges_core (s : State) : s.judgeCharges.core = s.core := by
  refine core_foldl (fun u c => ?_) _ _
  split
  · split <;> simp
  · rfl

@[simp] theorem State.relimit_core (s : State) : (State.relimit s).core = s.core := by
  simp [State.relimit]

@[simp] theorem State.pulseLine_core (s : State) (high : Bool) : (State.pulseLine s high).core = s.core := by rfl

@[simp] theorem State.beginPulse_core (s : State) (v : Nat) (test : Bool) : (State.beginPulse s v test).core = s.core := by rfl

@[simp] theorem State.failPulse_core (s : State) (cause : Nat) : (State.failPulse s cause).core = s.core := by
  simp [State.failPulse]

@[simp] theorem State.dropPulse_core (s : State) : (State.dropPulse s).core = s.core := by
  simp [State.dropPulse]

@[simp] theorem State.setArmed_core (s : State) : (State.setArmed s).core = s.core := by rfl

@[simp] theorem State.disarm_core (s : State) (bad : List Nat) : (State.disarm s bad).core = s.core := by
  simp [State.disarm, core_foldl]

@[simp] theorem State.loadMovers_core (s : State) (all : Bool) : (State.loadMovers s all).core = s.core := by
  simp [State.loadMovers, core_foldl]

@[simp] theorem State.mvRead_core (s : State) (sp : Nat) (a : W64) (n : Nat) (ext : List Byte) : (s.mvRead sp a n ext).2.2.core = s.core := by
  simp only [State.mvRead]
  repeat' split
  all_goals simp

@[simp] theorem State.mvWrite_le {c : Core} {s : State} (h : c.Le s.core) (sp : Nat) (a : W64) (mid : Nat) (bs : List Byte) :
    c.Le (s.mvWrite sp a mid bs).core := by
  unfold State.mvWrite
  repeat' split
  all_goals simp [h]

@[simp] theorem State.mvMoveBytes_le {c : Core} {s : State} (h : c.Le s.core) (d : Desc) (a b : W64) (n : Nat) (x : Xfer) :
    c.Le (s.mvMoveBytes d a b n x).2.2.core := by
  simp [State.mvMoveBytes, h]

@[simp] theorem State.bytesDone_core (s : State) (m ch : Nat) (d : Desc) : (State.bytesDone s m ch d).core = s.core := by
  simp [State.bytesDone]

@[simp] theorem State.descMove_le {c : Core} {s : State} (h : c.Le s.core) (m ch : Nat) (d : Desc) (x : Xfer) : c.Le (s.descMove m ch d x).core := by
  simp only [State.descMove]
  repeat' split
  all_goals simp [h]

@[simp] theorem State.mgpTransfer_core (s : State) (ch n : Nat) : (State.mgpTransfer s ch n).core = s.core := by
  unfold State.mgpTransfer
  split <;> simp

@[simp] theorem State.hashTransfer_core (s : State) (n : Nat) : (State.hashTransfer s n).core = s.core := by
  simp [State.hashTransfer]

@[simp] theorem State.prgStop_core (s : State) (m st : Nat) : (State.prgStop s m st).core = s.core := by
  simp [State.prgStop]

@[simp] theorem State.prgGo_core (s : State) (m t : Nat) : (State.prgGo s m t).core = s.core := by
  simp [State.prgGo]

@[simp] theorem State.prgNext_core (s : State) (m : Nat) : (State.prgNext s m).core = s.core := by
  simp [State.prgNext]

@[simp] theorem State.updUnit_core (s : State) (u : Nat) (f : QUnit → QUnit) : (State.updUnit s u f).core = s.core := by rfl

@[simp] theorem State.prgWaitEnd_core (s : State) (m out alt : Nat) : (State.prgWaitEnd s m out alt).core = s.core := by
  simp [State.prgWaitEnd]

theorem State.prgEvent_core {s t : State} {m : Nat} {w : MvWait} {nor : Bool} (h : s.prgEvent m w nor = some t) : t.core = s.core := by
  simp only [State.prgEvent] at h
  split at h
  · split at h
    · cases h
      simp
    · split at h <;> cases h
      simp
  · split at h
    next hd =>
      cases h
      simp [State.takeDreq_core hd]
    next => cases h
  all_goals
    split at h <;> cases h
    simp

@[simp] theorem State.programUnit_core (s : State) (u : Nat) : (s.programUnit u).core = s.core := by
  simp only [State.programUnit]
  repeat' split
  all_goals simp

@[simp] theorem State.passUnits_core (s : State) (m : Nat) : (State.passUnits s m).core = s.core := by
  unfold State.passUnits
  split <;> simp

@[simp] theorem State.beginXfr_core (s : State) (e : Nat) (x : Xfr) : (State.beginXfr s e x).core = s.core := by rfl

theorem State.goOn_le {c : Core} {go : Prog → Xfr → Ccw → State → State} (hg : ∀ p x w u, c.Le u.core → c.Le (go p x w u).core) {s : State}
    (h : c.Le s.core) (e : Nat) : c.Le (s.goOn e go).core := by
  unfold State.goOn
  repeat' split
  all_goals simp [h, hg]

theorem State.grab_core {s t : State} {e : Nat} {p : Prog} {w : Ccw} (h : s.grab e p w = some t) : t.core = s.core := by
  simp only [State.grab] at h
  split at h
  · cases h
  next mc u hu =>
    cases h
    simpa using State.seize_core hu

theorem State.carry_le {c : Core} {f : Prog → State → State} (hf : ∀ p u, c.Le u.core → c.Le (f p u).core) {s : State} (h : c.Le s.core) (e : Nat) (w : Ccw) :
    c.Le (s.carry e w f).core := by
  unfold State.carry
  split
  · exact h
  · split
    · split
      · exact hf _ _ h
      · exact h
    · split
      · exact h
      next t ht =>
        have hc : c.Le t.core := h.of_eq (State.grab_core ht)
        repeat' split
        all_goals simp [hc, hf]

@[simp] theorem State.endData_core (m : Moved) (e ops : Nat) (mismatch : Bool) (dev : Byte) (fin : Prog → Prog) :
    (State.endData m e ops mismatch dev fin).core = m.st.core := by
  simp only [State.endData]
  repeat' split
  all_goals simp

@[simp] theorem State.wordProgress_core (m : Moved) (e : Nat) (p : Prog) (total ops : Nat) (short mismatch : Bool) (dev : Byte) (fin : Prog → Prog) :
    (State.wordProgress m e p total ops short mismatch dev fin).core = m.st.core := by
  simp only [State.wordProgress]
  repeat' split
  all_goals simp

@[simp] theorem State.deliverTo_le {c : Core} {s : State} (h : c.Le s.core) (e : Nat) (p : Prog) (ps : List Piece) (bs : List Byte) (drp : Bool) (x : Xfer) :
    c.Le (s.deliverTo e p ps bs drp x).st.core := by
  simp only [State.deliverTo]
  split <;> split <;> simp [h]

@[simp] theorem State.deliverNext_le {c : Core} {s : State} (h : c.Le s.core) (e : Nat) (p : Prog) (w : Ccw) (ops : Nat) (mismatch : Bool) (x : Xfer)
    (fin : Prog → Prog) : c.Le (s.deliverNext e p w ops mismatch x fin).core := by
  simp [State.deliverNext, h]

@[simp] theorem State.collect_core (s : State) (e : Nat) (ps : List Piece) (remote : Bool) (x : Xfer) : (s.collect e ps remote x).st.core = s.core := by
  simp only [State.collect]
  split <;> simp

@[simp] theorem State.collectNext_core (s : State) (e : Nat) (p : Prog) (remote : Bool) (x : Xfer) : (s.collectNext e p remote x).st.core = s.core := by
  simp [State.collectNext]

@[simp] theorem Got.blur_core (g : Got) (b : Bool) : (g.blur b).st.core = g.st.core := by
  unfold Got.blur
  split <;> simp

@[simp] theorem State.rawJob_core (s : State) (e : Nat) (p : Prog) (a : W64) (write : Bool) : (State.rawJob s e p a write).core = s.core := by rfl

@[simp] theorem State.rawMove_le {c : Core} {s : State} (h : c.Le s.core) (e : Nat) (p : Prog) (x : Xfr) (w : Ccw) (y : Xfer) :
    c.Le (s.rawMove e p x w y).core := by
  simp only [State.rawMove]
  split
  · split
    · simp [h]
    · exact State.carry_le (fun q u hu => by simp [hu]) h e w
  · split
    · simp [h]
    · refine State.carry_le (fun q u hu => ?_) h e w
      repeat' split
      all_goals simp [hu]

@[simp] theorem State.memMove_le {c : Core} {s : State} (h : c.Le s.core) (e : Nat) (w : Ccw) (x : Xfer) : c.Le (s.memMove e w x).core := by
  refine State.carry_le (fun p u hu => ?_) h e w
  split <;> simp [hu]

@[simp] theorem State.beginRead_core (s : State) (e : Nat) (p : Prog) (w : Ccw) : (s.beginRead e p w).core = s.core := by
  simp only [State.beginRead]
  repeat' split
  all_goals simp

@[simp] theorem State.streamNext_le {c : Core} {s : State} (h : c.Le s.core) (e : Nat) (y : Xfr) (w : Ccw) (x : Xfer) : c.Le (s.streamNext e y w x).core :=
  State.carry_le (fun _ _ hu => by simp [hu]) h e w

@[simp] theorem State.beginRegionRead_core (s : State) (e : Nat) (p : Prog) (w : Ccw) : (s.beginRegionRead e p w).core = s.core := by
  simp only [State.beginRegionRead]
  repeat' split
  all_goals simp

@[simp] theorem State.regionNext_le {c : Core} {s : State} (h : c.Le s.core) (e : Nat) (y : Xfr) (w : Ccw) (x : Xfer) : c.Le (s.regionNext e y w x).core :=
  State.carry_le (fun _ _ hu => by simp [hu]) h e w

@[simp] theorem State.vaultNext_le {c : Core} {s : State} (h : c.Le s.core) (e : Nat) (y : Xfr) (w : Ccw) (x : Xfer) : c.Le (s.vaultNext e y w x).core :=
  State.carry_le (fun _ _ hu => by simp [hu]) h e w

@[simp] theorem State.fillNext_le {c : Core} {s : State} (h : c.Le s.core) (e : Nat) (w : Ccw) (x : Xfer) : c.Le (s.fillNext e w x).core :=
  State.carry_le (fun _ _ hu => by simp [hu]) h e w

@[simp] theorem State.bindWrite_core (s : State) (t : Target) (g : Nat) (data : List Byte) : (s.bindWrite t g data).2.core = s.core := by
  simp only [State.bindWrite]
  repeat' split
  all_goals simp

@[simp] theorem Got.fill_core (g : Got) (n : Nat) : (g.fill n).st.core = g.st.core := by
  unfold Got.fill
  split <;> simp

@[simp] theorem State.grantPersist_core (s : State) (e : Nat) : (s.grantPersist e).core = s.core := by
  simp only [State.grantPersist]
  split
  · rfl
  · split
    · split
      · simp
      · split <;> simp
    · rfl

@[simp] theorem State.beginPersist_core (s : State) (e : Nat) : (s.beginPersist e).core = s.core := by
  simp only [State.beginPersist]
  repeat' split
  all_goals simp

@[simp] theorem State.fillWrite_core (s : State) (g : Nat) (d : List Byte) : (State.fillWrite s g d).core = s.core := by rfl

@[simp] theorem State.persistNext_le {c : Core} {s : State} (h : c.Le s.core) (e : Nat) (w : Ccw) (y : Xfer) : c.Le (s.persistNext e w y).core := by
  refine State.carry_le (fun p u hu => ?_) h e w
  simp only [State.wordProgress_core]
  split <;> simp [hu]

@[simp] theorem State.finishSync_core (s : State) (e : Nat) : (State.finishSync s e).core = s.core := by
  simp [State.finishSync]

@[simp] theorem State.stopWord_core (s : State) (e : Nat) (p : Prog) (n : Ending) : (State.stopWord s e p n).core = s.core := by
  simp [State.stopWord]

end Sys2Proof.Machine

/-! SUPPORT. What the functions of the ports and the clock leave of the core. -/
namespace Sys2Proof.Machine

@[simp] theorem State.sidebandSend_core (s : State) (port : Nat) (reply : List Byte) (data : Option (List Byte)) : (State.sidebandSend s port reply data).core = s.core := by
  simp only [State.sidebandSend]
  repeat' split
  all_goals simp

@[simp] theorem State.sidebandRead_core (s : State) (port : Nat) (wire : List Byte) : (s.sidebandRead port wire).core = s.core := by
  simp only [State.sidebandRead]
  repeat' split
  all_goals simp

@[simp] theorem State.updI2c_core (s : State) (n : Nat) (f : I2c → I2c) : (State.updI2c s n f).core = s.core := by rfl

@[simp] theorem State.fldEvent_core (s : State) (code num : Nat) (info : W64) : (State.fldEvent s code num info).core = s.core := by
  simp [State.fldEvent]

@[simp] theorem State.lpcEvent_core (s : State) (code num : Nat) (info : W64) : (State.lpcEvent s code num info).core = s.core := by
  simp [State.lpcEvent]

@[simp] theorem State.fpLink_core (s : State) (p : Nat) (up : Bool) : (State.fpLink s p up).core = s.core := by
  simp [State.fpLink]

@[simp] theorem State.xtAssert_core (s : State) (n : Nat) : (State.xtAssert s n).core = s.core := by rfl

@[simp] theorem State.xtTryRelease_core (s : State) (n : Nat) : (State.xtTryRelease s n).core = s.core := by
  simp [State.xtTryRelease]

@[simp] theorem State.xtStartCycle_core (s : State) (n : Nat) : (State.xtStartCycle s n).core = s.core := by rfl

@[simp] theorem State.xtWriteError_core (s : State) (n : Nat) : (State.xtWriteError s n).core = s.core := by rfl

@[simp] theorem State.ringAdvance_core (s : State) (n burst : Nat) : (State.ringAdvance s n burst).core = s.core := by rfl

@[simp] theorem State.gpioWrite_core (s : State) (mask v : W32) : (State.gpioWrite s mask v).core = s.core := by rfl

@[simp] theorem State.evalGuarantee_core (s : State) : (State.evalGuarantee s).core = s.core := by
  simp [State.evalGuarantee]

@[simp] theorem State.fenceEngine_core (s : State) (e : Nat) (moves : Bool) : (State.fenceEngine s e moves).core = s.core := by
  simp only [State.fenceEngine]
  repeat' split
  all_goals simp

@[simp] theorem State.fenceCluster_core (s : State) (c : Nat) : (s.fenceCluster c).core = s.core := by
  simp [State.fenceCluster, core_foldl]

@[simp] theorem State.reissue_core (s : State) (m c : Nat) : (State.reissue s m c).core = s.core := by
  unfold State.reissue
  split <;> simp

@[simp] theorem State.fenceMover_core (s : State) (m : Nat) : (State.fenceMover s m).core = s.core := by
  simp [State.fenceMover, core_foldl]

@[simp] theorem State.rewrite_core (s : State) (p : GWrite → Bool) : (State.rewrite s p).core = s.core := by
  simp [State.rewrite, core_foldl]

@[simp] theorem State.dropJobs_core (s : State) (p : PageJob → Bool) : (State.dropJobs s p).core = s.core := by
  simp [State.dropJobs, core_foldl]

@[simp] theorem State.redoRows_core (s : State) (k : Nat) : (s.redoRows k).core = s.core := by
  simp only [State.redoRows]
  split <;> simp [core_foldl]

@[simp] theorem State.loseSet_core (s : State) (x : StripeSet) (l : Nat) : (State.loseSet s x l).core = s.core := by
  simp [State.loseSet, core_foldl]

@[simp] theorem State.giveUpJob_core (s : State) (id : Nat) (j : PageJob) : (s.giveUpJob id j).core = s.core := by
  simp only [State.giveUpJob]
  repeat' split
  all_goals simp [core_foldl]

@[simp] theorem State.abandonLun_core (s : State) (l : Nat) : (State.abandonLun s l).core = s.core := by
  simp [State.abandonLun, core_foldl]

@[simp] theorem State.disposeLun_core (s : State) (l : Nat) : (State.disposeLun s l).core = s.core := by
  simp [State.disposeLun, core_foldl]

@[simp] theorem State.fenceLun_core (s : State) (l : Nat) : (State.fenceLun s l).core = s.core := by
  simp [State.fenceLun]

@[simp] theorem State.fenceChan_core (s : State) (n : Nat) : (State.fenceChan s n).core = s.core := by
  simp [State.fenceChan, core_foldl]

@[simp] theorem State.fenceFn_core (s : State) (fn : Nat) : (State.fenceFn s fn).core = s.core := by
  simp [State.fenceFn, core_foldl]

@[simp] theorem State.fencePort_core (s : State) (p : Nat) : (State.fencePort s p).core = s.core := by
  simp [State.fencePort]

@[simp] theorem State.enterSafe_core (s : State) : s.enterSafe.core = s.core := by
  simp only [State.enterSafe]
  split
  · rfl
  · simp [core_foldl]

@[simp] theorem State.settleUpdate_core (s : State) : (State.settleUpdate s).core = s.core := by
  simp [State.settleUpdate]

@[simp] theorem State.reroll_core (s : State) : (State.reroll s).core = s.core := by
  simp [State.reroll]

@[simp] theorem State.undoEffect_core (s : State) (p : Packet) : (s.undoEffect p).core = s.core := by
  simp only [State.undoEffect]
  repeat' split
  all_goals simp [core_foldl]

@[simp] theorem State.undoCmd_core (s : State) (p : Packet) : (State.undoCmd s p).core = s.core := by
  unfold State.undoCmd
  split <;> simp

@[simp] theorem State.fenceBy_core (s : State) (r cls kind unit : Nat) : (s.fenceBy r cls kind unit).core = s.core := by
  unfold State.fenceBy
  repeat' split
  all_goals simp

@[simp] theorem State.react_core (s : State) (r cls kind unit : Nat) : (s.react r cls kind unit).core = s.core := by
  simp [State.react]

@[simp] theorem State.afterFence_core (s : State) : (State.afterFence s).core = s.core := by
  simp [State.afterFence]

@[simp] theorem State.maskVec_core (s : State) (fn vec : Nat) (m : Bool) : (State.maskVec s fn vec m).core = s.core := by
  simp [State.maskVec]

@[simp] theorem State.linkEnd_core (s : State) (x : Nat × Nat) : (State.linkEnd s x).core = s.core := by
  unfold State.linkEnd
  split <;> simp

@[simp] theorem State.linkLost_core (s : State) (port : Nat) : (State.linkLost s port).core = s.core := by
  simp [State.linkLost, core_foldl]

@[simp] theorem State.gptpStates_core (s : State) : (State.gptpStates s).core = s.core := by rfl

@[simp] theorem State.gptpRelay_core (s : State) (p kind : Nat) : (State.gptpRelay s p kind).core = s.core := by
  simp [State.gptpRelay, core_foldl]

@[simp] theorem State.xtFault_core (s : State) (n a : Nat) : (State.xtFault s n a).core = s.core := by
  simp [State.xtFault]

@[simp] theorem State.takeRecord_core (s : State) (n : Nat) (st : Stream) (d : List Byte) : (State.takeRecord s n st d).core = s.core := by rfl

@[simp] theorem State.writePages_le {c : Core} {s : State} (h : c.Le s.core) (ps : List Nat) (bs : List Byte) : c.Le (s.writePages ps bs).core := by
  induction ps generalizing s bs with
  | nil => exact h
  | cons p t ih => exact ih (State.yardWrite_le h _ _) _

@[simp] theorem State.pinWindow_le {c : Core} {s : State} (h : c.Le s.core) (n : Nat) (bs : List Byte) : c.Le (s.pinWindow n bs).core := by
  simp [State.pinWindow, h]

@[simp] theorem State.pinError_core (s : State) (n : Nat) : (s.pinError n).core = s.core := by
  simp [State.pinError]

@[simp] theorem State.logFault_core (s : State) (e : List Byte) : (State.logFault s e).core = s.core := by rfl

@[simp] theorem State.countSource_core (s : State) (c : Nat) : (State.countSource s c).core = s.core := by rfl

@[simp] theorem State.latchFirst_le {c : Core} {s : State} (h : c.Le s.core) (r : Report) (reaction : Nat) : c.Le (s.latchFirst r reaction).core := by
  simp only [State.latchFirst]
  split
  · simp [h]
  · rw [State.core_mk, State.core_eta]
    exact State.snapshot_le (by simp [h]) _

@[simp] theorem State.restartMgp_core (s : State) : (State.restartMgp s).core = s.core := by
  simp [State.restartMgp]

@[simp] theorem State.mgpReady_core (s : State) : (State.mgpReady s).core = s.core := by
  simp [State.mgpReady, core_foldl]

@[simp] theorem State.mgpTick_core (s : State) : (State.mgpTick s).core = s.core := by
  unfold State.mgpTick
  split <;> simp

@[simp] theorem State.runReaction_core (s : State) (r : Report) (reaction : Nat) : (s.runReaction r reaction).core = s.core := by
  simp [State.runReaction]

@[simp] theorem State.openWindow_core (s : State) : (State.openWindow s).core = s.core := by rfl

@[simp] theorem State.collectOne_le {c : Core} {s : State} (h : c.Le s.core) (r : Report) : c.Le (s.collectOne r).core := by
  simp only [State.collectOne]
  split
  · simp [h]
  · simp [h]

@[simp] theorem State.collectAll_le {c : Core} {s : State} (h : c.Le s.core) : c.Le s.collectAll.core :=
  core_le_foldl (fun _ r hu => State.collectOne_le hu r) _ (by simpa using h)

@[simp] theorem State.reportHeld_core (s : State) (r : Report) : (State.reportHeld s r).core = s.core := by
  simp [State.reportHeld]

@[simp] theorem State.takeExt_core (s : State) (x : ExtReport) : (State.takeExt s x).core = s.core := by
  simp [State.takeExt]

@[simp] theorem State.latchLine_core (s : State) (e : Nat) : (State.latchLine s e).core = s.core := by rfl

@[simp] theorem State.closeWindow_core (s : State) : s.closeWindow.core = s.core := by
  simp [State.closeWindow, core_foldl]

@[simp] theorem State.silent_core (s : State) (e : Nat) : (State.silent s e).core = s.core := by
  simp [State.silent]

@[simp] theorem State.mgpSource_le {c : Core} {s : State} (h : c.Le s.core) (cls : Nat) : c.Le (s.mgpSource cls).core := by
  simp [State.mgpSource, h]

@[simp] theorem State.loseLanding_core (s : State) : s.loseLanding.core = s.core := by
  simp only [State.loseLanding]
  repeat' split
  all_goals simp

@[simp] theorem State.scrubFixed_core (s : State) (a : Nat) : (State.scrubFixed s a).core = s.core := by
  simp [State.scrubFixed]

@[simp] theorem State.scrubBad_core (s : State) (a : Nat) : (State.scrubBad s a).core = s.core := by
  simp [State.scrubBad]

@[simp] theorem State.idle_le {c : Core} {s : State} (h : c.Le s.core) : Core.Le { c with tick := c.tick + 1 } s.idle.core := by
  simp [State.idle, h]

@[simp] theorem State.stopEngines_core (s : State) : (State.stopEngines s).core = s.core := by rfl

@[simp] theorem State.stopPorts_core (s : State) : s.stopPorts.core = s.core := by
  simp [State.stopPorts, core_foldl]

@[simp] theorem State.stopMovers_core (s : State) : (State.stopMovers s).core = s.core := by rfl

@[simp] theorem State.startQuenchPrograms_core (s : State) : (State.startQuenchPrograms s).core = s.core := by rfl

@[simp] theorem State.dropCopies_core (s : State) : (State.dropCopies s).core = s.core := by
  simp [State.dropCopies, core_foldl]

@[simp] theorem State.closeAt_core (s : State) (seg : Nat) : (State.closeAt s seg).core = s.core := by
  simp [State.closeAt]

@[simp] theorem State.quenchLun_core (s : State) (l : Nat) : (State.quenchLun s l).core = s.core := by
  simp only [State.quenchLun]
  repeat' split
  all_goals simp

@[simp] theorem State.keepJobs_core (s : State) : (State.keepJobs s).core = s.core := by rfl

@[simp] theorem State.stopNand_core (s : State) (reset : Bool) : (s.stopNand reset).core = s.core := by
  simp [State.stopNand, core_foldl]

@[simp] theorem State.assignUnits_core (s : State) (m : Manifest) : (State.assignUnits s m).core = s.core := by
  simp [State.assignUnits, core_foldl]

@[simp] theorem State.endSequence_core (s : State) (done : Bool) : (State.endSequence s done).core = s.core := by rfl

@[simp] theorem State.powerLoss_core (s : State) (pfail trip commanded : Bool) : (s.powerLoss pfail trip commanded).core = s.core := by
  simp only [State.powerLoss]
  split <;> simp [core_foldl]

@[simp] theorem State.indexUnit_core (s : State) (g : Group) (r u : Nat) (data : List Byte) (ps : List (Nat × Nat × Nat)) : (State.indexUnit s g r u data ps).core = s.core := by rfl

@[simp] theorem State.indexWrite_core (s : State) (g : Group) (w : GWrite) (o : Nat) : (State.indexWrite s g w o).core = s.core := by
  simp only [State.indexWrite]
  repeat' split
  all_goals simp [core_foldl]

@[simp] theorem State.indexGroup_core (s : State) (g : Group) : (s.indexGroup g).core = s.core :=
  (core_foldl_fst (fun x w => x.1.indexWrite_core g w x.2) _ _).trans rfl

@[simp] theorem State.recoverWrite_core (s : State) (g : Group) (w : GWrite) : (State.recoverWrite s g w).core = s.core := by
  simp only [State.recoverWrite]
  split <;> simp [core_foldl]

@[simp] theorem State.takeQuenchBlocks_core (s : State) (ps : List (Nat × Nat × Nat)) : (s.takeQuenchBlocks ps).core = s.core := by
  simp [State.takeQuenchBlocks, core_foldl]

@[simp] theorem State.indexQuench_core (s : State) : (State.indexQuench s).core = s.core := by
  simp [State.indexQuench, core_foldl]

/-- A device reset empties the Yard, and keeps what waits and what is written once (R403, R442). -/
@[simp] theorem State.afterReset_le {c : Core} {s : State} (h : c.Le s.core) : c.Le s.afterReset.core :=
  h.trans ⟨rfl, Otp.Le.refl _, fun _ => rfl, rfl⟩

@[simp] theorem State.restoreMc_core (s : State) : (State.restoreMc s).core = s.core := by rfl

@[simp] theorem State.reconcile_le {c : Core} {s : State} (h : c.Le s.core) : c.Le s.reconcile.core :=
  h.trans ⟨rfl, { Otp.Le.refl s.otp with fuses := Nat.le_max_left _ _ }, id, rfl⟩

@[simp] theorem State.raiseFloor_core (s : State) (n : Nat) : (State.raiseFloor s n).core = s.core := by rfl

@[simp] theorem State.enterBoot_le {c : Core} {s : State} (h : c.Le s.core) (bit : Nat) : c.Le (s.enterBoot bit).core := by
  simp only [State.enterBoot, State.core_mk, State.core_eta]
  exact State.reconcile_le (State.afterReset_le (by simp [h]))

@[simp] theorem State.putSeal_core (r : Seal) (s : State) (pl : Nat × Nat × Nat) : (State.putSeal r s pl).core = s.core := by
  simp [State.putSeal]

@[simp] theorem State.writeSeal_core (s : State) : (State.writeSeal s).core = s.core := by
  simp [State.writeSeal, core_foldl]

@[simp] theorem State.sealQuench_core (s : State) (t0 : Nat) (r : Seal) : (State.sealQuench s t0 r).core = s.core := by
  simp [State.sealQuench]

@[simp] theorem State.sampleSupply_core (s : State) (pfailHigh : Bool) (v : Nat) : (State.sampleSupply s pfailHigh v).core = s.core := by rfl

@[simp] theorem State.loseBackup_core (s : State) : (State.loseBackup s).core = s.core := by rfl

@[simp] theorem State.dark_le {c : Core} {s : State} (h : c.Le s.core) (m : Mode) : c.Le (s.dark m).core := by
  simp [State.dark, h]

end Sys2Proof.Machine

/-! SUPPORT. What the functions of registers, modes, updates and packets leave of the core. -/
namespace Sys2Proof.Machine

/-! ### Register writes -/

/-- The state that a register write leaves has the core `c`. -/
def WRes.HasCore (c : Core) (r : WRes) : Prop := ∀ t, r = some t → t.core = c

@[simp] theorem WRes.hasCore_some (c : Core) (t : State) : WRes.HasCore c (some t) ↔ t.core = c :=
  ⟨fun h => h t rfl, fun h _ ht => Option.some.inj ht ▸ h⟩

@[simp] theorem WRes.hasCore_none (c : Core) : WRes.HasCore c none := fun _ h => nomatch h

@[simp] theorem okIf_core {c : Core} {s : State} (h : s.core = c) (bad : Bool) : WRes.HasCore c (okIf bad s) := by
  unfold okIf
  split <;> simp [h]

@[simp] theorem WRes.hasCore_ite {c : Core} {p : Prop} [Decidable p] {a b : WRes} (ha : WRes.HasCore c a) (hb : WRes.HasCore c b) :
    WRes.HasCore c (if p then a else b) := by
  split <;> assumption

@[simp] theorem rwl_core {c : Core} {s : State} {r : WRes} (h : s.core = c) (hr : WRes.HasCore c r) : WRes.HasCore c (rwl s r) := by
  unfold rwl
  split <;> simp [h, hr]
@[simp] theorem State.regTop_core (s : State) (o : Nat) (v : W32) : WRes.HasCore s.core (State.regTop s o v) := by
  simp only [State.regTop]
  repeat' split
  all_goals simp

@[simp] theorem State.regHpc_core (s : State) (o : Nat) (v : W32) : WRes.HasCore s.core (State.regHpc s o v) := by
  simp only [State.regHpc]
  repeat' split
  all_goals simp

@[simp] theorem State.regQe_core (s : State) (fn o : Nat) (v : W32) : WRes.HasCore s.core (State.regQe s fn o v) := by
  simp only [State.regQe]
  repeat' split
  all_goals simp

@[simp] theorem State.regEng_core (s : State) (mid o : Nat) (v : W32) : WRes.HasCore s.core (State.regEng s mid o v) := by
  simp only [State.regEng]
  repeat' split
  all_goals simp

@[simp] theorem State.regPfu_core (s : State) (o : Nat) (v : W32) : WRes.HasCore s.core (State.regPfu s o v) := by
  simp only [State.regPfu]
  repeat' split
  all_goals simp

@[simp] theorem State.regMv_core (s : State) (mid o : Nat) (v : W32) : WRes.HasCore s.core (State.regMv s mid o v) := by
  simp only [State.regMv]
  repeat' split
  all_goals simp

@[simp] theorem State.regSch_core (s : State) (mid o : Nat) (v : W32) : WRes.HasCore s.core (State.regSch s mid o v) := by
  simp only [State.regSch]
  repeat' split
  all_goals simp

@[simp] theorem State.regCpl_core (s : State) (mid o : Nat) (v : W32) : WRes.HasCore s.core (State.regCpl s mid o v) := by
  simp only [State.regCpl]
  repeat' split
  all_goals simp

@[simp] theorem State.regFc_core (s : State) (o : Nat) (v : W32) : WRes.HasCore s.core (State.regFc s o v) := by
  simp only [State.regFc]
  repeat' split
  all_goals simp

@[simp] theorem State.regEcx_core (s : State) (o : Nat) (v : W32) : WRes.HasCore s.core (State.regEcx s o v) := by
  simp only [State.regEcx]
  repeat' split
  all_goals simp

@[simp] theorem State.regMm_core (s : State) (o : Nat) (v : W32) : WRes.HasCore s.core (State.regMm s o v) := by
  unfold State.regMm
  repeat' apply WRes.hasCore_ite
  all_goals simp

@[simp] theorem State.regLq_core (s : State) (o : Nat) (v : W32) : WRes.HasCore s.core (State.regLq s o v) := by
  simp only [State.regLq]
  repeat' split
  all_goals simp

@[simp] theorem State.regPsv_core (s : State) (o : Nat) (v : W32) : WRes.HasCore s.core (State.regPsv s o v) := by
  unfold State.regPsv
  repeat' apply WRes.hasCore_ite
  all_goals simp

@[simp] theorem State.holdLo_core (s : State) (mid off : Nat) (v : W32) : (State.holdLo s mid off v).core = s.core := by rfl

@[simp] theorem State.regTmr_core (s : State) (mid o : Nat) (v : W32) : WRes.HasCore s.core (State.regTmr s mid o v) := by
  simp only [State.regTmr]
  repeat' split
  all_goals simp

@[simp] theorem State.regMbx_core (s : State) (o : Nat) (v : W32) : WRes.HasCore s.core (State.regMbx s o v) := by
  simp only [State.regMbx]
  repeat' split
  all_goals simp

@[simp] theorem State.regFcs_core (s : State) (o : Nat) (v : W32) : WRes.HasCore s.core (State.regFcs s o v) := by
  simp only [State.regFcs]
  repeat' split
  all_goals simp

@[simp] theorem State.regFld_core (s : State) (o : Nat) (v : W32) : WRes.HasCore s.core (State.regFld s o v) := by
  simp only [State.regFld]
  repeat' split
  all_goals simp

@[simp] theorem State.bindDreq_core (s : State) (n : Nat) (v : W32) : (State.bindDreq s n v).core = s.core := by
  simp [State.bindDreq]

@[simp] theorem State.regLpc_core (s : State) (mid o : Nat) (v : W32) : WRes.HasCore s.core (State.regLpc s mid o v) := by
  unfold State.regLpc
  repeat' apply WRes.hasCore_ite
  all_goals simp

@[simp] theorem State.regBar0_core (s : State) (mid off : Nat) (v : W32) : WRes.HasCore s.core (State.regBar0 s mid off v) := by
  simp only [State.regBar0]
  repeat' split
  all_goals simp

@[simp] theorem State.regWindow_core (s : State) (mid off : Nat) (v : W32) : (State.regWindow s mid off v).core = s.core := by
  simp only [State.regWindow]
  repeat' split
  all_goals simp

@[simp] theorem State.regMsix_core (s : State) (fn off : Nat) (v : W32) : (State.regMsix s fn off v).core = s.core := by
  unfold State.regMsix
  split <;> simp

@[simp] theorem State.flushMsix_core (s : State) (fn : Nat) : (State.flushMsix s fn).core = s.core := by
  simp [State.flushMsix, core_foldl]

@[simp] theorem State.regConfig_core (s : State) (fn off : Nat) (v : W32) : (State.regConfig s fn off v).core = s.core := by
  simp [State.regConfig]

@[simp] theorem State.noteVerify_core (s : State) (kind code pair : Nat) : (State.noteVerify s kind code pair).core = s.core := by rfl

@[simp] theorem State.tryImage_core (s : State) (x : Option NorImage) : (s.tryImage x).2.core = s.core := by
  simp only [State.tryImage]
  repeat' split
  all_goals simp

@[simp] theorem State.noteNors_core (s : State) (xh0 xh1 : Option NorImage) : (State.noteNors s xh0 xh1).core = s.core := by rfl

@[simp] theorem State.bootFrom_core (s : State) (xh1 : Bool) (x : NorImage) : (State.bootFrom s xh1 x).core = s.core := by
  simp [State.bootFrom]

/-- A locked-register write reaches no more of the core than the register itself does (R416). -/
theorem State.rwlWrite_core (s : State) (off : Nat) (v : W32) : WRes.HasCore s.core (s.rwlWrite off v) := by
  intro t ht
  obtain ⟨u, hu, rfl⟩ := Option.map_eq_some_iff.mp ht
  have hc := State.regBar0_core _ _ _ _ u hu
  simp only [State.core, Core.mk.injEq] at hc ⊢
  obtain ⟨hp, -, hm, ht⟩ := hc
  exact ⟨hp, trivial, hm, ht⟩

@[simp] theorem State.rwlWrite_getD_core (s : State) (off : Nat) (v : W32) : ((s.rwlWrite off v).getD s).core = s.core := by
  cases h : s.rwlWrite off v with
  | none => rfl
  | some t => exact s.rwlWrite_core off v t h

theorem State.writeRwl_core {c : Core} (l : List (Nat × W32)) {s : State} (h : s.core = c) : WRes.HasCore c (s.writeRwl l) := by
  induction l generalizing s with
  | nil => simpa [State.writeRwl] using h
  | cons x l ih =>
    intro t ht
    simp only [State.writeRwl] at ht
    split at ht
    · obtain ⟨u, hu, ht⟩ := Option.bind_eq_some_iff.mp ht
      exact ih ((s.rwlWrite_core _ _ u hu).trans h) t ht
    · exact ih h t ht

@[simp] theorem State.bindEntry_core (s : State) (x : List Byte) : (State.bindEntry s x).core = s.core := by
  simp [State.bindEntry]

@[simp] theorem State.bindTable_core (s : State) (b : List Byte) : (State.bindTable s b).core = s.core := by
  simp [State.bindTable, core_foldl]

@[simp] theorem State.probeChan_core (s : State) (n : Nat) (ts ls : List Nat) : (s.probeChan n ts ls).core = s.core := by
  simp [State.probeChan, core_foldl]

@[simp] theorem State.trainChan_core (s : State) (n iface rate fails : Nat) : (State.trainChan s n iface rate fails).core = s.core := by
  simp [State.trainChan]

@[simp] theorem State.bringUp_core (luns : List (Nat × List Byte)) (failed : List Nat) (s : State) (n : Nat) : (State.bringUp luns failed s n).core = s.core := by
  simp only [State.bringUp]
  repeat' split
  all_goals simp [core_foldl]

@[simp] theorem State.copyImage_core (s : State) : (State.copyImage s).core = s.core := by
  simp [State.copyImage]

@[simp] theorem State.loadMicrocode_core (s : State) : s.loadMicrocode.core = s.core := by
  simp [State.loadMicrocode, core_foldl]

/-- A Load clears the Yard (R21). -/
@[simp] theorem State.loadImage_le {c : Core} {s : State} (h : c.Le s.core) : c.Le s.loadImage.core := by
  have hl : c.Le s.loadMicrocode.core := by simpa using h
  have cleared : c.Le ⟨s.loadMicrocode.pending, s.loadMicrocode.otp, [], s.loadMicrocode.tick⟩ :=
    hl.trans ⟨rfl, Otp.Le.refl _, fun _ => rfl, rfl⟩
  simpa [State.loadImage, Yard.reset] using cleared

@[simp] theorem State.finishLoad_le {c : Core} {s : State} (h : c.Le s.core) (luns : List (Nat × List Byte)) (failed : List Nat) :
    c.Le (s.finishLoad luns failed).core := by
  simp [State.finishLoad, core_foldl, h]

@[simp] theorem State.dropLost_core (s : State) (lost : List (Nat × Nat)) : (State.dropLost s lost).core = s.core := by rfl

@[simp] theorem State.blankCheck_core (s : State) (x : Nat × Nat) : (s.blankCheck x).core = s.core := by
  simp only [State.blankCheck]
  split <;> simp

@[simp] theorem State.enterService_core (s : State) : (State.enterService s).core = s.core := by
  simp [State.enterService, core_foldl]

@[simp] theorem State.updateEvent_core (s : State) (code num info : Nat) : (State.updateEvent s code num info).core = s.core := by
  simp [State.updateEvent, core_foldl]

@[simp] theorem State.endUpdate_core (s : State) (cause : Nat) : (State.endUpdate s cause).core = s.core := by
  simp [State.endUpdate]

@[simp] theorem State.closeCommit_core (s : State) : (State.closeCommit s).core = s.core := by
  simp [State.closeCommit]

@[simp] theorem State.endUpdateAtReset_core (s : State) : (State.endUpdateAtReset s).core = s.core := by
  simp [State.endUpdateAtReset]

@[simp] theorem State.sweepSeg_core (s : State) (x : Nat × Segment) : (State.sweepSeg s x).core = s.core := by
  simp [State.sweepSeg, core_foldl]

@[simp] theorem State.verifySweep_core (s : State) (weak : List Nat) : (State.verifySweep s weak).core = s.core := by
  simp [State.verifySweep, core_foldl]

@[simp] theorem State.queueFolds_core (s : State) : (State.queueFolds s).core = s.core := by
  simp [State.queueFolds, core_foldl]

@[simp] theorem State.closeFlRows_core (s : State) : s.closeFlRows.core = s.core := by
  simp [State.closeFlRows, core_foldl]

@[simp] theorem State.takeLoss_core (s : State) (lost : List (Nat × Nat)) (weak : List Nat) : (State.takeLoss s lost weak).core = s.core := by
  simp [State.takeLoss]

@[simp] theorem State.noteLoss_core (s before : State) (lost : List (Nat × Nat)) (manifest : Bool) : (s.noteLoss before lost manifest).core = s.core := by rfl

@[simp] theorem State.closeRebuild_core (s : State) (gen : Nat) : (s.closeRebuild gen).core = s.core := by
  have restored (u : State) (l : List (Nat × W32)) : ((u.writeRwl l).getD u).core = u.core := by
    cases h : u.writeRwl l with
    | none => rfl
    | some t => exact State.writeRwl_core l rfl t h
  simp [State.closeRebuild, restored]

@[simp] theorem State.endPrograms_core (s : State) (fn : Nat) : (State.endPrograms s fn).core = s.core := by
  simp [State.endPrograms, core_foldl]

@[simp] theorem State.deleteQueues_core (s : State) (fn : Nat) : (State.deleteQueues s fn).core = s.core := by rfl

@[simp] theorem State.abandonCommands_core (s : State) (fn : Nat) : (State.abandonCommands s fn).core = s.core := by
  simp [State.abandonCommands, core_foldl]

@[simp] theorem State.resetWindows_core (s : State) (mid : Nat) : (State.resetWindows s mid).core = s.core := by rfl

@[simp] theorem State.resetFunction_core (s : State) (fn : Nat) : (State.resetFunction s fn).core = s.core := by
  simp [State.resetFunction]

@[simp] theorem State.functionReset_core (s : State) (fn : Nat) : (State.functionReset s fn).core = s.core := by
  simp [State.functionReset]

@[simp] theorem State.hostRead_core (s : State) (mid off : Nat) : (s.hostRead mid off).2.core = s.core := by
  simp only [State.hostRead]
  repeat' split
  all_goals simp

@[simp] theorem State.updPacket_core (s : State) (no : Nat) (f : Packet → Packet) : (State.updPacket s no f).core = s.core := by rfl

@[simp] theorem State.dropPacket_core (s : State) (no : Nat) : (State.dropPacket s no).core = s.core := by rfl

@[simp] theorem State.replyTo_core (s : State) (p : Packet) (status : BitVec 16) (body out : List Byte) : (State.replyTo s p status body out).core = s.core := by
  simp [State.replyTo]

@[simp] theorem State.clearWeights_core (s : State) (k : Nat) : (State.clearWeights s k).core = s.core := by rfl

@[simp] theorem State.writeTable_core (s : State) (r : Req) : (State.writeTable s r).core = s.core := by
  simp [State.writeTable]

@[simp] theorem State.orderSwap_core (s : State) (r : Req) : (s.orderSwap r).core = s.core := by
  simp [State.orderSwap, core_foldl]

theorem State.writeRegs_core {c : Core} (mid : Nat) (l : List (Nat × W32)) {s : State} (h : s.core = c) : WRes.HasCore c (s.writeRegs mid l) := by
  induction l generalizing s with
  | nil => simpa [State.writeRegs] using h
  | cons x l ih =>
    intro t ht
    simp only [State.writeRegs] at ht
    obtain ⟨u, hu, ht⟩ := Option.bind_eq_some_iff.mp ht
    exact ih ((s.regBar0_core _ _ _ u hu).trans h) t ht

@[simp] theorem State.orderRetest_core (s : State) (c : Nat) : (s.orderRetest c).core = s.core := by
  simp [State.orderRetest, core_foldl]

@[simp] theorem State.probeLun_core (s : State) (l : Nat) : (State.probeLun s l).core = s.core := by rfl

@[simp] theorem State.recycleLun_core (s : State) (l : Nat) : (State.recycleLun s l).core = s.core := by rfl

@[simp] theorem State.rechannel_core (s : State) (n : Nat) (result : List Byte) : (s.rechannel n result).core = s.core := by
  simp [State.rechannel]

@[simp] theorem State.reinstate_core (s : State) (kind id : Nat) (result : List Byte) : (s.reinstate kind id result).core = s.core := by
  unfold State.reinstate
  repeat' split
  all_goals simp

@[simp] theorem State.afterReturn_core (s : State) : (State.afterReturn s).core = s.core := by
  simp [State.afterReturn]

@[simp] theorem State.tryPulse_core (s : State) : (State.tryPulse s).core = s.core := by
  simp [State.tryPulse]

@[simp] theorem State.leaveFor_core (s : State) (m : Mode) : (State.leaveFor s m).core = s.core := by
  simp [State.leaveFor]

@[simp] theorem State.sidebandReply_core (s : State) (port : Nat) (r : Req) (status : BitVec 16) (body out : List Byte) : (State.sidebandReply s port r status body out).core = s.core := by
  simp [State.sidebandReply]

@[simp] theorem State.drawKeys_core (s : State) (enc : Bool) : (s.drawKeys enc).2.core = s.core := by
  unfold State.drawKeys
  split <;> rfl

@[simp] theorem State.forgetWrites_core (s : State) (p : WKind → Bool) : (State.forgetWrites s p).core = s.core := by rfl

@[simp] theorem State.forgetSegs_core (s : State) (k : SegKind) : (State.forgetSegs s k).core = s.core := by
  simp [State.forgetSegs, core_foldl]

@[simp] theorem State.clearKey_core (s : State) (k : Nat) : (State.clearKey s k).core = s.core := by rfl

@[simp] theorem State.noteProbe_core (s : State) (x : LunProbe) : (State.noteProbe s x).core = s.core := by
  unfold State.noteProbe
  split <;> simp

@[simp] theorem State.putSets_core (s : State) (ks : List (Nat × List Nat)) (fast : Nat) : (State.putSets s ks fast).core = s.core := by rfl

@[simp] theorem State.shareBlocks_core (s : State) (cap : Nat) (x : LunProbe) : (s.shareBlocks cap x).core = s.core := by
  simp [State.shareBlocks, core_foldl]

@[simp] theorem State.characterise_core (s : State) (probes : List LunProbe) (fast : Nat) : (s.characterise probes fast).2.core = s.core := by
  simp [State.characterise, core_foldl]

@[simp] theorem State.takeOut_core (s : State) (c : Nat) : (State.takeOut s c).core = s.core := by rfl

@[simp] theorem State.putBack_core (s : State) (c : Nat) : (State.putBack s c).core = s.core := by rfl

@[simp] theorem State.noteReset_core (s : State) (r : Req) : (State.noteReset s r).core = s.core := by rfl

/-- The generation of the device secret advances (R405). -/
@[simp] theorem State.rotateKey_le {c : Core} {s : State} (h : c.Le s.core) : c.Le s.rotateKey.core := by
  have advanced : c.Le ⟨s.pending, { s.otp with secretGen := s.otp.secretGen + 1 }, s.yard.mem, s.tick⟩ :=
    h.trans ⟨rfl, { Otp.Le.refl s.otp with secretGen := Nat.le_succ _ }, id, rfl⟩
  simpa [State.rotateKey] using advanced

@[simp] theorem State.writeLocked_core (s : State) (off : Nat) (v : W32) : (s.writeLocked off v).core = s.core := by
  simp [State.writeLocked]

@[simp] theorem State.putVendor_core (s : State) (es : List (List Byte)) : (State.putVendor s es).core = s.core := by rfl

/-- The lock is set and the device secret made (R405, R416). -/
@[simp] theorem State.lock_le {c : Core} {s : State} (h : c.Le s.core) : c.Le s.lock.core := by
  have locked : c.Le ⟨s.pending, { s.otp with locked := true, secret := true }, s.yard.mem, s.tick⟩ :=
    h.trans ⟨rfl, { Otp.Le.refl s.otp with locked := fun _ => rfl, secret := fun _ => rfl }, id, rfl⟩
  simpa [State.lock] using locked

@[simp] theorem State.issueChallenge_core (s : State) (level : Nat) : (State.issueChallenge s level).core = s.core := by rfl

@[simp] theorem State.debugEvent_core (s : State) : (State.debugEvent s).core = s.core := by
  simp [State.debugEvent]

@[simp] theorem State.endChallenge_core (s : State) : (State.endChallenge s).core = s.core := by
  simp [State.endChallenge]

@[simp] theorem State.unlockDebug_core (s : State) (level : Nat) : (State.unlockDebug s level).core = s.core := by
  simp [State.unlockDebug]

@[simp] theorem State.updUpd_core (s : State) (f : Update → Update) : (State.updUpd s f).core = s.core := by rfl

@[simp] theorem State.beginUpdate_core (s : State) (n : Nat) : (State.beginUpdate s n).core = s.core := by
  simp [State.beginUpdate]

@[simp] theorem State.warmStart_core (s : State) (version : Nat) : (State.warmStart s version).core = s.core := by rfl

@[simp] theorem State.moveOut_core (c : Nat) (s : State) (e : Nat) : (State.moveOut c s e).core = s.core := by
  simp only [State.moveOut]
  repeat' split
  all_goals simp

@[simp] theorem State.drainCluster_core (s : State) (c : Nat) : (State.drainCluster s c).core = s.core := by
  simp [State.drainCluster, core_foldl]

@[simp] theorem State.swapCluster_core (s : State) (c minor build : Nat) : (State.swapCluster s c minor build).core = s.core := by
  simp [State.swapCluster]

@[simp] theorem State.stepEvent_core (s : State) (c : Nat) : (State.stepEvent s c).core = s.core := by
  simp [State.stepEvent]

@[simp] theorem State.writeNor_core (s : State) (n : Nat) (img : Image) : (State.writeNor s n img).core = s.core := by rfl

@[simp] theorem State.endTooNew_core (s : State) (c minor : Nat) : (s.endTooNew c minor).core = s.core := by
  refine core_foldl (fun u e => ?_) _ _
  split
  · split <;> simp
  · rfl

@[simp] theorem State.returnCluster_core (s : State) (r : Req) (c : Nat) : (State.returnCluster s r c).core = s.core := by
  simp [State.returnCluster]

@[simp] theorem State.dropProp_core (s : State) (x : Proposal) : (State.dropProp s x).core = s.core := by rfl

theorem State.portCarry_le {c : Core} {f : Prog → State → State} (hf : ∀ p u, c.Le u.core → c.Le (f p u).core) {s : State} (h : c.Le s.core) (e : Nat) (w : Ccw) :
    c.Le (s.portCarry e w f).core :=
  State.carry_le (fun p u hu => by simpa using hf p u hu) h e w

@[simp] theorem State.portDone_core (m : Moved) (e : Nat) (mismatch : Bool) (dev : Byte) : (State.portDone m e mismatch dev).core = m.st.core := by
  simp [State.portDone]

@[simp] theorem State.bindWord_core (s : State) (e n : Nat) (w : Ccw) : (State.bindWord s e n w).core = s.core := by
  unfold State.bindWord
  split <;> simp

@[simp] theorem State.portBurst_le {c : Core} {s : State} (h : c.Le s.core) (e n : Nat) (w : Ccw) (inw : Bool) (x : Xfer) :
    c.Le (s.portBurst e n w inw x).core := by
  have hu : c.Le (s.bindWord e n w).core := by simpa using h
  unfold State.portBurst
  generalize s.bindWord e n w = u at hu
  cases hp : u.prog e with
  | none => simpa [hp] using hu
  | some p =>
    simp only [hp]
    refine Core.le_core_ite hu ?_
    have moved {v : State} (hv : c.Le v.core) : c.Le ((v.ringAdvance n (boundBurst w (opLen p.op))).acknowledge n).core := by simpa using hv
    have collected (ps : List Piece) : c.Le (u.collect e ps true x).st.core := hu.of_eq (u.collect_core e ps true x)
    refine Core.le_core_ite ?_ ?_
    · rw [State.burstOver_core, State.wordProgress_core]
      exact moved (Core.le_core_ite (Core.le_core_ite (collected _) (State.scatter_le (collected _) _ _ _ _)) (State.scatter_le (collected _) _ _ _ _))
    · rw [State.wordProgress_core]
      exact moved (Core.le_core_ite (Core.le_core_ite (collected _) (State.scatter_le (collected _) _ _ _ _)) (State.scatter_le (collected _) _ _ _ _))

@[simp] theorem State.portOutFrame_le {c : Core} {s : State} (h : c.Le s.core) (e f : Nat) (w : Ccw) (x : Xfer) : c.Le (s.portOutFrame e f w x).core := by
  have sent (f : Prog → State → State) (hf : ∀ p u, c.Le u.core → c.Le (f p u).core) := State.portCarry_le hf h e w
  unfold State.portOutFrame
  refine Core.le_core_ite (by simp [h]) (Core.le_core_ite h (sent _ fun p u hu => by simp [hu]))

@[simp] theorem State.portInFrame_le {c : Core} {s : State} (h : c.Le s.core) (e f : Nat) (w : Ccw) (x : Xfer) : c.Le (s.portInFrame e f w x).core := by
  simp only [State.portInFrame]
  split
  · simp [h]
  · exact State.portCarry_le (fun p u hu => by simp [hu]) h e w

@[simp] theorem State.portInUart_le {c : Core} {s : State} (h : c.Le s.core) (e n : Nat) (w : Ccw) (x : Xfer) (gap : Bool) : c.Le (s.portInUart e n w x gap).core := by
  simp only [State.portInUart]
  split
  · exact h
  · exact State.portCarry_le (fun p u hu => by simp [hu]) h e w

@[simp] theorem State.portOutUart_le {c : Core} {s : State} (h : c.Le s.core) (e n : Nat) (w : Ccw) (x : Xfer) : c.Le (s.portOutUart e n w x).core :=
  State.portCarry_le (fun p u hu => by simp [hu]) h e w

@[simp] theorem State.portI2c_le {c : Core} {s : State} (h : c.Le s.core) (e n : Nat) (w : Ccw) (inw : Bool) (x : Xfer) : c.Le (s.portI2c e n w inw x).core := by
  refine State.portCarry_le (fun p u hu => ?_) h e w
  simp only []
  repeat' split
  all_goals simp [hu]

@[simp] theorem State.portOutGpio_le {c : Core} {s : State} (h : c.Le s.core) (e : Nat) (w : Ccw) (x : Xfer) : c.Le (s.portOutGpio e w x).core :=
  State.portCarry_le (fun p u hu => by simp [hu]) h e w

@[simp] theorem State.portInGpio_le {c : Core} {s : State} (h : c.Le s.core) (e : Nat) (w : Ccw) (x : Xfer) : c.Le (s.portInGpio e w x).core :=
  State.portCarry_le (fun p u hu => by simp [hu]) h e w

theorem State.senseData_core {s t : State} {id sel : Nat} {bs : List Byte} (h : s.senseData id sel = some (bs, t)) : t.core = s.core := by
  simp only [State.senseData] at h
  repeat' split at h
  all_goals cases h
  all_goals rfl

@[simp] theorem State.clearAttention_core (s : State) (id : Nat) : (State.clearAttention s id).core = s.core := by
  unfold State.clearAttention
  split <;> simp

end Sys2Proof.Machine

/-! SUPPORT. What the command packets leave of the core. -/
namespace Sys2Proof.Machine

/-! ## The effects of the command packets -/

@[simp] theorem Res.ok_st (s : State) : (Res.ok s).st = s := by rfl
@[simp] theorem Res.result_st (s : State) (body : List Byte) : (Res.result s body).st = s := by rfl
@[simp] theorem Res.fail_st (s : State) (st : BitVec 16) : (Res.fail s st).st = s := by rfl
@[simp] theorem Res.wait_st (s : State) : (Res.wait s).st = s := by rfl
@[simp] theorem State.entered_st (s : State) : s.entered.st = s := by rfl
@[simp] theorem State.tested_st (s : State) (pass : Bool) (result : List Byte) : (s.tested pass result).st = s := by rfl

@[simp] theorem Res.st_ite (p : Prop) [Decidable p] (x y : Res) : (if p then x else y).st = if p then x.st else y.st := by
  split <;> rfl

@[simp] theorem State.finish_core (p : Packet) (x : Res) : (State.finish p x).core = x.st.core := by
  unfold State.finish
  split <;> simp

@[simp] theorem State.timeSet_core (s : State) (a : TimeAdj) : (s.timeSet a).st.core = s.core := by rfl

@[simp] theorem State.reintegrated_core (s : State) (r : Req) (pass : Bool) (result : List Byte) : (s.reintegrated r pass result).st.core = s.core := by
  simp only [State.reintegrated]
  repeat' split
  all_goals simp

@[simp] theorem State.bankTested_core (s : State) (r : Req) : (s.bankTested r).st.core = s.core := by
  simp only [State.bankTested]
  repeat' split
  all_goals simp

@[simp] theorem State.installVault_core (s : State) (r : Req) (pass : Bool) (sig : Nat) : (s.installVault r pass sig).st.core = s.core := by
  simp only [State.installVault]
  repeat' split
  all_goals simp

@[simp] theorem State.loadProgram_le {c : Core} {s : State} (h : c.Le s.core) (r : Req) : c.Le (s.loadProgram r).st.core := by
  simp only [State.loadProgram]
  split <;> simp [h]

@[simp] theorem State.clusterTest_core (s : State) (r : Req) (pass : Bool) (result : List Byte) : (s.clusterTest r pass result).st.core = s.core := by
  simp only [State.clusterTest]
  repeat' split
  all_goals simp

@[simp] theorem State.stage_le {c : Core} {s : State} (h : c.Le s.core) (r : Req) (sig : Nat) (img : Image) : c.Le (s.stage r sig img).st.core := by
  simp only [State.stage]
  repeat' split
  all_goals simp [h]

@[simp] theorem State.stepResult_core (s : State) (n : Nat) : (s.stepResult n).st.core = s.core := by
  simp [State.stepResult]

@[simp] theorem State.updateCluster_core (s : State) (r : Req) : (s.updateCluster r).st.core = s.core := by
  simp only [State.updateCluster]
  repeat' split
  all_goals simp

@[simp] theorem State.commitUpdate_core (s : State) (r : Req) : (s.commitUpdate r).st.core = s.core := by
  simp only [State.commitUpdate]
  split <;> simp

@[simp] theorem State.abandonUpdate_core (s : State) (r : Req) : (s.abandonUpdate r).st.core = s.core := by
  simp only [State.abandonUpdate]
  split <;> simp

@[simp] theorem State.propose_core (s : State) (r : Req) : (s.propose r).st.core = s.core := by
  simp [State.propose]

@[simp] theorem Res.resolve_core (z : Res) (x : Proposal) (mid : Nat) : (z.resolve x mid).st.core = z.st.core := by
  simp [Res.resolve]

/-- A command keeps what every step keeps: in what its start does, and in its effect where its own checks have passed or it is a background
command (R350, R353). -/
structure Cmd.Keeps (c : Cmd) : Prop where
  begins (r : Req) (s : State) : s.core.Le (c.begins r s).core
  apply (r : Req) (pass : Bool) (result : List Byte) (s : State) :
    (c.long = true ∨ ∃ u : State, u.core = s.core ∧ c.check u r = none) → s.core.Le (c.apply r pass result s).st.core

/-- What both need where the checks do not matter. -/
theorem Cmd.Keeps.of_always {c : Cmd} (hb : ∀ (r : Req) (s : State), s.core.Le (c.begins r s).core)
    (ha : ∀ (r : Req) (pass : Bool) (result : List Byte) (s : State), s.core.Le (c.apply r pass result s).st.core) : c.Keeps := ⟨hb, fun r pass result s _ => ha r pass result s⟩

theorem failIf_eq_none {b : Bool} {st : BitVec 16} : failIf b st = none ↔ b = false := by
  cases b <;> simp [failIf]

theorem State.rootAt_eq (s : State) (k : Nat) : s.rootAt k = s.core.otp.rootAt k := rfl

/-- The roots after an entry is put. -/
theorem Otp.rootAt_put (o : Otp) (k : Nat) (x : Root) (j : Nat) : ({ o with roots := o.roots.put k x } : Otp).rootAt j = if j = k then x else o.rootAt j :=
  Tbl.get_put ..

theorem cmdCreateSq_keeps : cmdCreateSq.Keeps :=
  .of_always (fun _ _ => Core.Le.refl _) fun _ _ _ _ => by simp [cmdCreateSq]

theorem cmdDeleteSq_keeps : cmdDeleteSq.Keeps :=
  .of_always (fun _ _ => Core.Le.refl _) fun _ _ _ _ => by simp [cmdDeleteSq]

theorem cmdCreateCq_keeps : cmdCreateCq.Keeps :=
  .of_always (fun _ _ => Core.Le.refl _) fun _ _ _ _ => by simp [cmdCreateCq]

theorem cmdDeleteCq_keeps : cmdDeleteCq.Keeps :=
  .of_always (fun _ _ => Core.Le.refl _) fun _ _ _ _ => by simp [cmdDeleteCq]

theorem cmdCreateCrew_keeps : cmdCreateCrew.Keeps :=
  .of_always (fun _ _ => Core.Le.refl _) fun _ _ _ _ => by simp [cmdCreateCrew]

theorem cmdDeleteCrew_keeps : cmdDeleteCrew.Keeps :=
  .of_always (fun _ _ => Core.Le.refl _) fun _ _ _ _ => by simp [cmdDeleteCrew, core_foldl]

theorem cmdBindSq_keeps : cmdBindSq.Keeps :=
  .of_always (fun _ _ => Core.Le.refl _) fun _ _ _ _ => by simp [cmdBindSq]

theorem cmdSlotTableWrite_keeps : cmdSlotTableWrite.Keeps :=
  .of_always (fun _ _ => Core.Le.refl _) fun _ _ _ _ => by simp [cmdSlotTableWrite]

theorem cmdSlotTableSwap_keeps : cmdSlotTableSwap.Keeps :=
  .of_always (fun _ _ => Core.Le.refl _) fun _ _ _ _ => by simp [cmdSlotTableSwap]

theorem cmdSetWeights_keeps : cmdSetWeights.Keeps :=
  .of_always (fun _ _ => Core.Le.refl _) fun _ _ _ _ => by simp [cmdSetWeights]

theorem cmdClass0Contract_keeps : cmdClass0Contract.Keeps :=
  .of_always (fun _ _ => Core.Le.refl _) fun _ _ _ _ => by simp [cmdClass0Contract]

theorem cmdPortConfig_keeps : cmdPortConfig.Keeps := by
  refine .of_always (fun _ _ => Core.Le.refl _) fun r _ _ s => ?_
  have written : ((s.writeRegs r.mid (portWrites r)).getD s).core = s.core := by
    cases h : s.writeRegs r.mid (portWrites r) with
    | none => rfl
    | some t => exact State.writeRegs_core _ _ rfl t h
  simp [cmdPortConfig, written]

theorem cmdTimeSet_keeps : cmdTimeSet.Keeps :=
  .of_always (fun _ _ => Core.Le.refl _) fun _ _ _ _ => by simp [cmdTimeSet]

theorem cmdTimeDiscipline_keeps : cmdTimeDiscipline.Keeps :=
  .of_always (fun _ _ => Core.Le.refl _) fun _ _ _ _ => by simp [cmdTimeDiscipline]

theorem cmdIdentify_keeps : cmdIdentify.Keeps :=
  .of_always (fun _ _ => Core.Le.refl _) fun _ _ _ _ => by simp [cmdIdentify]

theorem cmdGetTelemetry_keeps : cmdGetTelemetry.Keeps :=
  .of_always (fun _ _ => Core.Le.refl _) fun _ _ _ _ => by simp [cmdGetTelemetry]

theorem cmdMediaReport_keeps : cmdMediaReport.Keeps :=
  .of_always (fun _ _ => Core.Le.refl _) fun _ _ _ _ => by simp [cmdMediaReport]

theorem cmdFaultLogRead_keeps : cmdFaultLogRead.Keeps :=
  .of_always (fun _ _ => Core.Le.refl _) fun _ _ _ _ => by simp [cmdFaultLogRead]

theorem cmdSetReaction_keeps : cmdSetReaction.Keeps :=
  .of_always (fun _ _ => Core.Le.refl _) fun _ _ _ _ => by simp [cmdSetReaction]

theorem cmdReintegrate_keeps : cmdReintegrate.Keeps :=
  .of_always (fun _ _ => by simp [cmdReintegrate]) fun _ _ _ _ => by simp [cmdReintegrate]

theorem cmdEnergyStatus_keeps : cmdEnergyStatus.Keeps :=
  .of_always (fun _ _ => Core.Le.refl _) fun _ _ _ _ => by simp [cmdEnergyStatus]

theorem cmdBankTest_keeps : cmdBankTest.Keeps :=
  .of_always (fun _ _ => by simp [cmdBankTest]) fun _ _ _ _ => by simp [cmdBankTest]

theorem cmdModeBoot_keeps : cmdModeBoot.Keeps :=
  .of_always (fun _ _ => Core.Le.refl _) fun _ _ _ _ => by simp [cmdModeBoot, modeRow]

theorem cmdModeProvision_keeps : cmdModeProvision.Keeps :=
  .of_always (fun _ _ => Core.Le.refl _) fun _ _ _ _ => by simp [cmdModeProvision, modeRow]

theorem cmdModeService_keeps : cmdModeService.Keeps :=
  .of_always (fun _ _ => Core.Le.refl _) fun _ _ _ _ => by simp [cmdModeService, modeRow]

theorem cmdModeDiagnostic_keeps : cmdModeDiagnostic.Keeps :=
  .of_always (fun _ _ => Core.Le.refl _) fun _ _ _ _ => by simp [cmdModeDiagnostic, modeRow]

theorem cmdCreateStream_keeps : cmdCreateStream.Keeps :=
  .of_always (fun _ _ => Core.Le.refl _) fun _ _ _ _ => by simp [cmdCreateStream]

theorem cmdDeleteStream_keeps : cmdDeleteStream.Keeps :=
  .of_always (fun _ _ => Core.Le.refl _) fun _ _ _ _ => by simp [cmdDeleteStream]

theorem cmdSetRetention_keeps : cmdSetRetention.Keeps :=
  .of_always (fun _ _ => Core.Le.refl _) fun _ _ _ _ => by simp [cmdSetRetention]

theorem cmdCreateRegion_keeps : cmdCreateRegion.Keeps :=
  .of_always (fun _ _ => Core.Le.refl _) fun _ _ _ _ => by simp [cmdCreateRegion]

theorem cmdDeleteRegion_keeps : cmdDeleteRegion.Keeps :=
  .of_always (fun _ _ => Core.Le.refl _) fun _ _ _ _ => by simp [cmdDeleteRegion]

theorem cmdVaultInstall_keeps : cmdVaultInstall.Keeps :=
  .of_always (fun _ _ => Core.Le.refl _) fun _ _ _ _ => by simp [cmdVaultInstall]

theorem cmdVaultActivate_keeps : cmdVaultActivate.Keeps :=
  .of_always (fun _ _ => Core.Le.refl _) fun _ _ _ _ => by simp [cmdVaultActivate, core_foldl]

theorem cmdPinWindow_keeps : cmdPinWindow.Keeps :=
  .of_always (fun _ _ => Core.Le.refl _) fun _ _ _ _ => by simp [cmdPinWindow]

theorem cmdLoadProgram_keeps : cmdLoadProgram.Keeps :=
  .of_always (fun _ _ => Core.Le.refl _) fun _ _ _ _ => by simp [cmdLoadProgram]

theorem cmdInvalidatePrograms_keeps : cmdInvalidatePrograms.Keeps :=
  .of_always (fun _ _ => Core.Le.refl _) fun _ _ _ _ => by simp [cmdInvalidatePrograms]

theorem cmdMediaCharacterise_keeps (probes : List LunProbe) (fast : Nat) : (cmdMediaCharacterise probes fast).Keeps :=
  .of_always (fun _ _ => Core.Le.refl _) fun _ _ _ _ => by simp [cmdMediaCharacterise, diagRow]

theorem cmdClusterTest_keeps : cmdClusterTest.Keeps :=
  .of_always (fun _ _ => by simp [cmdClusterTest, diagRow]) fun _ _ _ _ => by simp [cmdClusterTest, diagRow]

theorem cmdYardTest_keeps : cmdYardTest.Keeps :=
  .of_always (fun _ _ => Core.Le.refl _) fun _ _ _ _ => by simp [cmdYardTest, diagRow]

theorem cmdLunScan_keeps : cmdLunScan.Keeps :=
  .of_always (fun _ _ => Core.Le.refl _) fun _ _ _ _ => by simp [cmdLunScan, diagRow]

theorem cmdAccessRules_keeps : cmdAccessRules.Keeps :=
  .of_always (fun _ _ => Core.Le.refl _) fun _ _ _ _ => by simp [cmdAccessRules, keyItem]

theorem cmdConsentGroup_keeps : cmdConsentGroup.Keeps :=
  .of_always (fun _ _ => Core.Le.refl _) fun _ _ _ _ => by simp [cmdConsentGroup, keyItem]

/-- ROOT_HASH programs a slot that is not yet programmed (R403). -/
theorem cmdRootHash_keeps : cmdRootHash.Keeps where
  begins _ _ := Core.Le.refl _
  apply r pass result s h := by
    obtain h | ⟨u, hu, hc⟩ := h
    · cases h
    · have free : (s.rootAt (rootKey (r.b 9) (r.b 10))).programmed = false := by
        rw [State.rootAt_eq, ← hu, ← State.rootAt_eq]
        exact failIf_eq_none.mp hc
      refine ⟨rfl, { Otp.Le.refl s.otp with root := fun k hk => ?_, revoked := fun k hk => ?_ }, id, rfl⟩
      · rw [cmdRootHash, Res.ok_st, State.core, Otp.rootAt_put]
        split
        next e =>
          subst e
          exact absurd hk (by rw [show (s.core.otp.rootAt _).programmed = false from free]; decide)
        next => exact ⟨hk, rfl⟩
      · rw [cmdRootHash, Res.ok_st, State.core, Otp.rootAt_put]
        split
        next e =>
          subst e
          exact hk
        next => exact hk

theorem cmdRootRevoke_keeps : cmdRootRevoke.Keeps := by
  refine .of_always (fun _ _ => Core.Le.refl _) fun r pass result s => ?_
  refine ⟨rfl, { Otp.Le.refl s.otp with root := fun k hk => ?_, revoked := fun k hk => ?_ }, id, rfl⟩
  · rw [cmdRootRevoke, Res.ok_st, State.core, Otp.rootAt_put]
    split
    next e =>
      subst e
      exact ⟨hk, rfl⟩
    next => exact ⟨hk, rfl⟩
  · rw [cmdRootRevoke, Res.ok_st, State.core, Otp.rootAt_put]
    split
    · rfl
    · exact hk

theorem cmdDeviceKeyRotate_keeps : cmdDeviceKeyRotate.Keeps :=
  .of_always (fun _ _ => Core.Le.refl _) fun _ _ _ _ => by simp [cmdDeviceKeyRotate, keyItem]

theorem cmdRollbackFloor_keeps : cmdRollbackFloor.Keeps :=
  .of_always (fun _ _ => Core.Le.refl _) fun _ _ _ _ => by simp [cmdRollbackFloor, keyItem]

/-- VAULT_FLOOR takes no floor below the one that stands (R407). -/
theorem cmdVaultFloor_keeps : cmdVaultFloor.Keeps where
  begins _ _ := Core.Le.refl _
  apply r pass result s h := by
    obtain h | ⟨u, hu, hc⟩ := h
    · cases h
    · have above : s.otp.vaultFloors.get (r.b 9) 0 ≤ r.w 12 := by
        have ho : u.otp = s.otp := congrArg Core.otp hu
        have hn := of_decide_eq_false (failIf_eq_none.mp hc)
        rw [ho] at hn
        exact Nat.le_of_not_lt hn
      refine ⟨rfl, { Otp.Le.refl s.otp with floors := fun k => ?_ }, id, rfl⟩
      show _ ≤ Tbl.get (s.otp.vaultFloors.put (r.b 9) (r.w 12)) k 0
      rw [Tbl.get_put]
      split
      next e =>
        subst e
        exact above
      next => exact Nat.le_refl _

theorem cmdLockedWrite_keeps : cmdLockedWrite.Keeps :=
  .of_always (fun _ _ => Core.Le.refl _) fun _ _ _ _ => by simp [cmdLockedWrite, keyItem]

theorem cmdYardPartition_keeps : cmdYardPartition.Keeps :=
  .of_always (fun _ _ => Core.Le.refl _) fun _ _ _ _ => by simp [cmdYardPartition, keyItem]

theorem cmdVendorTable_keeps : cmdVendorTable.Keeps :=
  .of_always (fun _ _ => Core.Le.refl _) fun _ _ _ _ => by simp [cmdVendorTable, keyItem]

theorem cmdProvisionLock_keeps : cmdProvisionLock.Keeps :=
  .of_always (fun _ _ => Core.Le.refl _) fun _ _ _ _ => by simp [cmdProvisionLock, keyItem]

theorem cmdDebugUnlock_keeps : cmdDebugUnlock.Keeps :=
  .of_always (fun _ _ => Core.Le.refl _) fun _ _ _ _ => by simp [cmdDebugUnlock]

theorem cmdUpdateBegin_keeps : cmdUpdateBegin.Keeps :=
  .of_always (fun _ _ => Core.Le.refl _) fun _ _ _ _ => by simp [cmdUpdateBegin]

theorem cmdUpdateStage_keeps (img : Image) : (cmdUpdateStage img).Keeps :=
  .of_always (fun _ _ => Core.Le.refl _) fun _ _ _ _ => by simp [cmdUpdateStage]

theorem cmdUpdateFirmware_keeps : cmdUpdateFirmware.Keeps :=
  .of_always (fun _ _ => by simp [cmdUpdateFirmware]) fun _ _ _ _ => by simp [cmdUpdateFirmware]

theorem cmdUpdateCluster_keeps : cmdUpdateCluster.Keeps :=
  .of_always (fun _ _ => by simp [cmdUpdateCluster]) fun _ _ _ _ => by simp [cmdUpdateCluster]

theorem cmdUpdateCommit_keeps : cmdUpdateCommit.Keeps :=
  .of_always (fun _ _ => by simp [cmdUpdateCommit]) fun _ _ _ _ => by simp [cmdUpdateCommit]

theorem cmdUpdateAbandon_keeps : cmdUpdateAbandon.Keeps :=
  .of_always (fun _ _ => by simp [cmdUpdateAbandon, core_foldl]) fun _ _ _ _ => by simp [cmdUpdateAbandon]

theorem cmdPropose_keeps : cmdPropose.Keeps :=
  .of_always (fun _ _ => Core.Le.refl _) fun _ _ _ _ => by simp [cmdPropose]

theorem cmdWithdraw_keeps : cmdWithdraw.Keeps :=
  .of_always (fun _ _ => Core.Le.refl _) fun _ _ _ _ => by simp [cmdWithdraw]


/-- Every row of the catalogue that a proposal may carry keeps what a step keeps (R409). -/
theorem commandTable_keeps : ∀ c ∈ commandTable, c.Keeps := by
  simp [commandTable, cmdCreateSq_keeps, cmdDeleteSq_keeps, cmdCreateCq_keeps, cmdDeleteCq_keeps, cmdCreateCrew_keeps, cmdDeleteCrew_keeps, cmdBindSq_keeps, cmdCreateStream_keeps, cmdDeleteStream_keeps, cmdSetRetention_keeps, cmdCreateRegion_keeps, cmdDeleteRegion_keeps, cmdVaultInstall_keeps, cmdVaultActivate_keeps, cmdPinWindow_keeps, cmdLoadProgram_keeps, cmdInvalidatePrograms_keeps, cmdSlotTableWrite_keeps, cmdSlotTableSwap_keeps, cmdSetWeights_keeps, cmdClass0Contract_keeps, cmdAccessRules_keeps, cmdConsentGroup_keeps, cmdRootHash_keeps, cmdRootRevoke_keeps, cmdDeviceKeyRotate_keeps, cmdRollbackFloor_keeps, cmdVaultFloor_keeps, cmdLockedWrite_keeps, cmdYardPartition_keeps, cmdVendorTable_keeps, cmdProvisionLock_keeps, cmdDebugUnlock_keeps, cmdFaultLogRead_keeps, cmdReintegrate_keeps, cmdSetReaction_keeps, cmdEnergyStatus_keeps, cmdBankTest_keeps, cmdUpdateBegin_keeps, cmdUpdateStage_keeps, cmdUpdateFirmware_keeps, cmdUpdateCluster_keeps, cmdUpdateCommit_keeps, cmdUpdateAbandon_keeps, cmdMediaCharacterise_keeps, cmdClusterTest_keeps, cmdYardTest_keeps, cmdLunScan_keeps, cmdMediaReport_keeps, cmdPortConfig_keeps, cmdTimeSet_keeps, cmdTimeDiscipline_keeps, cmdModeBoot_keeps, cmdModeProvision_keeps, cmdModeService_keeps, cmdModeDiagnostic_keeps, cmdIdentify_keeps, cmdGetTelemetry_keeps]

theorem sidebandCmds_keeps : ∀ c ∈ sidebandCmds, c.Keeps := by
  simp [sidebandCmds, cmdIdentify_keeps, cmdGetTelemetry_keeps, cmdEnergyStatus_keeps, cmdFaultLogRead_keeps, cmdModeDiagnostic_keeps]

theorem cmdOf_keeps {r : Req} {c : Cmd} (h : cmdOf r = some c) : c.Keeps := commandTable_keeps c (List.mem_of_find?_eq_some h)

theorem sidebandRow_keeps {r : Req} {c : Cmd} (h : sidebandRow r = some c) : c.Keeps := sidebandCmds_keeps c (List.mem_of_find?_eq_some h)

theorem State.verdict_check {s : State} {c : Cmd} {r : Req} {b : Bool} (h : s.verdict c r b = none) : c.check s r = none := by
  unfold State.verdict at h
  repeat' split at h
  all_goals simp_all

theorem State.sidebandVerdict_check {s : State} {c : Cmd} {r : Req} (h : s.sidebandVerdict c r = none) : c.check s r = none := by
  unfold State.sidebandVerdict at h
  split at h
  · cases h
  · exact h

/-! ## Consent -/

/-- A proposal that a RATIFY lets go has passed its own checks (R413). -/
theorem State.ratified_go {s : State} {r : Req} {x : Proposal} {c : Cmd} (h : s.ratified r = .go x c) :
    c.Keeps ∧ c.check s (x.req r.fn r.no r.tag) = none := by
  simp only [State.ratified] at h
  split at h
  · cases h
  · split at h
    · cases h
    · split at h
      · cases h
      · split at h
        · cases h
        next hc =>
          split at h
          · cases h
          next hv =>
            split at h <;> cases h
            exact ⟨cmdOf_keeps hc, State.verdict_check hv⟩

theorem State.carryOut_le {c : Core} {s : State} (h : c.Le s.core) (r : Req) (x : Proposal) {d : Cmd} (hd : d.Keeps)
    (hc : d.check s (x.req r.fn r.no r.tag) = none) : c.Le (s.carryOut r x d).st.core := by
  simp only [State.carryOut]
  split
  · exact h.trans ((Core.Le.of_eq (Core.Le.refl _) (by simp)).trans (hd.begins _ _))
  · rw [Res.resolve_core]
    exact h.trans (hd.apply _ _ _ (s.dropProp x) (.inr ⟨s, (s.dropProp_core x).symm, hc⟩))

@[simp] theorem State.ratify_le {c : Core} {s : State} (h : c.Le s.core) (r : Req) : c.Le (s.ratify r).st.core := by
  unfold State.ratify
  split
  · split <;> simp [h]
  next x d hg =>
    split
    · exact h
    · exact State.carryOut_le h r x (State.ratified_go hg).1 (State.ratified_go hg).2

theorem cmdRatify_keeps : cmdRatify.Keeps :=
  .of_always (fun _ _ => Core.Le.refl _) fun r _ _ s => State.ratify_le (Core.Le.refl s.core) r

@[simp] theorem State.commitRatified_le {c : Core} {s : State} (h : c.Le s.core) (p : Packet) (x : Proposal) (pass : Bool) (result : List Byte) :
    c.Le (s.commitRatified p x pass result).core := by
  simp only [State.commitRatified]
  split
  · exact h
  next d hd =>
    split
    · exact h
    next hl =>
      have done := h.trans ((cmdOf_keeps hd).apply (x.req p.fn p.no (leAt p.bytes 4 4)) pass result s (.inl (by simpa using hl)))
      rw [State.finish_core]
      split
      · exact done
      · rwa [Res.resolve_core]

/-! ## Command packets -/

theorem State.startLong_le {c : Core} {s : State} (h : c.Le s.core) {d : Cmd} (hd : d.Keeps) (p : Packet) (r : Req) : c.Le (s.startLong d p r).core := by
  simp only [State.startLong]
  split
  · simp [h]
  · exact (h.of_eq (by simp)).trans (hd.begins _ _)

theorem State.commitLong_le {c : Core} {s : State} (h : c.Le s.core) {d : Cmd} (hd : d.Keeps) (hl : d.long = true) (p : Packet) (x : Rd) (pass : Bool)
    (result : List Byte) : c.Le (s.commitLong d p x pass result).core := by
  simp only [State.commitLong]
  split
  · simp [h]
  · split
    · simp [h]
    · rw [State.finish_core]
      exact h.trans (hd.apply _ _ _ _ (.inl hl))

@[simp] theorem State.newFirmware_core (s : State) (p : Packet) : (s.newFirmware p).core = s.core := by
  simp [State.newFirmware]

@[simp] theorem State.oldFirmware_core (s : State) (p : Packet) : (s.oldFirmware p).core = s.core := by
  simp [State.oldFirmware]

end Sys2Proof.Machine

/-! SUPPORT. Answers that keep the core. -/
namespace Sys2Proof.Machine

/-! ## Answers -/

/-- What an answer that goes on leaves of `c`; a stop in the specification's undefined keeps it trivially, and no command is refused. -/
def Answer.Keeps (c : Core) (a : Answer) : Prop :=
  match a with
  | .next t => c.Le t.core
  | .fault _ => True
  | .refused _ => False

namespace Answer

@[simp] theorem keeps_next (c : Core) (t : State) : Keeps c (.next t) = c.Le t.core := by rfl
@[simp] theorem keeps_fault (c : Core) (f : Fault) : Keeps c (.fault f) = True := by rfl

@[simp] theorem keeps_ite {c : Core} {p : Prop} [Decidable p] {a b : Answer} (ha : Keeps c a) (hb : Keeps c b) : Keeps c (if p then a else b) := by
  split <;> assumption

end Answer

section
open Answer
variable {c : Core} {s : State}

@[simp] theorem keeps_occurs (f : State → State) (b : Bool) : Keeps c (occurs s b f) = c.Le (if b then f s else s).core := by rfl

theorem occurs_keeps {f : State → State} {b : Bool} (h : c.Le s.core) (hf : c.Le (f s).core) : Keeps c (occurs s b f) :=
  Core.le_core_ite hf h

theorem State.atWord_keeps {e : Nat} {m : Ccw → Bool} {f : Prog → Ccw → State → Answer} (h : c.Le s.core) (hf : ∀ p w, Keeps c (f p w s)) :
    Keeps c (s.atWord e m f) := by
  unfold State.atWord
  split
  · exact h
  · split
    · exact h
    · split
      · exact h
      · exact keeps_ite (hf _ _) h

theorem State.checkedBar_keeps {e : Nat} {b : Option Bad} {bar : Bool} {f : State → State} (h : c.Le s.core) (hf : ∀ u : State, c.Le u.core → c.Le (f u).core) :
    Keeps c (s.checkedBar e b bar f) := by
  unfold State.checkedBar
  split
  · trivial
  · simpa using h
  · exact State.afterBar_le hf h e bar

theorem State.checked_keeps {e : Nat} {b : Option Bad} {f : State → State} (h : c.Le s.core) (hf : ∀ u : State, c.Le u.core → c.Le (f u).core) :
    Keeps c (s.checked e b f) := State.checkedBar_keeps h hf

theorem State.signal_keeps {e k : Nat} {undef : W64 → Bool} {access : Prog → W64 → State → Option Bad} {f : Prog → W64 → State → State} (h : c.Le s.core)
    (hf : ∀ p a (u : State), c.Le u.core → c.Le (f p a u).core) : Keeps c (s.signal e k undef access f) :=
  State.atWord_keeps h fun p w => State.checked_keeps h (hf p w.addr)

theorem State.dataWord_keeps {e : Nat} {opc : BitVec 8} {chk : Prog → Ccw → State → Option Bad} {start : Prog → Ccw → State → State}
    {go : Prog → Xfr → Ccw → State → State} (h : c.Le s.core) (hs : ∀ p w (u : State), c.Le u.core → c.Le (start p w u).core)
    (hg : ∀ p x w (u : State), c.Le u.core → c.Le (go p x w u).core) : Keeps c (s.dataWord e opc chk start go) :=
  State.atWord_keeps h fun p w =>
    keeps_ite (State.goOn_le hg h e) (State.checked_keeps h fun u hu => State.goOn_le hg (hs p w u hu) e)

theorem State.orderWord_keeps {e k : Nat} {m : Nat → Option Nat} {operand : Bool} {x : Xfer} {busy : Nat → State → Bool} {f : Nat → Ccw → State → Byte × State}
    (h : c.Le s.core) (hf : ∀ n w (u : State), c.Le u.core → c.Le (f n w u).2.core) : Keeps c (s.orderWord e k m operand x busy f) := by
  refine State.atWord_keeps h fun p w => ?_
  split
  · exact h
  next n _ =>
    refine State.checked_keeps h fun u hu => ?_
    rw [State.completeWord_core, State.updProg_core]
    split
    · exact hu
    · exact hf n w u hu

theorem State.control_keeps {n opc : Nat} {hold : Bool} {f : Nat → Prog → Staged → State → State} (h : c.Le s.core)
    (hf : ∀ e p x (u : State), c.Le u.core → c.Le (f e p x u).core) : Keeps c (s.control n opc hold f) := by
  simp only [State.control]
  split
  · exact h
  · split
    · simpa using h
    · split
      · exact hf _ _ _ _ h
      · exact h
    · trivial

theorem State.stageSq_keeps (h : c.Le s.core) (n : Nat) (bs : List Byte) : Keeps c (s.stageSq n bs) := by
  simp only [State.stageSq]
  split
  · trivial
  · exact h

/-! ## Packets -/

theorem State.takeUp_keeps {d : Cmd} (hd : d.Keeps) (h : c.Le s.core) (p : Packet) (x : Rd) : Keeps c (s.takeUp d p x) := by
  simp only [State.takeUp]
  refine keeps_ite (by simpa using h) (keeps_ite trivial ?_)
  split
  · simpa using h
  next hv =>
    refine keeps_ite (by simpa using h) (keeps_ite (by simpa using h) (keeps_ite (by simpa using h) (keeps_ite ?_ ?_)))
    · refine State.startLong_le ?_ hd p _
      exact h
    · rw [keeps_next, State.finish_core]
      exact h.trans (hd.apply _ _ _ { s with mgp := { s.mgp with rot := (p.fn + 1) % 8 } } (.inr ⟨_, rfl, State.verdict_check hv⟩))

theorem State.command_keeps {d : Cmd} (hd : d.Keeps) (h : c.Le s.core) (fn : Nat) (x : Rd) : Keeps c (s.command d fn x) := by
  unfold State.command
  split
  · exact keeps_ite (State.takeUp_keeps hd h _ _) h
  · exact h

theorem State.longCommand_keeps {d : Cmd} (hd : d.Keeps) (hl : d.long = true) (h : c.Le s.core) (fn : Nat) (x : Rd) (st : LStage) :
    Keeps c (s.longCommand d fn x st) := by
  unfold State.longCommand
  split
  · exact State.command_keeps hd h fn x
  · split
    · exact State.commitLong_le h hd hl _ _ _ _
    · exact h

theorem State.sidebandRun_keeps (h : c.Le s.core) (port : Nat) (pkt : List Byte) : Keeps c (s.sidebandRun port pkt) := by
  simp only [State.sidebandRun]
  split
  · simpa using h
  next d hd =>
    refine keeps_ite (by simpa using h) (keeps_ite trivial ?_)
    split
    · simpa using h
    next hv =>
      refine keeps_ite (by simpa using h) ?_
      rw [keeps_next, State.sidebandReply_core]
      exact h.trans ((sidebandRow_keeps hd).apply _ _ _ s (.inr ⟨s, rfl, State.sidebandVerdict_check hv⟩))

theorem State.romRun_keeps (h : c.Le s.core) (port : Nat) (pkt : List Byte) : Keeps c (s.romRun port pkt) := by
  simp only [State.romRun]
  exact keeps_ite (State.sidebandRun_keeps h port pkt) (by simpa using h)

theorem State.sidebandTick_le (h : c.Le s.core) : c.Le s.sidebandTick.core := by
  unfold State.sidebandTick
  split
  · refine core_le_foldl (fun u x hu => ?_) _ h
    split
    next t ht =>
      have k : Keeps c (({ u with mgp := { u.mgp with sideband := u.mgp.sideband.del x.1 } } : State).sidebandRun x.1 x.2.bytes) := by
        refine State.sidebandRun_keeps ?_ _ _
        exact hu
      rwa [ht] at k
    · exact hu
  · exact h

theorem State.tickStep_le (h : c.Le s.core) : Core.Le { c with tick := c.tick + 1 } s.tickStep.core := State.sidebandTick_le (State.idle_le h)

end

end Sys2Proof.Machine

/-! SUPPORT. The arms of the commands keep the core; the obligations that follow. -/
namespace Sys2Proof.Machine

@[simp] theorem execCplPush_keeps {base : Core} {s : State} (h : base.Le s.core) (mid q : Nat) (hi : W32) : Answer.Keeps base (execCplPush mid q hi s) := occurs_keeps h (by simp [h])

@[simp] theorem execCplPop_keeps {base : Core} {s : State} (h : base.Le s.core) (mid q : Nat) : Answer.Keeps base (execCplPop mid q s) := by
  have popped := State.cpPop_core s q
  simp only [execCplPop]
  refine Answer.keeps_ite h (Answer.keeps_ite (by simpa using h) ?_)
  split <;> simp_all

@[simp] theorem execCplFlush_keeps {base : Core} {s : State} (h : base.Le s.core) (mid q : Nat) : Answer.Keeps base (execCplFlush mid q s) := occurs_keeps h (by simp [h])

@[simp] theorem execCplReserveWrite_keeps {base : Core} {s : State} (h : base.Le s.core) (mid q : Nat) (v : W32) : Answer.Keeps base (execCplReserveWrite mid q v s) := occurs_keeps h (by simp [h])

@[simp] theorem execCcwFetch_keeps {base : Core} {s : State} (h : base.Le s.core) (e : Nat) (host : List (Nat × Rd)) : Answer.Keeps base (execCcwFetch e host s) := by
  simp only [execCcwFetch]
  split
  · exact h
  next p _ =>
    have fetched := State.fetchOp_core e p host 256 p.pc.toNat [] (Eq.refl s.core)
    split
    · exact h
    · split
      · exact h
      · simp_all [OpRes.HasCore]
      · simp_all [OpRes.HasCore]
      · split <;> simp_all [OpRes.HasCore]

@[simp] theorem execSqTailDoorbell_keeps {base : Core} {s : State} (h : base.Le s.core) (fn off : Nat) (v : W32) : Answer.Keeps base (execSqTailDoorbell fn off v s) := by
  unfold execSqTailDoorbell
  refine occurs_keeps h ?_
  repeat' split
  all_goals simp [h]

@[simp] theorem execCqHeadDoorbell_keeps {base : Core} {s : State} (h : base.Le s.core) (fn off : Nat) (v : W32) : Answer.Keeps base (execCqHeadDoorbell fn off v s) := by
  unfold execCqHeadDoorbell
  refine occurs_keeps h ?_
  repeat' split
  all_goals simp [h]

@[simp] theorem execSqEntryFetch_keeps {base : Core} {s : State} (h : base.Le s.core) (q : QRef) (r : Rd) : Answer.Keeps base (execSqEntryFetch q r s) := by
  simp only [execSqEntryFetch]
  split
  · split
    · exact h
    · refine Answer.keeps_ite h (Answer.keeps_ite (Answer.keeps_ite h ?_) ?_)
      · split <;> simp [h]
      · split
        · simp [h]
        · exact Answer.keeps_ite (State.stageSq_keeps (by simpa using h) _ _) (by simpa using h)
  · refine Answer.keeps_ite h ?_
    split
    · simp [h]
    · exact Answer.keeps_ite (by simpa using h) (by simpa using h)

@[simp] theorem execOwnReread_keeps {base : Core} {s : State} (h : base.Le s.core) (q : QRef) (r : Rd) : Answer.Keeps base (execOwnReread q r s) := by
  simp only [execOwnReread]
  split
  · split
    · exact h
    · refine Answer.keeps_ite h ?_
      split
      · simp [h]
      · exact Answer.keeps_ite (State.stageSq_keeps (by simpa using h) _ _) (by simpa using h)
  · refine Answer.keeps_ite h ?_
    split
    · simp [h]
    · exact Answer.keeps_ite (by simpa using h) (by simpa using h)

@[simp] theorem execSqOwnTimeout_keeps {base : Core} {s : State} (h : base.Le s.core) (q : QRef) : Answer.Keeps base (execSqOwnTimeout q s) := by
  unfold execSqOwnTimeout
  repeat' split
  all_goals simp [h]

@[simp] theorem execSqEnableWrite_keeps {base : Core} {s : State} (h : base.Le s.core) (fn n : Nat) (v : W32) : Answer.Keeps base (execSqEnableWrite fn n v s) := occurs_keeps h (by simp [h])

@[simp] theorem execHaltAll_keeps {base : Core} {s : State} (h : base.Le s.core) (fn n : Nat) (v : W32) : Answer.Keeps base (execHaltAll fn n v s) := occurs_keeps h (by simp [h])

@[simp] theorem execAqEnable_keeps {base : Core} {s : State} (h : base.Le s.core) (fn : Nat) (v : W32) : Answer.Keeps base (execAqEnable fn v s) := occurs_keeps h (by simp [h])

@[simp] theorem execCompletionPost_keeps {base : Core} {s : State} (h : base.Le s.core) (q : QRef) : Answer.Keeps base (execCompletionPost q s) := by
  simp only [execCompletionPost]
  repeat' split
  all_goals simp [h]

@[simp] theorem execHeldCompletionPost_keeps {base : Core} {s : State} (h : base.Le s.core) (cq : Nat) : Answer.Keeps base (execHeldCompletionPost cq s) := by
  unfold execHeldCompletionPost
  repeat' split
  all_goals simp [h]

@[simp] theorem execMsixCoalesceTimeout_keeps {base : Core} {s : State} (h : base.Le s.core) (cq : Nat) : Answer.Keeps base (execMsixCoalesceTimeout cq s) := by
  unfold execMsixCoalesceTimeout
  split <;> simp [h]

@[simp] theorem execCqStalled_keeps {base : Core} {s : State} (h : base.Le s.core) (cq : Nat) : Answer.Keeps base (execCqStalled cq s) := by
  unfold execCqStalled
  repeat' split
  all_goals simp [h]

@[simp] theorem execAdminEventPost_keeps {base : Core} {s : State} (h : base.Le s.core) (fn : Nat) : Answer.Keeps base (execAdminEventPost fn s) := by
  unfold execAdminEventPost
  split <;> simp [h]

@[simp] theorem execHaltEntry_keeps {base : Core} {s : State} (h : base.Le s.core) (sq : Nat) : Answer.Keeps base (execHaltEntry sq s) := by
  refine State.control_keeps h fun e p x u hu => ?_
  simp [hu]

@[simp] theorem execHaltHoldEntry_keeps {base : Core} {s : State} (h : base.Le s.core) (sq : Nat) : Answer.Keeps base (execHaltHoldEntry sq s) := by
  refine State.control_keeps h fun e p x u hu => ?_
  repeat' split
  all_goals simp [hu]

@[simp] theorem execResumeEntry_keeps {base : Core} {s : State} (h : base.Le s.core) (sq : Nat) : Answer.Keeps base (execResumeEntry sq s) := by
  refine State.control_keeps h fun e p x u hu => ?_
  repeat' split
  all_goals simp [hu]

@[simp] theorem execMbxTxCommit_keeps {base : Core} {s : State} (h : base.Le s.core) (mid ch : Nat) (hi : W32) (stampsAgree : Bool) : Answer.Keeps base (execMbxTxCommit mid ch hi stampsAgree s) := by
  simp only [execMbxTxCommit]
  repeat' split
  all_goals simp [h]

@[simp] theorem execMbxRxRead_keeps {base : Core} {s : State} (h : base.Le s.core) (mid ch : Nat) : Answer.Keeps base (execMbxRxRead mid ch s) := by
  simp only [execMbxRxRead]
  split
  · exact h
  next i _ =>
    have taken := State.mbxTake_core s ch i
    refine Answer.keeps_ite h (Answer.keeps_ite (by simpa using h) ?_)
    split <;> simp_all

@[simp] theorem execMbxChannelCfg_keeps {base : Core} {s : State} (h : base.Le s.core) (mid ch : Nat) (v : W32) : Answer.Keeps base (execMbxChannelCfg mid ch v s) := occurs_keeps h (by simp [h])

@[simp] theorem execMbxRxTimeout_keeps {base : Core} {s : State} (h : base.Le s.core) (ch : Nat) (dir : Bool) : Answer.Keeps base (execMbxRxTimeout ch dir s) := by
  simp [execMbxRxTimeout, h]

@[simp] theorem execTmrMatch_keeps {base : Core} {s : State} (h : base.Le s.core) (t : Nat) : Answer.Keeps base (execTmrMatch t s) := occurs_keeps h (by simp [h])

@[simp] theorem execTmrCmpCommit_keeps {base : Core} {s : State} (h : base.Le s.core) (mid t : Nat) (hi : W32) : Answer.Keeps base (execTmrCmpCommit mid t hi s) := occurs_keeps h (by simp [h])

@[simp] theorem execTmrIntCommit_keeps {base : Core} {s : State} (h : base.Le s.core) (mid t : Nat) (hi : W32) : Answer.Keeps base (execTmrIntCommit mid t hi s) := occurs_keeps h (by simp [h])

@[simp] theorem execCaptureEdge_keeps {base : Core} {s : State} (h : base.Le s.core) (k : Nat) : Answer.Keeps base (execCaptureEdge k s) := by
  simp [execCaptureEdge, h]

@[simp] theorem execDisciplineSample_keeps {base : Core} {s : State} (h : base.Le s.core) (src port : Nat) (offset : W64) : Answer.Keeps base (execDisciplineSample src port offset s) := by
  simp [execDisciplineSample, h]

@[simp] theorem execHoldoverEntry_keeps {base : Core} {s : State} (h : base.Le s.core)  : Answer.Keeps base (execHoldoverEntry s) := by
  simp [execHoldoverEntry, h]

@[simp] theorem execNop_keeps {base : Core} {s : State} (h : base.Le s.core) (e : Nat) : Answer.Keeps base (execNop e s) := by
  refine State.atWord_keeps h fun p w => State.checked_keeps h fun u hu => ?_
  simp [hu]

@[simp] theorem execTic_keeps {base : Core} {s : State} (h : base.Le s.core) (e : Nat) (target : Rd) : Answer.Keeps base (execTic e target s) := by
  refine State.atWord_keeps h fun p w => State.checked_keeps h fun u hu => ?_
  dsimp only
  split
  · simp [hu]
  next t _ =>
    have fetched := State.fetchLine_core u e p t.toNat [(lineOf t.toNat, target)]
    split
    · exact hu
    · simp_all [FRes.HasCore]
    · split <;> simp_all [FRes.HasCore]

@[simp] theorem execLoop_keeps {base : Core} {s : State} (h : base.Le s.core) (e : Nat) : Answer.Keeps base (execLoop e s) := by
  refine State.atWord_keeps h fun p w => State.checked_keeps h fun u hu => ?_
  simp [hu]

@[simp] theorem execBranch_keeps {base : Core} {s : State} (h : base.Le s.core) (e : Nat) : Answer.Keeps base (execBranch e s) := by
  refine State.atWord_keeps h fun p w => State.checked_keeps h fun u hu => ?_
  simp [hu]

@[simp] theorem execCall_keeps {base : Core} {s : State} (h : base.Le s.core) (e : Nat) : Answer.Keeps base (execCall e s) := by
  refine State.atWord_keeps h fun p w => State.checked_keeps h fun u hu => ?_
  repeat' split
  all_goals simp [hu]

@[simp] theorem execRet_keeps {base : Core} {s : State} (h : base.Le s.core) (e : Nat) : Answer.Keeps base (execRet e s) := by
  refine State.atWord_keeps h fun p w => State.checked_keeps h fun u hu => ?_
  repeat' split
  all_goals simp [hu]

@[simp] theorem execWait_keeps {base : Core} {s : State} (h : base.Le s.core) (e : Nat) : Answer.Keeps base (execWait e s) := by
  refine State.atWord_keeps h fun p w => State.checked_keeps h fun u hu => ?_
  simp [hu]

@[simp] theorem execWaitLimitExpiry_keeps {base : Core} {s : State} (h : base.Le s.core) (e : Nat) : Answer.Keeps base (execWaitLimitExpiry e s) := by
  unfold execWaitLimitExpiry
  repeat' split
  all_goals simp [h]

@[simp] theorem execDeviceTimeWaitDone_keeps {base : Core} {s : State} (h : base.Le s.core) (e : Nat) : Answer.Keeps base (execDeviceTimeWaitDone e s) := by
  unfold execDeviceTimeWaitDone
  repeat' split
  all_goals simp [h]

@[simp] theorem execSignalDoorbell_keeps {base : Core} {s : State} (h : base.Le s.core) (e : Nat) : Answer.Keeps base (execSignalDoorbell e s) := by
  refine State.signal_keeps h fun p a u hu => ?_
  simp [hu]

@[simp] theorem execSignalInterrupt_keeps {base : Core} {s : State} (h : base.Le s.core) (e : Nat) : Answer.Keeps base (execSignalInterrupt e s) := by
  refine State.signal_keeps h fun p a u hu => ?_
  simp [hu]

@[simp] theorem execSignalMailboxWord_keeps {base : Core} {s : State} (h : base.Le s.core) (e : Nat) (stampsAgree : Bool) : Answer.Keeps base (execSignalMailboxWord e stampsAgree s) := by
  refine State.signal_keeps h fun p a u hu => ?_
  dsimp only
  repeat' split
  all_goals simp [hu]

@[simp] theorem execSignalBarrierArrival_keeps {base : Core} {s : State} (h : base.Le s.core) (e : Nat) : Answer.Keeps base (execSignalBarrierArrival e s) := by
  refine State.signal_keeps h fun p a u hu => ?_
  simp [hu]

@[simp] theorem execSignalRequestAcknowledge_keeps {base : Core} {s : State} (h : base.Le s.core) (e : Nat) : Answer.Keeps base (execSignalRequestAcknowledge e s) := by
  refine State.signal_keeps h fun p a u hu => ?_
  simp [hu]

@[simp] theorem execSuspend_keeps {base : Core} {s : State} (h : base.Le s.core) (e : Nat) : Answer.Keeps base (execSuspend e s) := by
  refine State.atWord_keeps h fun p w => State.checked_keeps h fun u hu => ?_
  simp [hu]

@[simp] theorem execHalt_keeps {base : Core} {s : State} (h : base.Le s.core) (e : Nat) : Answer.Keeps base (execHalt e s) := by
  refine State.atWord_keeps h fun p w => State.checked_keeps h fun u hu => ?_
  simp [hu]

@[simp] theorem execPostNotice_keeps {base : Core} {s : State} (h : base.Le s.core) (e : Nat) : Answer.Keeps base (execPostNotice e s) := by
  refine State.atWord_keeps h fun p w => Answer.keeps_ite (by simpa using h) (State.checked_keeps h fun u hu => ?_)
  split <;> simp [hu]

@[simp] theorem execPostStatusWord_keeps {base : Core} {s : State} (h : base.Le s.core) (e : Nat) (x : Xfer) : Answer.Keeps base (execPostStatusWord e x s) := by
  refine State.atWord_keeps h fun p w => State.checkedBar_keeps h fun u hu => ?_
  split <;> simp [hu]

@[simp] theorem execSelftestTurn_keeps {base : Core} {s : State} (h : base.Le s.core) (c : Nat) : Answer.Keeps base (execSelftestTurn c s) := by
  simp only [execSelftestTurn]
  repeat' split
  all_goals simp [h]

@[simp] theorem execHandoverWindowEnd_keeps {base : Core} {s : State} (h : base.Le s.core) (c : Nat) : Answer.Keeps base (execHandoverWindowEnd c s) := by
  unfold execHandoverWindowEnd
  split
  · refine occurs_keeps h ?_
    dsimp only
    repeat' split
    all_goals simp [h]
  · exact h

@[simp] theorem execSelftestComplete_keeps {base : Core} {s : State} (h : base.Le s.core) (c : Nat) (pass : Bool) : Answer.Keeps base (execSelftestComplete c pass s) := by
  unfold execSelftestComplete
  split
  · exact occurs_keeps h (by simp [h])
  · exact h

@[simp] theorem execClusterGate_keeps {base : Core} {s : State} (h : base.Le s.core) (c : Nat) : Answer.Keeps base (execClusterGate c s) := occurs_keeps h (by simp [h])

@[simp] theorem execClusterWake_keeps {base : Core} {s : State} (h : base.Le s.core) (c : Nat) : Answer.Keeps base (execClusterWake c s) := by
  unfold execClusterWake
  exact occurs_keeps h (by simpa using h)

@[simp] theorem execBroadcast_keeps {base : Core} {s : State} (h : base.Le s.core) (order : Nat) (mask : BitVec 16) : Answer.Keeps base (execBroadcast order mask s) := by
  unfold execBroadcast
  split <;> simp [h]

@[simp] theorem execBroadcastComplete_keeps {base : Core} {s : State} (h : base.Le s.core)  : Answer.Keeps base (execBroadcastComplete s) := by
  unfold execBroadcastComplete
  split <;> simp [h, core_foldl]

@[simp] theorem execClusterWakeReady_keeps {base : Core} {s : State} (h : base.Le s.core) (c : Nat) : Answer.Keeps base (execClusterWakeReady c s) := by
  unfold execClusterWakeReady
  split
  · exact h
  · exact occurs_keeps h (by simp [h, core_foldl])

@[simp] theorem execBarrierCfgWrite_keeps {base : Core} {s : State} (h : base.Le s.core) (mid b : Nat) (v : W32) : Answer.Keeps base (execBarrierCfgWrite mid b v s) := by
  simp [execBarrierCfgWrite, h]

@[simp] theorem execSnapshotGo_keeps {base : Core} {s : State} (h : base.Le s.core) (mid : Nat) (v : W32) : Answer.Keeps base (execSnapshotGo mid v s) := occurs_keeps h (by simp [h])

@[simp] theorem execClusterReset_keeps {base : Core} {s : State} (h : base.Le s.core) (c : Nat) : Answer.Keeps base (execClusterReset c s) := by
  unfold execClusterReset
  exact occurs_keeps h (by simpa using h)

@[simp] theorem execClusterReady_keeps {base : Core} {s : State} (h : base.Le s.core) (c : Nat) (failed : List Nat) : Answer.Keeps base (execClusterReady c failed s) := by
  unfold execClusterReady
  split
  · exact h
  · refine occurs_keeps h ?_
    simp [h, core_foldl]

@[simp] theorem execBoundVoidExpiry_keeps {base : Core} {s : State} (h : base.Le s.core)  : Answer.Keeps base (execBoundVoidExpiry s) := occurs_keeps h (by simp [h])

@[simp] theorem execAdmitStart_keeps {base : Core} {s : State} (h : base.Le s.core) (sq : Nat) (first : Rd) : Answer.Keeps base (execAdmitStart sq first s) := by
  unfold execAdmitStart
  refine Answer.keeps_ite h ?_
  split
  · exact h
  next q _ =>
    split
    next e k _ _ =>
      split
      · exact h
      next x _ =>
        have checked := State.checkStart_core s x q e first
        split <;> simp_all [StartRes.HasCore]
    · exact h

@[simp] theorem execSeatFreedPlacement_keeps {base : Core} {s : State} (h : base.Le s.core) (sq : Nat) : Answer.Keeps base (execSeatFreedPlacement sq s) := by
  unfold execSeatFreedPlacement
  repeat' split
  all_goals simp [h]

@[simp] theorem execPageProgramComplete_keeps {base : Core} {s : State} (h : base.Le s.core) (lun : Nat) (pass : Bool) : Answer.Keeps base (execPageProgramComplete lun pass s) := by
  unfold execPageProgramComplete
  split <;> simp [h]

@[simp] theorem execBlockEraseComplete_keeps {base : Core} {s : State} (h : base.Le s.core) (lun : Nat) (pass : Bool) : Answer.Keeps base (execBlockEraseComplete lun pass s) := by
  simp only [execBlockEraseComplete]
  split <;> simp [h]

@[simp] theorem execPageReadComplete_keeps {base : Core} {s : State} (h : base.Le s.core) (lun : Nat) : Answer.Keeps base (execPageReadComplete lun s) := by
  unfold execPageReadComplete
  repeat' split
  all_goals simp [h]

@[simp] theorem execNandOpTimeout_keeps {base : Core} {s : State} (h : base.Le s.core) (lun : Nat) : Answer.Keeps base (execNandOpTimeout lun s) := by
  unfold execNandOpTimeout
  split
  · exact h
  · refine occurs_keeps h ?_
    dsimp only
    repeat' split
    all_goals simp [h]

@[simp] theorem execRowCloseTimeout_keeps {base : Core} {s : State} (h : base.Le s.core) (seg : Nat) : Answer.Keeps base (execRowCloseTimeout seg s) := by
  unfold execRowCloseTimeout
  repeat' split
  all_goals simp [h]

@[simp] theorem execC0BoundMiss_keeps {base : Core} {s : State} (h : base.Le s.core) (detail gid : Nat) : Answer.Keeps base (execC0BoundMiss detail gid s) := by
  unfold execC0BoundMiss
  split
  · split <;> simp [h]
  · split <;> simp [h]
  · dsimp only
    split
    · split <;> simp [h]
    · split <;> simp [h]
  · exact h

@[simp] theorem execRetentionRelease_keeps {base : Core} {s : State} (h : base.Le s.core) (stream : Nat) : Answer.Keeps base (execRetentionRelease stream s) := by
  unfold execRetentionRelease
  split <;> simp [h]

@[simp] theorem execSlotStart_keeps {base : Core} {s : State} (h : base.Le s.core) (t : Nat) : Answer.Keeps base (execSlotStart t s) := by
  unfold execSlotStart
  split <;> simp [h]

@[simp] theorem execFastLanePageProgram_keeps {base : Core} {s : State} (h : base.Le s.core)  : Answer.Keeps base (execFastLanePageProgram s) := by
  unfold execFastLanePageProgram
  split <;> simp [h]

@[simp] theorem execFrameStart_keeps {base : Core} {s : State} (h : base.Le s.core)  : Answer.Keeps base (execFrameStart s) := by
  unfold execFrameStart
  split <;> simp [h]

@[simp] theorem execArbiterHold_keeps {base : Core} {s : State} (h : base.Le s.core) (arb kind unit heldUs : Nat) : Answer.Keeps base (execArbiterHold arb kind unit heldUs s) := by
  unfold execArbiterHold
  split <;> simp [h]

@[simp] theorem execCheckpointWrite_keeps {base : Core} {s : State} (h : base.Le s.core)  : Answer.Keeps base (execCheckpointWrite s) := occurs_keeps h (by simp [h])

@[simp] theorem execScrubPeriod_keeps {base : Core} {s : State} (h : base.Le s.core) (seg : Nat) : Answer.Keeps base (execScrubPeriod seg s) := by
  unfold execScrubPeriod
  split <;> simp [h]

@[simp] theorem execRetentionRefreshDue_keeps {base : Core} {s : State} (h : base.Le s.core) (seg : Nat) : Answer.Keeps base (execRetentionRefreshDue seg s) := by
  unfold execRetentionRefreshDue
  split <;> simp [h]

@[simp] theorem execAnnealTask_keeps {base : Core} {s : State} (h : base.Le s.core)  : Answer.Keeps base (execAnnealTask s) := by
  refine occurs_keeps h ?_
  repeat' split
  all_goals simp [h]

@[simp] theorem execLandingLimitRecompute_keeps {base : Core} {s : State} (h : base.Le s.core) (vbankMv : Nat) : Answer.Keeps base (execLandingLimitRecompute vbankMv s) := occurs_keeps h (by simp [h])

@[simp] theorem execTripRecompute_keeps {base : Core} {s : State} (h : base.Le s.core)  : Answer.Keeps base (execTripRecompute s) := occurs_keeps h (by simp [h])

@[simp] theorem execPulseStart_keeps {base : Core} {s : State} (h : base.Le s.core) (vbankMv : Nat) : Answer.Keeps base (execPulseStart vbankMv s) := by
  simp [execPulseStart, h]

@[simp] theorem execPulseEnd_keeps {base : Core} {s : State} (h : base.Le s.core) (samples : List Nat) : Answer.Keeps base (execPulseEnd samples s) := by
  unfold execPulseEnd
  split
  · exact h
  · refine occurs_keeps h ?_
    dsimp only
    split
    · simp [h]
    · split <;> simp [h]

@[simp] theorem execCapPublish_keeps {base : Core} {s : State} (h : base.Le s.core) (vbankMv : Nat) : Answer.Keeps base (execCapPublish vbankMv s) := by
  unfold execCapPublish
  repeat' split
  all_goals simp [h]

@[simp] theorem execPulseRecoveryTimeout_keeps {base : Core} {s : State} (h : base.Le s.core) (vbankMv : Nat) : Answer.Keeps base (execPulseRecoveryTimeout vbankMv s) := by
  unfold execPulseRecoveryTimeout
  split <;> simp [h]

@[simp] theorem execBankStale_keeps {base : Core} {s : State} (h : base.Le s.core)  : Answer.Keeps base (execBankStale s) := occurs_keeps h (by simp [h])

@[simp] theorem execQuenchArmCheck_keeps {base : Core} {s : State} (h : base.Le s.core) (bad : List Nat) (reloaded : Bool) : Answer.Keeps base (execQuenchArmCheck bad reloaded s) := occurs_keeps h (by simp [h])

@[simp] theorem execDescriptorWrite_keeps {base : Core} {s : State} (h : base.Le s.core) (m ch : Nat) (d : List Byte) : Answer.Keeps base (execDescriptorWrite m ch d s) := by
  simp [execDescriptorWrite, h]

@[simp] theorem execDescriptorComplete_keeps {base : Core} {s : State} (h : base.Le s.core) (m ch : Nat) (x : Xfer) : Answer.Keeps base (execDescriptorComplete m ch x s) := by
  unfold execDescriptorComplete
  dsimp only
  split
  · exact h
  · refine Answer.keeps_ite ?_ (Answer.keeps_ite ?_ ?_) <;> simp [h]

@[simp] theorem execMoverStallTimeout_keeps {base : Core} {s : State} (h : base.Le s.core) (m ch : Nat) : Answer.Keeps base (execMoverStallTimeout m ch s) := by
  unfold execMoverStallTimeout
  dsimp only
  split
  · exact h
  · refine occurs_keeps h ?_
    split <;> simp [h]

@[simp] theorem execMvMove_keeps {base : Core} {s : State} (h : base.Le s.core) (m : Nat) (x : Xfer) : Answer.Keeps base (execMvMove m x s) := by
  simp only [execMvMove]
  repeat' split
  all_goals simp [h]

@[simp] theorem execMvLoop_keeps {base : Core} {s : State} (h : base.Le s.core) (m : Nat) : Answer.Keeps base (execMvLoop m s) := by
  simp [execMvLoop, h]

@[simp] theorem execMvWait_keeps {base : Core} {s : State} (h : base.Le s.core) (m : Nat) (norReady : Bool) : Answer.Keeps base (execMvWait m norReady s) := by
  unfold execMvWait
  refine occurs_keeps h ?_
  dsimp only
  split
  · simp [h]
  · split
    next t ht => exact h.of_eq (State.prgEvent_core ht)
    · simp [h]

@[simp] theorem execMvWaitExpiry_keeps {base : Core} {s : State} (h : base.Le s.core) (m : Nat) : Answer.Keeps base (execMvWaitExpiry m s) := by
  unfold execMvWaitExpiry
  split <;> simp [h]

@[simp] theorem execMvSignal_keeps {base : Core} {s : State} (h : base.Le s.core) (m : Nat) : Answer.Keeps base (execMvSignal m s) := by
  unfold execMvSignal
  refine occurs_keeps h ?_
  repeat' split
  all_goals simp [h]

@[simp] theorem execMvEnd_keeps {base : Core} {s : State} (h : base.Le s.core) (m : Nat) : Answer.Keeps base (execMvEnd m s) := by
  simp [execMvEnd, h]

@[simp] theorem execLqReassign_keeps {base : Core} {s : State} (h : base.Le s.core) (m : Nat) : Answer.Keeps base (execLqReassign m s) := by
  simp [execLqReassign, h]

@[simp] theorem execMove_keeps {base : Core} {s : State} (h : base.Le s.core) (e : Nat) (x : Xfer) : Answer.Keeps base (execMove e x s) := by
  refine State.dataWord_keeps h (fun p w u hu => hu) fun p x w u hu => ?_
  · split <;> simp [hu]

@[simp] theorem execReadStream_keeps {base : Core} {s : State} (h : base.Le s.core) (e : Nat) (x : Xfer) : Answer.Keeps base (execReadStream e x s) := by
  refine State.dataWord_keeps h (fun p w u hu => ?_) fun p x w u hu => ?_ <;> simp [hu]

@[simp] theorem execRegionRead_keeps {base : Core} {s : State} (h : base.Le s.core) (e : Nat) (x : Xfer) : Answer.Keeps base (execRegionRead e x s) := by
  refine State.dataWord_keeps h (fun p w u hu => ?_) fun p x w u hu => ?_ <;> simp [hu]

@[simp] theorem execVaultRead_keeps {base : Core} {s : State} (h : base.Le s.core) (e : Nat) (x : Xfer) : Answer.Keeps base (execVaultRead e x s) := by
  refine State.dataWord_keeps h (fun p w u hu => ?_) fun p x w u hu => ?_ <;> simp [hu]

@[simp] theorem execFill_keeps {base : Core} {s : State} (h : base.Le s.core) (e : Nat) (x : Xfer) : Answer.Keeps base (execFill e x s) := State.dataWord_keeps h (fun _ _ _ hu => hu) fun _ _ _ _ hu => State.fillNext_le hu ..

@[simp] theorem execAppend_keeps {base : Core} {s : State} (h : base.Le s.core) (e : Nat) (x : Xfer) : Answer.Keeps base (execAppend e x s) := by
  refine State.dataWord_keeps h (fun p w u hu => ?_) fun p x w u hu => ?_ <;> simp [hu]

@[simp] theorem execRegionWrite_keeps {base : Core} {s : State} (h : base.Le s.core) (e : Nat) (x : Xfer) : Answer.Keeps base (execRegionWrite e x s) := by
  refine State.dataWord_keeps h (fun p w u hu => ?_) fun p x w u hu => ?_ <;> simp [hu]

@[simp] theorem execSeal_keeps {base : Core} {s : State} (h : base.Le s.core) (e : Nat) : Answer.Keeps base (execSeal e s) := by
  refine State.atWord_keeps h fun p w => State.checked_keeps h fun u hu => ?_
  simp [hu]

@[simp] theorem execTrim_keeps {base : Core} {s : State} (h : base.Le s.core) (e : Nat) : Answer.Keeps base (execTrim e s) := by
  refine State.atWord_keeps h fun p w => State.checked_keeps h fun u hu => ?_
  simp [hu]

@[simp] theorem execSync_keeps {base : Core} {s : State} (h : base.Le s.core) (e : Nat) : Answer.Keeps base (execSync e s) := by
  refine State.atWord_keeps h fun p w => State.checked_keeps h fun u hu => ?_
  simp [hu]

@[simp] theorem execSyncComplete_keeps {base : Core} {s : State} (h : base.Le s.core) (e : Nat) : Answer.Keeps base (execSyncComplete e s) := by
  unfold execSyncComplete
  repeat' split
  all_goals simp [h]

@[simp] theorem execSyncLimitExpiry_keeps {base : Core} {s : State} (h : base.Le s.core) (e : Nat) : Answer.Keeps base (execSyncLimitExpiry e s) := by
  unfold execSyncLimitExpiry
  repeat' split
  all_goals simp [h]

@[simp] theorem execLandingChargeGrant_keeps {base : Core} {s : State} (h : base.Le s.core) (c0 : Bool) (x : Xfer) : Answer.Keeps base (execLandingChargeGrant c0 x s) := by
  unfold execLandingChargeGrant
  split
  · exact h
  · split
    · exact h
    · exact occurs_keeps h (State.goOn_le (fun p y w u hu => State.persistNext_le hu ..) (by simpa using h) _)

@[simp] theorem execStepTimeout_keeps {base : Core} {s : State} (h : base.Le s.core) (e : Nat) : Answer.Keeps base (execStepTimeout e s) := by
  unfold execStepTimeout
  split <;> simp [h]

@[simp] theorem execDeadlineExpiry_keeps {base : Core} {s : State} (h : base.Le s.core) (e : Nat) : Answer.Keeps base (execDeadlineExpiry e s) := by
  unfold execDeadlineExpiry
  split <;> simp [h]

@[simp] theorem execMsixUnmask_keeps {base : Core} {s : State} (h : base.Le s.core) (fn vec : Nat) : Answer.Keeps base (execMsixUnmask fn vec s) := by
  simp [execMsixUnmask, h]

@[simp] theorem execDlDown_keeps {base : Core} {s : State} (h : base.Le s.core) (port : Nat) : Answer.Keeps base (execDlDown port s) := by
  simp [execDlDown, h]

@[simp] theorem execDlUp_keeps {base : Core} {s : State} (h : base.Le s.core) (port : Nat) : Answer.Keeps base (execDlUp port s) := by
  simp [execDlUp, h]

@[simp] theorem execFpLinkChange_keeps {base : Core} {s : State} (h : base.Le s.core) (port : Nat) (up : Bool) : Answer.Keeps base (execFpLinkChange port up s) := by
  simp [execFpLinkChange, h]

@[simp] theorem execFrameReceive_keeps {base : Core} {s : State} (h : base.Le s.core) (port : Nat) (bytes : List Byte) : Answer.Keeps base (execFrameReceive port bytes s) := by
  refine occurs_keeps h ?_
  dsimp only
  split
  · simp [h]
  · split
    · exact h
    · split <;> simp [h]

@[simp] theorem execFrameTransmit_keeps {base : Core} {s : State} (h : base.Le s.core) (port : Nat) : Answer.Keeps base (execFrameTransmit port s) := by
  unfold execFrameTransmit
  split <;> simp [h]

@[simp] theorem execGateListTakeEffect_keeps {base : Core} {s : State} (h : base.Le s.core) (port : Nat) : Answer.Keeps base (execGateListTakeEffect port s) := by
  unfold execGateListTakeEffect
  split <;> simp [h]

@[simp] theorem execGclIntervalEnd_keeps {base : Core} {s : State} (h : base.Le s.core) (port : Nat) : Answer.Keeps base (execGclIntervalEnd port s) := by
  simp [execGclIntervalEnd, h]

@[simp] theorem execGptpMessageReceive_keeps {base : Core} {s : State} (h : base.Le s.core) (port kind : Nat) (v : W64) : Answer.Keeps base (execGptpMessageReceive port kind v s) := occurs_keeps h (by simp [h])

@[simp] theorem execGptpIntervalTimeout_keeps {base : Core} {s : State} (h : base.Le s.core) (port kind : Nat) : Answer.Keeps base (execGptpIntervalTimeout port kind s) := occurs_keeps h (by simp [h])

@[simp] theorem execDreqRequest_keeps {base : Core} {s : State} (h : base.Le s.core) (n : Nat) : Answer.Keeps base (execDreqRequest n s) := by
  simp only [execDreqRequest]
  repeat' split
  all_goals simp [h]

@[simp] theorem execDreqDeassert_keeps {base : Core} {s : State} (h : base.Le s.core) (n : Nat) : Answer.Keeps base (execDreqDeassert n s) := by
  simp [execDreqDeassert, h]

@[simp] theorem execUartRxByte_keeps {base : Core} {s : State} (h : base.Le s.core) (n : Nat) (b : Byte) : Answer.Keeps base (execUartRxByte n b s) := occurs_keeps h (by simp [h])

@[simp] theorem execGpioEdge_keeps {base : Core} {s : State} (h : base.Le s.core) (line : Nat) (high : Bool) : Answer.Keeps base (execGpioEdge line high s) := by
  simp [execGpioEdge, h]

@[simp] theorem execPpsOutPulse_keeps {base : Core} {s : State} (h : base.Le s.core)  : Answer.Keeps base (execPpsOutPulse s) := by
  unfold execPpsOutPulse
  split <;> simp [h]

@[simp] theorem execXtRead_keeps {base : Core} {s : State} (h : base.Le s.core) (n addr len : Nat) : Answer.Keeps base (execXtRead n addr len s) := by
  unfold execXtRead
  refine occurs_keeps h ?_
  repeat' split
  all_goals simp [h]

@[simp] theorem execXtPageProgram_keeps {base : Core} {s : State} (h : base.Le s.core) (n addr : Nat) (bytes : List Byte) : Answer.Keeps base (execXtPageProgram n addr bytes s) := by
  simp [execXtPageProgram, h]

@[simp] theorem execXtRecordAccepted_keeps {base : Core} {s : State} (h : base.Le s.core) (n : Nat) : Answer.Keeps base (execXtRecordAccepted n s) := by
  simp only [execXtRecordAccepted]
  repeat' split
  all_goals simp [h]

@[simp] theorem execXtErase_keeps {base : Core} {s : State} (h : base.Le s.core) (n addr : Nat) : Answer.Keeps base (execXtErase n addr s) := by
  simp [execXtErase, h]

@[simp] theorem execXtReadId_keeps {base : Core} {s : State} (h : base.Le s.core) (n : Nat) : Answer.Keeps base (execXtReadId n s) := occurs_keeps h (by simp [h])

@[simp] theorem execXtReadStatus_keeps {base : Core} {s : State} (h : base.Le s.core) (n : Nat) : Answer.Keeps base (execXtReadStatus n s) := occurs_keeps h (by simp [h])

@[simp] theorem execXtReadSfdp_keeps {base : Core} {s : State} (h : base.Le s.core) (n addr len : Nat) : Answer.Keeps base (execXtReadSfdp n addr len s) := occurs_keeps h (by simp [h])

@[simp] theorem execXtWriteEnable_keeps {base : Core} {s : State} (h : base.Le s.core) (n : Nat) : Answer.Keeps base (execXtWriteEnable n s) := occurs_keeps h (by simp [h])

@[simp] theorem execXtWriteDisable_keeps {base : Core} {s : State} (h : base.Le s.core) (n : Nat) : Answer.Keeps base (execXtWriteDisable n s) := occurs_keeps h (by simp [h])

@[simp] theorem execXtVolatileConfigWrite_keeps {base : Core} {s : State} (h : base.Le s.core) (n : Nat) (v : Byte) : Answer.Keeps base (execXtVolatileConfigWrite n v s) := occurs_keeps h (by simp [h])

@[simp] theorem execXtCycleDone_keeps {base : Core} {s : State} (h : base.Le s.core) (n : Nat) (pass : Bool) : Answer.Keeps base (execXtCycleDone n pass s) := by
  simp only [execXtCycleDone]
  repeat' split
  all_goals simp [h]

@[simp] theorem execXtWindowFault_keeps {base : Core} {s : State} (h : base.Le s.core) (n : Nat) : Answer.Keeps base (execXtWindowFault n s) := occurs_keeps h (by simp [h])

@[simp] theorem execClientRstMinElapsed_keeps {base : Core} {s : State} (h : base.Le s.core) (n : Nat) : Answer.Keeps base (execClientRstMinElapsed n s) := occurs_keeps h (by simp [h])

@[simp] theorem execSourceCollected_keeps {base : Core} {s : State} (h : base.Le s.core) (ext : List ExtReport) : Answer.Keeps base (execSourceCollected ext s) := occurs_keeps h (by simp [h, core_foldl])

@[simp] theorem execWindowClose_keeps {base : Core} {s : State} (h : base.Le s.core)  : Answer.Keeps base (execWindowClose s) := occurs_keeps h (by simp [h])

@[simp] theorem execEngineErrorLine_keeps {base : Core} {s : State} (h : base.Le s.core) (e : Nat) : Answer.Keeps base (execEngineErrorLine e s) := occurs_keeps h (by simp [h])

@[simp] theorem execHeartbeatRequest_keeps {base : Core} {s : State} (h : base.Le s.core) (missing : List Nat) : Answer.Keeps base (execHeartbeatRequest missing s) := by
  simp [execHeartbeatRequest, h, core_foldl]

@[simp] theorem execPairFault_keeps {base : Core} {s : State} (h : base.Le s.core) (cls kind unit : Nat) : Answer.Keeps base (execPairFault cls kind unit s) := by
  simp [execPairFault, h]

@[simp] theorem execQuietPeriodEnd_keeps {base : Core} {s : State} (h : base.Le s.core)  : Answer.Keeps base (execQuietPeriodEnd s) := by
  simp [execQuietPeriodEnd, h]

@[simp] theorem execFcsClearFirst_keeps {base : Core} {s : State} (h : base.Le s.core) (mid : Nat) (v : W32) : Answer.Keeps base (execFcsClearFirst mid v s) := by
  refine occurs_keeps h ?_
  dsimp only
  split <;> simp [h]

@[simp] theorem execMgpWatchdogExpiry_keeps {base : Core} {s : State} (h : base.Le s.core)  : Answer.Keeps base (execMgpWatchdogExpiry s) := occurs_keeps h (by simp [h])

@[simp] theorem execLockstepMismatch_keeps {base : Core} {s : State} (h : base.Le s.core)  : Answer.Keeps base (execLockstepMismatch s) := occurs_keeps h (by simp [h])

@[simp] theorem execMgpRestartTimeout_keeps {base : Core} {s : State} (h : base.Le s.core)  : Answer.Keeps base (execMgpRestartTimeout s) := by
  unfold execMgpRestartTimeout
  split <;> simp [h]

@[simp] theorem execWdogService_keeps {base : Core} {s : State} (h : base.Le s.core) (selfCheck : Bool) : Answer.Keeps base (execWdogService selfCheck s) := occurs_keeps h (by simp [h])

@[simp] theorem execIwdgExpiry_keeps {base : Core} {s : State} (h : base.Le s.core)  : Answer.Keeps base (execIwdgExpiry s) := occurs_keeps h (by simp [h])

@[simp] theorem execArmingTimeout_keeps {base : Core} {s : State} (h : base.Le s.core)  : Answer.Keeps base (execArmingTimeout s) := by
  simp [execArmingTimeout, h]

@[simp] theorem execLandingScrub_keeps {base : Core} {s : State} (h : base.Le s.core) (corrected uncorrectable : List Nat) : Answer.Keeps base (execLandingScrub corrected uncorrectable s) := by
  simp [execLandingScrub, h, core_foldl]

@[simp] theorem execVaultPinScrub_keeps {base : Core} {s : State} (h : base.Le s.core) (x : Nat) (bad : Bool) : Answer.Keeps base (execVaultPinScrub x bad s) := occurs_keeps h (by simp [h])

@[simp] theorem execRailOutOfRange_keeps {base : Core} {s : State} (h : base.Le s.core) (rail : Nat) : Answer.Keeps base (execRailOutOfRange rail s) := occurs_keeps h (by simp [h])

@[simp] theorem execClockFault_keeps {base : Core} {s : State} (h : base.Le s.core) (clk : Nat) : Answer.Keeps base (execClockFault clk s) := occurs_keeps h (by simp [h])

@[simp] theorem execQuenchTrigger_keeps {base : Core} {s : State} (h : base.Le s.core) (pfailLow : Bool) (vbankMv : Nat) : Answer.Keeps base (execQuenchTrigger pfailLow vbankMv s) := by
  simp [execQuenchTrigger, h]

@[simp] theorem execQuenchSeal_keeps {base : Core} {s : State} (h : base.Le s.core) (pass : Bool) : Answer.Keeps base (execQuenchSeal pass s) := by
  unfold execQuenchSeal
  split
  · exact occurs_keeps h (by simp [h])
  · exact h

@[simp] theorem execHoldEntry_keeps {base : Core} {s : State} (h : base.Le s.core) (pfailHigh : Bool) (vbankMv : Nat) : Answer.Keeps base (execHoldEntry pfailHigh vbankMv s) := occurs_keeps h (by simp [h])

@[simp] theorem execHoldInputLoss_keeps {base : Core} {s : State} (h : base.Le s.core) (pfailHigh : Bool) (vbankMv : Nat) : Answer.Keeps base (execHoldInputLoss pfailHigh vbankMv s) := occurs_keeps h (by simp [h])

@[simp] theorem execHoldExitReset_keeps {base : Core} {s : State} (h : base.Le s.core)  : Answer.Keeps base (execHoldExitReset s) := by
  unfold execHoldExitReset
  split <;> simp [h]

@[simp] theorem execSupplyCollapse_keeps {base : Core} {s : State} (h : base.Le s.core) (vbat : Bool) : Answer.Keeps base (execSupplyCollapse vbat s) := occurs_keeps h (by simp [h])

@[simp] theorem execPowerUp_keeps {base : Core} {s : State} (h : base.Le s.core) (xtalOk : Bool) : Answer.Keeps base (execPowerUp xtalOk s) := occurs_keeps h (by simp [h])

@[simp] theorem execVbatApplied_keeps {base : Core} {s : State} (h : base.Le s.core)  : Answer.Keeps base (execVbatApplied s) := occurs_keeps h (by simp [h])

@[simp] theorem execVbatRemoved_keeps {base : Core} {s : State} (h : base.Le s.core)  : Answer.Keeps base (execVbatRemoved s) := occurs_keeps h (by simp [h])

@[simp] theorem execRegisterWrite_keeps {base : Core} {s : State} (h : base.Le s.core) (mid bar off : Nat) (v : W32) : Answer.Keeps base (execRegisterWrite mid bar off v s) := by
  unfold execRegisterWrite
  refine Answer.keeps_ite h ?_
  split
  · refine Answer.keeps_ite ?_ h
    have written := State.regBar0_core s mid off (s.clears (bar0Reg mid off) v)
    split
    next t ht => exact h.of_eq (written t ht)
    · trivial
  · split
    · exact h
    · exact Answer.keeps_ite (by simpa using h) (Answer.keeps_ite (by simpa using h) h)
  · split
    · simpa using h
    · exact h
  · exact h

@[simp] theorem execStreamSnapshot_keeps {base : Core} {s : State} (h : base.Le s.core) (mid : Nat) (v : W32) : Answer.Keeps base (execStreamSnapshot mid v s) := occurs_keeps h (by simp [h])

@[simp] theorem execTallyLatch_keeps {base : Core} {s : State} (h : base.Le s.core) (mid : Nat) (v : W32) : Answer.Keeps base (execTallyLatch mid v s) := by
  simp [execTallyLatch, h]

@[simp] theorem execBootComplete_keeps {base : Core} {s : State} (h : base.Le s.core) (xh0 xh1 : Option NorImage) : Answer.Keeps base (execBootComplete xh0 xh1 s) := by
  refine occurs_keeps h ?_
  dsimp only
  repeat' split
  all_goals simp [h]

@[simp] theorem execLoadComplete_keeps {base : Core} {s : State} (h : base.Le s.core) (luns : List (Nat × List Byte)) (failed : List Nat) : Answer.Keeps base (execLoadComplete luns failed s) := by
  simp only [execLoadComplete]
  refine Answer.keeps_ite h ?_
  have loaded : base.Le s.loadImage.core := State.loadImage_le h
  split
  · trivial
  next v hv =>
    have kept : v.core = s.loadImage.core := by
      split at hv
      · exact congrArg State.core (Option.some.inj hv).symm
      · exact State.writeRwl_core _ rfl v hv
    simp [loaded.of_eq kept]

@[simp] theorem execRebuildComplete_keeps {base : Core} {s : State} (h : base.Le s.core) (lost : List (Nat × Nat)) (manifest : Bool) (weak : List Nat) : Answer.Keeps base (execRebuildComplete lost manifest weak s) := occurs_keeps h (by simp [h])

@[simp] theorem execFlr_keeps {base : Core} {s : State} (h : base.Le s.core) (fn : Nat) : Answer.Keeps base (execFlr fn s) := occurs_keeps h (by simp [h])

@[simp] theorem execPortReset_keeps {base : Core} {s : State} (h : base.Le s.core) (port : Nat) : Answer.Keeps base (execPortReset port s) := by
  simp [execPortReset, h, core_foldl]

@[simp] theorem execDebugHalt_keeps {base : Core} {s : State} (h : base.Le s.core)  : Answer.Keeps base (execDebugHalt s) := occurs_keeps h (by simp [h])

@[simp] theorem execDebugHaltEnd_keeps {base : Core} {s : State} (h : base.Le s.core)  : Answer.Keeps base (execDebugHaltEnd s) := by
  unfold execDebugHaltEnd
  split <;> simp [h]

@[simp] theorem execCreateSq_keeps {base : Core} {s : State} (h : base.Le s.core) (fn : Nat) : Answer.Keeps base (execCreateSq fn s) := by
  unfold execCreateSq
  split
  · exact Answer.keeps_ite (by simpa using h) (State.command_keeps cmdCreateSq_keeps h ..)
  · exact h

@[simp] theorem execDeleteSq_keeps {base : Core} {s : State} (h : base.Le s.core) (fn : Nat) : Answer.Keeps base (execDeleteSq fn s) := State.command_keeps cmdDeleteSq_keeps h ..

@[simp] theorem execCreateCq_keeps {base : Core} {s : State} (h : base.Le s.core) (fn : Nat) : Answer.Keeps base (execCreateCq fn s) := State.command_keeps cmdCreateCq_keeps h ..

@[simp] theorem execDeleteCq_keeps {base : Core} {s : State} (h : base.Le s.core) (fn : Nat) : Answer.Keeps base (execDeleteCq fn s) := State.command_keeps cmdDeleteCq_keeps h ..

@[simp] theorem execCreateCrew_keeps {base : Core} {s : State} (h : base.Le s.core) (fn : Nat) : Answer.Keeps base (execCreateCrew fn s) := State.command_keeps cmdCreateCrew_keeps h ..

@[simp] theorem execDeleteCrew_keeps {base : Core} {s : State} (h : base.Le s.core) (fn : Nat) : Answer.Keeps base (execDeleteCrew fn s) := State.command_keeps cmdDeleteCrew_keeps h ..

@[simp] theorem execBindSq_keeps {base : Core} {s : State} (h : base.Le s.core) (fn : Nat) : Answer.Keeps base (execBindSq fn s) := State.command_keeps cmdBindSq_keeps h ..

@[simp] theorem execSlotTableWrite_keeps {base : Core} {s : State} (h : base.Le s.core) (fn : Nat) (d : Rd) : Answer.Keeps base (execSlotTableWrite fn d s) := State.command_keeps cmdSlotTableWrite_keeps h ..

@[simp] theorem execSlotTableSwap_keeps {base : Core} {s : State} (h : base.Le s.core) (fn : Nat) : Answer.Keeps base (execSlotTableSwap fn s) := State.command_keeps cmdSlotTableSwap_keeps h ..

@[simp] theorem execSetWeights_keeps {base : Core} {s : State} (h : base.Le s.core) (fn : Nat) : Answer.Keeps base (execSetWeights fn s) := State.command_keeps cmdSetWeights_keeps h ..

@[simp] theorem execClass0Contract_keeps {base : Core} {s : State} (h : base.Le s.core) (fn : Nat) : Answer.Keeps base (execClass0Contract fn s) := State.command_keeps cmdClass0Contract_keeps h ..

@[simp] theorem execPortConfig_keeps {base : Core} {s : State} (h : base.Le s.core) (fn : Nat) (d : Rd) : Answer.Keeps base (execPortConfig fn d s) := State.command_keeps cmdPortConfig_keeps h ..

@[simp] theorem execTimeSet_keeps {base : Core} {s : State} (h : base.Le s.core) (fn : Nat) : Answer.Keeps base (execTimeSet fn s) := State.command_keeps cmdTimeSet_keeps h ..

@[simp] theorem execTimeDiscipline_keeps {base : Core} {s : State} (h : base.Le s.core) (fn : Nat) : Answer.Keeps base (execTimeDiscipline fn s) := State.command_keeps cmdTimeDiscipline_keeps h ..

@[simp] theorem execIdentify_keeps {base : Core} {s : State} (h : base.Le s.core) (fn : Nat) : Answer.Keeps base (execIdentify fn s) := State.command_keeps cmdIdentify_keeps h ..

@[simp] theorem execGetTelemetry_keeps {base : Core} {s : State} (h : base.Le s.core) (fn : Nat) : Answer.Keeps base (execGetTelemetry fn s) := State.command_keeps cmdGetTelemetry_keeps h ..

@[simp] theorem execMediaReport_keeps {base : Core} {s : State} (h : base.Le s.core) (fn : Nat) : Answer.Keeps base (execMediaReport fn s) := State.command_keeps cmdMediaReport_keeps h ..

@[simp] theorem execFaultLogRead_keeps {base : Core} {s : State} (h : base.Le s.core) (fn : Nat) : Answer.Keeps base (execFaultLogRead fn s) := State.command_keeps cmdFaultLogRead_keeps h ..

@[simp] theorem execSetReaction_keeps {base : Core} {s : State} (h : base.Le s.core) (fn : Nat) : Answer.Keeps base (execSetReaction fn s) := State.command_keeps cmdSetReaction_keeps h ..

@[simp] theorem execReintegrate_keeps {base : Core} {s : State} (h : base.Le s.core) (fn : Nat) (st : LStage) : Answer.Keeps base (execReintegrate fn st s) := State.longCommand_keeps cmdReintegrate_keeps rfl h ..

@[simp] theorem execEnergyStatus_keeps {base : Core} {s : State} (h : base.Le s.core) (fn : Nat) : Answer.Keeps base (execEnergyStatus fn s) := State.command_keeps cmdEnergyStatus_keeps h ..

@[simp] theorem execBankTest_keeps {base : Core} {s : State} (h : base.Le s.core) (fn : Nat) (st : LStage) : Answer.Keeps base (execBankTest fn st s) := State.longCommand_keeps cmdBankTest_keeps rfl h ..

@[simp] theorem execModeRequestBoot_keeps {base : Core} {s : State} (h : base.Le s.core) (fn : Nat) : Answer.Keeps base (execModeRequestBoot fn s) := State.command_keeps cmdModeBoot_keeps h ..

@[simp] theorem execModeRequestProvision_keeps {base : Core} {s : State} (h : base.Le s.core) (fn : Nat) : Answer.Keeps base (execModeRequestProvision fn s) := State.command_keeps cmdModeProvision_keeps h ..

@[simp] theorem execModeRequestService_keeps {base : Core} {s : State} (h : base.Le s.core) (fn : Nat) : Answer.Keeps base (execModeRequestService fn s) := State.command_keeps cmdModeService_keeps h ..

@[simp] theorem execModeRequestDiagnostic_keeps {base : Core} {s : State} (h : base.Le s.core) (fn : Nat) : Answer.Keeps base (execModeRequestDiagnostic fn s) := State.command_keeps cmdModeDiagnostic_keeps h ..

@[simp] theorem execSidebandPacket_keeps {base : Core} {s : State} (h : base.Le s.core) (port : Nat) (wire : List Byte) : Answer.Keeps base (execSidebandPacket port wire s) := by
  unfold execSidebandPacket
  refine Answer.keeps_ite h ?_
  split
  · simpa using h
  next pkt _ =>
    refine Answer.keeps_ite (Answer.keeps_ite (State.romRun_keeps h ..) h) (Answer.keeps_ite (by simpa using h) (Answer.keeps_ite (State.sidebandRun_keeps h ..)
      (Answer.keeps_ite ?_ h)))
    split
    · exact h
    · exact State.sidebandRun_keeps h port pkt

@[simp] theorem execCreateStream_keeps {base : Core} {s : State} (h : base.Le s.core) (fn : Nat) : Answer.Keeps base (execCreateStream fn s) := State.command_keeps cmdCreateStream_keeps h ..

@[simp] theorem execDeleteStream_keeps {base : Core} {s : State} (h : base.Le s.core) (fn : Nat) : Answer.Keeps base (execDeleteStream fn s) := State.command_keeps cmdDeleteStream_keeps h ..

@[simp] theorem execSetRetention_keeps {base : Core} {s : State} (h : base.Le s.core) (fn : Nat) : Answer.Keeps base (execSetRetention fn s) := State.command_keeps cmdSetRetention_keeps h ..

@[simp] theorem execCreateRegion_keeps {base : Core} {s : State} (h : base.Le s.core) (fn : Nat) : Answer.Keeps base (execCreateRegion fn s) := State.command_keeps cmdCreateRegion_keeps h ..

@[simp] theorem execDeleteRegion_keeps {base : Core} {s : State} (h : base.Le s.core) (fn : Nat) : Answer.Keeps base (execDeleteRegion fn s) := State.command_keeps cmdDeleteRegion_keeps h ..

@[simp] theorem execVaultInstall_keeps {base : Core} {s : State} (h : base.Le s.core) (fn : Nat) (d : Rd) (st : LStage) : Answer.Keeps base (execVaultInstall fn d st s) := State.longCommand_keeps cmdVaultInstall_keeps rfl h ..

@[simp] theorem execVaultActivate_keeps {base : Core} {s : State} (h : base.Le s.core) (fn : Nat) : Answer.Keeps base (execVaultActivate fn s) := State.command_keeps cmdVaultActivate_keeps h ..

@[simp] theorem execPinWindow_keeps {base : Core} {s : State} (h : base.Le s.core) (fn : Nat) : Answer.Keeps base (execPinWindow fn s) := State.command_keeps cmdPinWindow_keeps h ..

@[simp] theorem execLoadProgram_keeps {base : Core} {s : State} (h : base.Le s.core) (fn : Nat) (d : Rd) : Answer.Keeps base (execLoadProgram fn d s) := State.command_keeps cmdLoadProgram_keeps h ..

@[simp] theorem execInvalidatePrograms_keeps {base : Core} {s : State} (h : base.Le s.core) (fn : Nat) : Answer.Keeps base (execInvalidatePrograms fn s) := State.command_keeps cmdInvalidatePrograms_keeps h ..

@[simp] theorem execMediaCharacterise_keeps {base : Core} {s : State} (h : base.Le s.core) (fn : Nat) (st : LStage) (probes : List LunProbe) (fast : Nat) : Answer.Keeps base (execMediaCharacterise fn st probes fast s) := State.longCommand_keeps (cmdMediaCharacterise_keeps ..) rfl h ..

@[simp] theorem execClusterTest_keeps {base : Core} {s : State} (h : base.Le s.core) (fn : Nat) (st : LStage) : Answer.Keeps base (execClusterTest fn st s) := State.longCommand_keeps cmdClusterTest_keeps rfl h ..

@[simp] theorem execYardTest_keeps {base : Core} {s : State} (h : base.Le s.core) (fn : Nat) (st : LStage) : Answer.Keeps base (execYardTest fn st s) := State.longCommand_keeps cmdYardTest_keeps rfl h ..

@[simp] theorem execLunScan_keeps {base : Core} {s : State} (h : base.Le s.core) (fn : Nat) (st : LStage) : Answer.Keeps base (execLunScan fn st s) := State.longCommand_keeps cmdLunScan_keeps rfl h ..

@[simp] theorem execAccessRules_keeps {base : Core} {s : State} (h : base.Le s.core) (fn : Nat) (d : Rd) : Answer.Keeps base (execAccessRules fn d s) := State.command_keeps cmdAccessRules_keeps h ..

@[simp] theorem execConsentGroup_keeps {base : Core} {s : State} (h : base.Le s.core) (fn : Nat) : Answer.Keeps base (execConsentGroup fn s) := State.command_keeps cmdConsentGroup_keeps h ..

@[simp] theorem execRootHash_keeps {base : Core} {s : State} (h : base.Le s.core) (fn : Nat) (d : Rd) : Answer.Keeps base (execRootHash fn d s) := State.command_keeps cmdRootHash_keeps h ..

@[simp] theorem execRootRevoke_keeps {base : Core} {s : State} (h : base.Le s.core) (fn : Nat) : Answer.Keeps base (execRootRevoke fn s) := State.command_keeps cmdRootRevoke_keeps h ..

@[simp] theorem execDeviceKeyRotate_keeps {base : Core} {s : State} (h : base.Le s.core) (fn : Nat) (st : LStage) : Answer.Keeps base (execDeviceKeyRotate fn st s) := State.longCommand_keeps cmdDeviceKeyRotate_keeps rfl h ..

@[simp] theorem execRollbackFloor_keeps {base : Core} {s : State} (h : base.Le s.core) (fn : Nat) : Answer.Keeps base (execRollbackFloor fn s) := State.command_keeps cmdRollbackFloor_keeps h ..

@[simp] theorem execVaultFloor_keeps {base : Core} {s : State} (h : base.Le s.core) (fn : Nat) : Answer.Keeps base (execVaultFloor fn s) := State.command_keeps cmdVaultFloor_keeps h ..

@[simp] theorem execLockedWrite_keeps {base : Core} {s : State} (h : base.Le s.core) (fn : Nat) : Answer.Keeps base (execLockedWrite fn s) := State.command_keeps cmdLockedWrite_keeps h ..

@[simp] theorem execYardPartition_keeps {base : Core} {s : State} (h : base.Le s.core) (fn : Nat) (d : Rd) : Answer.Keeps base (execYardPartition fn d s) := State.command_keeps cmdYardPartition_keeps h ..

@[simp] theorem execVendorTable_keeps {base : Core} {s : State} (h : base.Le s.core) (fn : Nat) (d : Rd) : Answer.Keeps base (execVendorTable fn d s) := State.command_keeps cmdVendorTable_keeps h ..

@[simp] theorem execProvisionLock_keeps {base : Core} {s : State} (h : base.Le s.core) (fn : Nat) : Answer.Keeps base (execProvisionLock fn s) := State.command_keeps cmdProvisionLock_keeps h ..

@[simp] theorem execDebugUnlock_keeps {base : Core} {s : State} (h : base.Le s.core) (fn : Nat) : Answer.Keeps base (execDebugUnlock fn s) := State.command_keeps cmdDebugUnlock_keeps h ..

@[simp] theorem execDebugUnlockSignature_keeps {base : Core} {s : State} (h : base.Le s.core) (slot : Nat) (valid : Bool) : Answer.Keeps base (execDebugUnlockSignature slot valid s) := by
  unfold execDebugUnlockSignature
  split <;> simp [h]

@[simp] theorem execDebugChallengeExpiry_keeps {base : Core} {s : State} (h : base.Le s.core)  : Answer.Keeps base (execDebugChallengeExpiry s) := by
  unfold execDebugChallengeExpiry
  split <;> simp [h]

@[simp] theorem execUpdateBegin_keeps {base : Core} {s : State} (h : base.Le s.core) (fn : Nat) : Answer.Keeps base (execUpdateBegin fn s) := State.command_keeps cmdUpdateBegin_keeps h ..

@[simp] theorem execUpdateStage_keeps {base : Core} {s : State} (h : base.Le s.core) (fn : Nat) (d : Rd) (st : LStage) (img : Image) : Answer.Keeps base (execUpdateStage fn d st img s) := State.longCommand_keeps (cmdUpdateStage_keeps ..) rfl h ..

@[simp] theorem execUpdateFirmwareRestart_keeps {base : Core} {s : State} (h : base.Le s.core) (fn : Nat) (st : LStage) : Answer.Keeps base (execUpdateFirmwareRestart fn st s) := by
  unfold execUpdateFirmwareRestart
  split
  · exact State.command_keeps cmdUpdateFirmware_keeps h ..
  · split
    · exact h
    · exact Answer.keeps_ite (by simpa using h) (Answer.keeps_ite (by simpa using h) h)

@[simp] theorem execUpdateCluster_keeps {base : Core} {s : State} (h : base.Le s.core) (fn : Nat) (st : LStage) : Answer.Keeps base (execUpdateCluster fn st s) := State.longCommand_keeps cmdUpdateCluster_keeps rfl h ..

@[simp] theorem execUpdateCommit_keeps {base : Core} {s : State} (h : base.Le s.core) (fn : Nat) (st : LStage) : Answer.Keeps base (execUpdateCommit fn st s) := State.longCommand_keeps cmdUpdateCommit_keeps rfl h ..

@[simp] theorem execUpdateAbandon_keeps {base : Core} {s : State} (h : base.Le s.core) (fn : Nat) (st : LStage) : Answer.Keeps base (execUpdateAbandon fn st s) := State.longCommand_keeps cmdUpdateAbandon_keeps rfl h ..

@[simp] theorem execPropose_keeps {base : Core} {s : State} (h : base.Le s.core) (fn : Nat) (d : Rd) : Answer.Keeps base (execPropose fn d s) := by
  unfold execPropose
  split
  · exact Answer.keeps_ite trivial (State.command_keeps cmdPropose_keeps h ..)
  · exact h

@[simp] theorem execRatify_keeps {base : Core} {s : State} (h : base.Le s.core) (fn : Nat) (d : Rd) (st : LStage) : Answer.Keeps base (execRatify fn d st s) := by
  unfold execRatify
  split
  · exact State.command_keeps cmdRatify_keeps h ..
  · split
    · exact State.commitRatified_le h ..
    · exact h

@[simp] theorem execWithdraw_keeps {base : Core} {s : State} (h : base.Le s.core) (fn : Nat) : Answer.Keeps base (execWithdraw fn s) := State.command_keeps cmdWithdraw_keeps h ..

@[simp] theorem execConsentExpiry_keeps {base : Core} {s : State} (h : base.Le s.core) (id : Nat) : Answer.Keeps base (execConsentExpiry id s) := occurs_keeps h (by simp [h])

@[simp] theorem execCommandLimitExpiry_keeps {base : Core} {s : State} (h : base.Le s.core) (fn : Nat) (tag : W32) : Answer.Keeps base (execCommandLimitExpiry fn tag s) := by
  simp only [execCommandLimitExpiry]
  repeat' split
  all_goals simp [h]

@[simp] theorem execPortOut_keeps {base : Core} {s : State} (h : base.Le s.core) (e : Nat) (x : Xfer) : Answer.Keeps base (execPortOut e x s) := by
  refine State.dataWord_keeps h (fun p w u hu => hu) fun p x w u hu => ?_
  · dsimp only
    split <;> simp [hu]

@[simp] theorem execPortIn_keeps {base : Core} {s : State} (h : base.Le s.core) (e : Nat) (x : Xfer) : Answer.Keeps base (execPortIn e x s) := by
  refine State.dataWord_keeps h (fun p w u hu => hu) fun p x w u hu => ?_
  · dsimp only
    split <;> simp [hu]

@[simp] theorem execUartIdleGap_keeps {base : Core} {s : State} (h : base.Le s.core) (n : Nat) : Answer.Keeps base (execUartIdleGap n s) := by
  unfold execUartIdleGap
  split
  · exact h
  · refine State.dataWord_keeps h (fun p w u hu => hu) fun p x w u hu => ?_
    · dsimp only
      split <;> simp [hu]

@[simp] theorem execSense_keeps {base : Core} {s : State} (h : base.Le s.core) (e : Nat) (x : Xfer) : Answer.Keeps base (execSense e x s) := by
  refine State.atWord_keeps h fun p w => State.checked_keeps h fun u hu => ?_
  dsimp only
  split
  · exact hu
  next d hd =>
    have sensed : base.Le d.2.core := hu.of_eq (State.senseData_core hd)
    split
    · simp [sensed]
    · split <;> split <;> simp [sensed]

@[simp] theorem execFpCommitGateList_keeps {base : Core} {s : State} (h : base.Le s.core) (e : Nat) (x : Xfer) : Answer.Keeps base (execFpCommitGateList e x s) := by
  refine State.orderWord_keeps h fun n w u hu => ?_
  simp [hu]

@[simp] theorem execFpLinkDownOrder_keeps {base : Core} {s : State} (h : base.Le s.core) (e : Nat) (x : Xfer) : Answer.Keeps base (execFpLinkDownOrder e x s) := by
  refine State.orderWord_keeps h fun n w u hu => ?_
  simp [hu]

@[simp] theorem execFpLinkUpOrder_keeps {base : Core} {s : State} (h : base.Le s.core) (e : Nat) (x : Xfer) : Answer.Keeps base (execFpLinkUpOrder e x s) := by
  refine State.orderWord_keeps h fun n w u hu => ?_
  simp [hu]

@[simp] theorem execDreqClearPending_keeps {base : Core} {s : State} (h : base.Le s.core) (e : Nat) (x : Xfer) : Answer.Keeps base (execDreqClearPending e x s) := by
  refine State.orderWord_keeps h fun n w u hu => ?_
  simp [hu]

@[simp] theorem execXtAssertHold_keeps {base : Core} {s : State} (h : base.Le s.core) (e : Nat) (x : Xfer) : Answer.Keeps base (execXtAssertHold e x s) := by
  refine State.orderWord_keeps h fun n w u hu => ?_
  simp [hu]

@[simp] theorem execXtRelease_keeps {base : Core} {s : State} (h : base.Le s.core) (e : Nat) (x : Xfer) : Answer.Keeps base (execXtRelease e x s) := by
  refine State.orderWord_keeps h fun n w u hu => ?_
  split <;> simp [hu]

@[simp] theorem execXtResetCycle_keeps {base : Core} {s : State} (h : base.Le s.core) (e : Nat) (x : Xfer) : Answer.Keeps base (execXtResetCycle e x s) := by
  refine State.orderWord_keeps h fun n w u hu => ?_
  simp [hu]

@[simp] theorem execUartFlush_keeps {base : Core} {s : State} (h : base.Le s.core) (e : Nat) (x : Xfer) : Answer.Keeps base (execUartFlush e x s) := by
  refine State.orderWord_keeps h fun n w u hu => ?_
  simp [hu]

@[simp] theorem execI2cBusRecovery_keeps {base : Core} {s : State} (h : base.Le s.core) (e : Nat) (x : Xfer) : Answer.Keeps base (execI2cBusRecovery e x s) := by
  refine State.orderWord_keeps h fun n w u hu => ?_
  simp [hu]

@[simp] theorem execGpioSet_keeps {base : Core} {s : State} (h : base.Le s.core) (e : Nat) (x : Xfer) : Answer.Keeps base (execGpioSet e x s) := by
  refine State.orderWord_keeps h fun n w u hu => ?_
  simp [hu]

@[simp] theorem execGpioClear_keeps {base : Core} {s : State} (h : base.Le s.core) (e : Nat) (x : Xfer) : Answer.Keeps base (execGpioClear e x s) := by
  refine State.orderWord_keeps h fun n w u hu => ?_
  simp [hu]

@[simp] theorem execGpioToggle_keeps {base : Core} {s : State} (h : base.Le s.core) (e : Nat) (x : Xfer) : Answer.Keeps base (execGpioToggle e x s) := by
  refine State.orderWord_keeps h fun n w u hu => ?_
  simp [hu]

@[simp] theorem execSetg_keeps {base : Core} {s : State} (h : base.Le s.core) (e : Nat) : Answer.Keeps base (execSetg e s) := by
  refine State.atWord_keeps h fun p w => State.checked_keeps h fun u hu => ?_
  simp [hu]

@[simp] theorem execAddg_keeps {base : Core} {s : State} (h : base.Le s.core) (e : Nat) : Answer.Keeps base (execAddg e s) := by
  refine State.atWord_keeps h fun p w => State.checked_keeps h fun u hu => ?_
  simp [hu]

@[simp] theorem execTestg_keeps {base : Core} {s : State} (h : base.Le s.core) (e : Nat) : Answer.Keeps base (execTestg e s) := by
  refine State.atWord_keeps h fun p w => State.checked_keeps h fun u hu => ?_
  simp [hu]

@[simp] theorem execLoadg_keeps {base : Core} {s : State} (h : base.Le s.core) (e : Nat) (x : Xfer) : Answer.Keeps base (execLoadg e x s) := by
  refine State.atWord_keeps h fun p w => State.checked_keeps h fun u hu => ?_
  dsimp only
  split
  · simp [hu]
  · split <;> simp [hu]

@[simp] theorem execStoreg_keeps {base : Core} {s : State} (h : base.Le s.core) (e : Nat) (x : Xfer) : Answer.Keeps base (execStoreg e x s) := by
  refine State.atWord_keeps h fun p w => State.checked_keeps h fun u hu => ?_
  dsimp only
  split <;> simp [hu]

/-- Every command keeps what its arm keeps. -/
theorem exec_keeps {base : Core} {s : State} (h : base.Le s.core) (i : Instr) : Answer.Keeps base (exec i s) := by
  cases i <;> simp [exec, h]

theorem step_nil {s : State} (hp : s.pending = []) : step s = .next s.tickStep := by
  rw [step, hp]

theorem step_cons {s : State} {c : Instr} {rest : List Instr} (hp : s.pending = c :: rest) : step s = exec c { s with pending := rest } := by
  rw [step, hp]

/-- A step keeps what is written once and the Yard's one form. -/
theorem step_keeps {s t : State} (ht : step s = .next t) : s.otp.Le t.otp ∧ (s.yard.mem.wf = true → t.yard.mem.wf = true) := by
  cases hp : s.pending with
  | nil =>
    have kept := State.tickStep_le (Core.Le.refl s.core)
    rw [step_nil hp] at ht
    cases ht
    exact ⟨kept.otp, kept.mem⟩
  | cons c rest =>
    have kept := exec_keeps (s := { s with pending := rest }) (Core.Le.refl _) c
    rw [← step_cons hp, ht] at kept
    exact ⟨kept.otp, kept.mem⟩

/-- Settles O1: it is the first case of `step`. -/
theorem stepRunsFront : Obligations.StepRunsFront :=
  fun _ _ _ hp => step_cons hp

/-- Settles O2: of what a tick brings, the clock alone advances the counter, and the sideband packets that are taken up leave it. -/
theorem stepOnEmptyQueueTicks : Obligations.StepOnEmptyQueueTicks :=
  fun s hp => ⟨_, step_nil hp, (State.tickStep_le (Core.Le.refl s.core)).tick⟩

/-- Settles O57. Every arm keeps the waiting commands and refuses nothing (`exec_keeps`). -/
theorem commandsAreCarriedOut : Obligations.CommandsAreCarriedOut := by
  refine ⟨fun c s t ht => ?_, fun c s r hr => ?_⟩
  · have kept := exec_keeps (Core.Le.refl s.core) c
    rw [ht] at kept
    exact kept.pending
  · have kept := exec_keeps (Core.Le.refl s.core) c
    rw [hr] at kept
    exact kept

/-- Settles O58, from the order `Otp.Le` that every function of the model keeps. -/
theorem otpIsNeverUndone : Obligations.OtpIsNeverUndone := by
  intro s t ht
  obtain ⟨locked, secret, root, revoked, fuses, floors, gen⟩ := (step_keeps ht).1
  exact ⟨locked, secret, root, revoked, fuses, floors, gen⟩

/-- Settles O59: a programmed slot keeps its hash. -/
theorem vendorRootsAreKept : Obligations.VendorRootsAreKept := by
  intro s t hs ht k hk
  obtain ⟨programmed, hash⟩ := hs k hk
  obtain ⟨programmed', hash'⟩ := (step_keeps ht).1.root k programmed
  exact ⟨programmed', hash'.trans hash⟩

/-- Settles O60: the Yard's bytes are written by functions that keep their form alone. -/
theorem yardStaysCanonical : Obligations.YardStaysCanonical :=
  fun _ _ hs ht => (step_keeps ht).2 hs

end Sys2Proof.Machine

/-! SUPPORT. The checks of a word decide before its effect, and BAR holds it. -/
namespace Sys2Proof.Machine

/-! ## A word held by BAR, and the same word let go -/

/-- The program of a word that BAR held, once the read that follows its writes has completed (R75). -/
def Prog.letGo (p : Prog) : Prog := { p with phase := .fetched, unacked := false }

/-- An engine whose program BAR holds runs it still when the word is let go (R137). -/
theorem State.running_letGo {s : State} {e : Nat} {p : Prog} (h : Stands s e p .bar) :
    (s.updProg e Prog.letGo).running e = some p.letGo := by
  obtain ⟨run, held⟩ := h
  have hp : (s.updProg e Prog.letGo).prog e = some p.letGo := by rw [State.updProg_prog, State.prog_of_running run]; rfl
  have same : (s.updProg e Prog.letGo).cluster (e / engPerCluster) = s.cluster (e / engPerCluster) := rfl
  unfold State.running at run ⊢
  rw [same, hp]
  rw [State.prog_of_running (by unfold State.running; exact run)] at run
  have handover : p.atHandover = true := by simp [Prog.atHandover, held]
  grind

theorem Stands.delivered_letGo {s : State} {e : Nat} {p : Prog} {ws : List Ccw} (h : Stands s e p .bar) (ho : p.op = ws) (hx : p.xf = none) :
    Delivered (s.updProg e Prog.letGo) e p.letGo ws :=
  ⟨State.running_letGo h, rfl, ho, hx, by simp [Prog.barred, Prog.letGo]⟩

/-! ## The rows of the words -/

/-- A row of the words is carried out as its checks find, and what it does then, `f`, is the same of a word that BAR has let go. `bar` says that it
waits for earlier writes whatever its BAR. -/
structure WordRow.Decides (e : Nat) (row : WordRow) (bar : Bool) (f : Prog → Ccw → State → State) : Prop where
  exec_eq {s : State} {p : Prog} {w : Ccw} {ws : List Ccw} (run : s.running e = some p) (ph : p.phase = .fetched ∨ p.phase = .bar) (ho : p.op = w :: ws)
    (hx : p.xf = none) (hm : row.2.1 w = true) : exec row.1 s = s.checkedBar e (row.2.2 s p w) bar (f p w)
  letGo (p : Prog) (w : Ccw) : f p.letGo w = f p w

section
variable {e : Nat} {i : Instr} {m : Ccw → Bool} {chk : State → Prog → Ccw → Option Bad} {bar : Bool} {f : Prog → Ccw → State → State}

theorem State.atWord_taken {s : State} {p : Prog} {w : Ccw} {ws : List Ccw} (run : s.running e = some p) (ph : p.phase = .fetched ∨ p.phase = .bar)
    (ho : p.op = w :: ws) (hm : m w = true) (g : Prog → Ccw → State → Answer) : s.atWord e m g = g p w s := by
  obtain ph | ph := ph <;> simp [State.atWord, run, ph, ho, hm]

/-- A row whose arm is the checks and then the effect. -/
theorem WordRow.Decides.of_atWord (he : ∀ s, exec i s = s.atWord e m fun p w s => s.checkedBar e (chk s p w) bar (f p w)) (hf : ∀ p w, f p.letGo w = f p w) :
    WordRow.Decides e (i, m, chk) bar f where
  exec_eq run ph ho _ hm := by rw [he, State.atWord_taken run ph ho hm]
  letGo := hf

/-- A data word: none of its bytes has moved (R113). -/
theorem WordRow.Decides.of_dataWord {opc : BitVec 8} {start : Prog → Ccw → State → State} {go : Prog → Xfr → Ccw → State → State}
    (he : ∀ s, exec i s = s.dataWord e opc (fun p w s => chk s p w) start go) (hm : m = fun w => decide (w.opc = opc))
    (hf : ∀ p w, start p.letGo w = start p w) : WordRow.Decides e (i, m, chk) false fun p w s => (start p w s).goOn e go where
  exec_eq {s p w ws} run ph ho hx hw := by
    have taken : decide (w.opc = opc) = true := by simpa [hm] using hw
    rw [he, State.dataWord, State.atWord_taken run ph ho taken, hx]
    rfl
  letGo p w := by rw [hf]

/-- What a CONTROL word does to port `n` once its checks have passed: the order on a port that takes it, and its device end (R99, R103). -/
def State.orderEffect (e : Nat) (x : Xfer) (busy : Nat → State → Bool) (act : Nat → Ccw → State → Byte × State) (w : Ccw) (n : Nat) (s : State) : State :=
  let att : Byte := if s.attention w.port then 0x08 else 0
  let r := if x.busy || busy n s then ((0x10 : Byte), s) else act n w s
  (r.2.updProg e (fun p => p.deviceDone 0 0 (1 ||| r.1 ||| att))).completeWord e .next

/-- A CONTROL order, of the port that its word names. -/
theorem WordRow.Decides.of_orderWord {k : Nat} {port : Nat → Option Nat} {operand : Bool} {x : Xfer} {busy : Nat → State → Bool}
    {act : Nat → Ccw → State → Byte × State} (he : ∀ s, exec i s = s.orderWord e k port operand x busy act) :
    WordRow.Decides e (i, orderIs k port, fun s p w => s.orderChecks p w operand) false
      fun _ w s => (port w.port).elim s fun n => s.orderEffect e x busy act w n where
  exec_eq {s p w ws} run ph ho hx hw := by
    have named : (port w.port).isSome = true := by
      simp only [orderIs, Bool.and_eq_true] at hw
      exact hw.1.2
    obtain ⟨n, hn⟩ := Option.isSome_iff_exists.mp named
    rw [he]
    refine (State.atWord_taken run ph ho hw _).trans ?_
    simp only [hn]
    rfl
  letGo _ _ := rfl

end

/-! ## Every row -/

/-- The row decides by its checks, and only a POST of a status word waits for earlier writes without BAR. -/
def WordRow.Checked (e : Nat) (x : Xfer) (row : WordRow) : Prop :=
  ∃ bar f, WordRow.Decides e row bar f ∧ (row.1 = .postStatusWord e x → bar = true)

theorem controlRows_checked (e : Nat) (x : Xfer) (r : Rd) (agree : Bool) : ∀ row ∈ controlRows e x r agree, WordRow.Checked e x row := by
  simp only [controlRows, List.forall_mem_cons, List.not_mem_nil, false_imp_iff, implies_true, and_true]
  refine ⟨?_, ?_, ?_, ?_, ?_, ?_, ?_, ?_, ?_, ?_, ?_, ?_, ?_, ?_, ⟨_, _, .of_atWord (fun _ => rfl) fun _ _ => rfl, fun _ => rfl⟩⟩
  all_goals exact ⟨_, _, .of_atWord (fun _ => rfl) fun _ _ => rfl, nofun⟩

theorem deviceRows_checked (e : Nat) (x : Xfer) : ∀ row ∈ deviceRows e x, WordRow.Checked e x row := by
  simp only [deviceRows, List.forall_mem_cons, List.not_mem_nil, false_imp_iff, implies_true, and_true]
  refine ⟨?_, ?_, ?_, ?_, ?_, ?_, ?_, ?_, ?_⟩
  all_goals exact ⟨_, _, .of_atWord (fun _ => rfl) fun _ _ => rfl, nofun⟩

theorem dataRows_checked (e : Nat) (x : Xfer) : ∀ row ∈ dataRows e x, WordRow.Checked e x row := by
  simp only [dataRows, List.forall_mem_cons, List.not_mem_nil, false_imp_iff, implies_true, and_true]
  refine ⟨?_, ?_, ?_, ?_, ?_, ?_, ?_, ?_, ?_⟩
  all_goals exact ⟨_, _, .of_dataWord (fun _ => rfl) rfl fun _ _ => rfl, nofun⟩

theorem orderRows_checked (e : Nat) (x : Xfer) : ∀ row ∈ orderRows e x, WordRow.Checked e x row := by
  simp only [orderRows, List.forall_mem_cons, List.not_mem_nil, false_imp_iff, implies_true, and_true]
  refine ⟨?_, ?_, ?_, ?_, ?_, ?_, ?_, ?_, ?_, ?_, ?_, ?_⟩
  all_goals exact ⟨_, _, .of_orderWord fun _ => rfl, nofun⟩

theorem wordRows_checked (e : Nat) (x : Xfer) (r : Rd) (agree : Bool) : ∀ row ∈ wordRows e x r agree, WordRow.Checked e x row := by
  simp only [wordRows, List.forall_mem_append]
  exact ⟨⟨⟨controlRows_checked e x r agree, deviceRows_checked e x⟩, dataRows_checked e x⟩, orderRows_checked e x⟩

/-! ## What BAR does (R75) -/

/-- A word that waits for earlier writes is held, and the read that follows them is driven. -/
theorem State.checkedBar_held {s : State} {e : Nat} {p : Prog} {bar : Bool} (f : State → State) (hp : s.prog e = some p) (ph : p.phase = .fetched)
    (hb : p.barred bar = true) :
    s.checkedBar e none bar f = .next (((s.ack e).updProg e (fun q => { q with phase := .bar })).drive (.hostFlush p.fn)) := by
  simp [State.checkedBar, State.afterBar, hp, ph, hb]

/-- A word that BAR held, its writes acknowledged, has the effect of a delivered one whose checks have passed. -/
theorem State.checkedBar_letGo {s : State} {e : Nat} {p : Prog} (b : Option Bad) (bar : Bool) (f : State → State) (hp : s.prog e = some p)
    (ph : p.phase = .bar) (hi : s.canIssue p.fn = true) : s.checkedBar e b bar f = .next (f (s.updProg e Prog.letGo)) := by
  simp [State.checkedBar, State.afterBar, hp, ph, hi]
  rfl

/-- Where the function can issue no more requests, the word that BAR holds ends its program (R75, R323). -/
theorem State.checkedBar_noPath {s : State} {e : Nat} {p : Prog} (b : Option Bad) (bar : Bool) (f : State → State) (hp : s.prog e = some p)
    (ph : p.phase = .bar) (hi : s.canIssue p.fn = false) : s.checkedBar e b bar f = .next (s.endAtWord e Ending.linkFault 0) := by
  simp [State.checkedBar, State.afterBar, hp, ph, hi]

/-- Settles O3: each row is its checks and then its effect (`wordRows_checked`), and BAR stands between the two. -/
theorem wordChecksDecide : Obligations.WordChecksDecide := by
  intro e x r agree s p w ws i m chk hrow hm
  obtain ⟨bar, f, hf, hbar⟩ := wordRows_checked e x r agree _ hrow
  refine ⟨fun d => ?checks, fun d hc hb => ?held, fun h ho hx => ?letGo⟩
  case checks =>
    obtain ⟨run, ph, ho, hx, -⟩ := id d
    have arm : exec i s = _ := hf.exec_eq run (.inl ph) ho hx hm
    rw [arm]
    exact ⟨fun n k hk => State.checked_ends d _ _ _ n k hk, fun hu => State.checked_undef d _ _ _ hu⟩
  case held =>
    obtain ⟨run, ph, ho, hx, hu⟩ := d
    have arm : exec i s = _ := hf.exec_eq run (.inl ph) ho hx hm
    have waits : p.barred bar = true := by
      obtain hb | hb := hb
      · simp [Prog.barred, ho, hb, hu]
      · simp [Prog.barred, hbar hb, hu]
    refine arm.trans ?_
    simp only [hc]
    exact State.checkedBar_held _ (State.prog_of_running run) ph waits
  case letGo =>
    have d := h.delivered_letGo ho hx
    obtain ⟨run, ph⟩ := h
    have arm : exec i s = _ := hf.exec_eq run (.inr ph) ho hx hm
    refine ⟨fun hi hc => ?_, fun hi => arm.trans (State.checkedBar_noPath _ _ _ (State.prog_of_running run) ph hi)⟩
    have again : exec i (s.updProg e Prog.letGo) = _ := hf.exec_eq d.1 (.inl rfl) ho hx hm
    refine arm.trans ((State.checkedBar_letGo _ _ _ (State.prog_of_running run) ph hi).trans (Eq.symm (again.trans ?_)))
    rw [hf.letGo]
    exact State.checkedBar_none d _ _ _ (by simp [Prog.barred, Prog.letGo]) hc

end Sys2Proof.Machine

/-! SUPPORT. Control words, and how a word completes. -/
namespace Sys2Proof.Machine

/-- A counter that one decrement uses up stood at 1. -/
theorem eq_one_of_sub_one {n : Nat} {x : BitVec n} (h : x - 1 = 0) : x = 1 := (BitVec.sub_eq_iff_eq_add.mp h).trans (BitVec.zero_add _)

section
variable {s : State} {e : Nat} {p : Prog} {w : Ccw}

/-! ## The completion of a word (R70, R103, R151) -/

/-- The state once the word in hand of program `p` of engine `e` has completed and the program goes on at `a`. -/
def State.wordDoneAt (s : State) (e : Nat) (p : Prog) (a : W64) : State := (s.ack e).updProg e (fun _ => p.done a)

theorem State.onlyProg_wordDoneAt (h : s.prog e = some p) (a : W64) : OnlyProg (s.ack e) (s.wordDoneAt e p a) e (p.done a) :=
  onlyProg_updProg (s.ack e) e p _ h

theorem State.wordDoneAt_prog (h : s.prog e = some p) (a : W64) : (s.wordDoneAt e p a).prog e = some (p.done a) := by
  rw [State.wordDoneAt, State.updProg_prog, State.ack_prog, h, Option.map_some]

/-- What a word leaves that continues at `a`: a pending halt ends its program, a pending hold suspends it (R120, R123). -/
theorem State.completeWord_jump (h : s.prog e = some p) (c : p.chan = none) (a : W64) :
    s.completeWord e (.jump a)
      = (if p.haltPend then (s.wordDoneAt e p a).endAtLast e Ending.halted else if p.holdPend then (s.wordDoneAt e p a).suspendProg e .host a
        else s.wordDoneAt e p a) := by
  have done : s.completeWord e (.jump a) = (s.wordDoneAt e p a).atBoundary e := by
    simp only [State.completeWord, h, State.dropChan_none s e dsOk p h c]
    exact congrArg (State.atBoundary · e) (State.updProg_congr _ e p _ _ h rfl)
  rw [done, State.atBoundary, State.wordDoneAt_prog h]
  rfl

/-- The same of a word that continues at the next, which a last word without LNK does not (R70). -/
theorem State.completeWord_next (h : s.prog e = some p) (c : p.chan = none) :
    s.completeWord e .next
      = (if p.haltPend then (s.wordDone e p).endAtLast e Ending.halted else if p.opLnk = false then (s.wordDone e p).endNormal e false
        else if p.holdPend then (s.wordDone e p).suspendProg e .host p.after else s.wordDone e p) := by
  have jump := State.completeWord_jump h c p.after
  by_cases ends : p.opLnk = false ∧ p.haltPend = false
  · obtain ⟨hl, hh⟩ := ends
    rw [State.completeWord_next_ends h c hl hh, hh, hl]
    rfl
  · have on : s.completeWord e .next = s.completeWord e (.jump p.after) := by
      have goes : (p.opLnk || p.haltPend) = true := by
        cases hl : p.opLnk <;> cases hh : p.haltPend <;> simp_all
      simp only [State.completeWord, h, goes, if_true]
      rfl
    rw [on, jump]
    change _ = if p.haltPend then (s.wordDoneAt e p p.after).endAtLast e Ending.halted else _
    cases hh : p.haltPend
    · have hl : p.opLnk = true := by simpa [hh] using ends
      rw [hl]
      rfl
    · rfl

/-- A word that ends its program normally, unless a halt waits for it (R87, R123). -/
theorem State.completeWord_stop (h : s.prog e = some p) (c : p.chan = none) (ue : Bool) :
    s.completeWord e (.stop ue) = (if p.haltPend then (s.wordDone e p).endAtLast e Ending.halted else (s.wordDone e p).endNormal e ue) := by
  cases hh : p.haltPend
  · exact State.completeWord_stop_ends h c hh ue
  · have on : s.completeWord e (.stop ue) = s.completeWord e (.jump p.after) := by
      simp only [State.completeWord, h, hh, if_true]
      rfl
    rw [on, State.completeWord_jump h c, hh]
    rfl

/-! ## Words that continue at a target -/

theorem State.chainTo_some (s : State) (e : Nat) {t : Option W64} {a : W64} (h : t = some a) : s.chainTo e t = s.completeWord e (.jump a) := by rw [h, State.chainTo]
theorem State.chainTo_none (s : State) (e : Nat) {t : Option W64} (h : t = none) : s.chainTo e t = s.endAtWord e Ending.chainFault 0 := by rw [h, State.chainTo]

theorem exec_nop (d : Delivered s e p [w]) (hw : w.opc = 0) (hc : zeroChecks p w false = none) : exec (.nop e) s = .next (s.completeWord e .next) := by
  change execNop e s = _
  rw [execNop, State.atWord_delivered d _ _ (by simp [hw]), State.checked_none d _ _ hc]

/-- LOOP after its decrement continues at the target, unless the register was or becomes 0 (Table 3.8). -/
theorem exec_loop (d : Delivered s e p [w]) (hw : w.opc = 2)
    (hc : ctlChecks p w (chainSpace w) (!chainPlain w true || decide (15 < w.sub.toNat)) false [] = none) :
    exec (.loop e) s = .next (if p.getGp w.sub.toNat = 0 then s.completeWord e .next
      else if p.getGp w.sub.toNat - 1 = 0 then (s.updProg e (fun q => q.setGp w.sub.toNat (p.getGp w.sub.toNat - 1))).completeWord e .next
      else (s.updProg e (fun q => q.setGp w.sub.toNat (p.getGp w.sub.toNat - 1))).chainTo e (p.target w)) := by
  change execLoop e s = _
  rw [execLoop, State.atWord_delivered d _ _ (by simp [hw]), State.checked_none d _ _ hc]

theorem exec_branch (d : Delivered s e p [w]) (hw : w.opc = 3)
    (hc : ctlChecks p w (chainSpace w) (!chainPlain w true || decide (8 < w.sub.toNat)) false [] = none) :
    exec (.branch e) s = .next (if p.cond w.sub.toNat then s.chainTo e (p.target w) else s.completeWord e .next) := by
  change execBranch e s = _
  rw [execBranch, State.atWord_delivered d _ _ (by simp [hw]), State.checked_none d _ _ hc]

theorem exec_call_noTarget (d : Delivered s e p [w]) (hw : w.opc = 9) (hc : ctlChecks p w (chainSpace w) (!chainPlain w false) false [] = none)
    (room : p.stack.length < 4) (ht : p.target w = none) : exec (.call e) s = .next (s.endAtWord e Ending.chainFault 0) := by
  change execCall e s = _
  rw [execCall, State.atWord_delivered d _ _ (by simp [hw]), State.checked_none d _ _ hc, if_neg (Nat.not_le.mpr room), ht]

theorem exec_ret (d : Delivered s e p [w]) (hw : w.opc = 0x0A) (hc : zeroChecks p w false = none) {a : W64} {rest : List W64} (hs : p.stack = a :: rest) :
    exec (.ret e) s = .next ((s.updProg e (fun q => { q with stack := rest })).completeWord e (.jump a)) := by
  change execRet e s = _
  rw [execRet, State.atWord_delivered d _ _ (by simp [hw]), State.checked_none d _ _ hc, hs]

section
variable {r : Rd} (d : Delivered s e p [w]) (hw : w.opc = 1) (hc : ctlChecks p w (chainSpace w) (!chainPlain w false) false [] = none)
include d hw hc

theorem exec_tic_noTarget (ht : p.target w = none) : exec (.tic e r) s = .next (s.endAtWord e Ending.chainFault 0) := by
  change execTic e r s = _
  rw [execTic, State.atWord_delivered d _ _ (by simp [hw]), State.checked_none d _ _ hc, ht]

/-- TIC looks at the word of its target once the line has come (R82, R112). -/
theorem exec_tic_line {a : W64} {line : List Byte} {u : State} (ht : p.target w = some a)
    (hl : s.fetchLine e p a.toNat [(lineOf a.toNat, r)] = .line line u) :
    exec (.tic e r) s = .next (if leAt (line.drop (a.toNat % 64)) 0 1 = (if p.v1 then 8 else 1) then u.endAtWord e Ending.chainFault 0
      else u.completeWord e (.jump a)) := by
  change execTic e r s = _
  rw [execTic, State.atWord_delivered d _ _ (by simp [hw]), State.checked_none d _ _ hc, ht]
  simp only [hl]

theorem exec_tic_error {a : W64} {u : State} (ht : p.target w = some a) (hl : s.fetchLine e p a.toNat [(lineOf a.toNat, r)] = .error u) :
    exec (.tic e r) s = .next ((u.completeWord e (.jump a)).endProg e (if p.yard then Ending.dataFault else Ending.linkFault) a) := by
  change execTic e r s = _
  rw [execTic, State.atWord_delivered d _ _ (by simp [hw]), State.checked_none d _ _ hc, ht]
  simp only [hl]

end

end

/-- Settles O5: the arm of each control word, the completion of a word by its destination, and TIC by what the fetch of its target gives. -/
theorem controlWordsContinue : Obligations.ControlWordsContinue := by
  refine ⟨fun e s p w d => ⟨exec_nop d, fun hw hc => ⟨fun h0 => ?_, fun h1 => ?_, fun h0 h1 => ⟨fun a ha => ?_, fun hn => ?_⟩⟩,
      fun hw hc => ⟨fun hf => ?_, fun ht => ⟨fun a ha => ?_, fun hn => ?_⟩⟩,
      fun hw hc room => ⟨fun a => exec_call_pushes d hw hc room, exec_call_noTarget d hw hc room⟩, fun hw hc a rest => exec_ret d hw hc⟩,
    fun e s p h c => ⟨⟨_, State.onlyProg_wordDone h, State.completeWord_next h c⟩, fun a => ⟨_, State.onlyProg_wordDoneAt h a, State.completeWord_jump h c a⟩⟩,
    fun e r s u p w a d hw hc => ⟨exec_tic_noTarget d hw hc, fun ht => ⟨fun line hl => ⟨fun hn => ?_, fun hi => ?_⟩, exec_tic_error d hw hc ht⟩⟩⟩
  · rw [exec_loop d hw hc, if_pos h0]
  · have last : p.getGp w.sub.toNat - 1 = 0 := by rw [h1]; rfl
    have first : p.getGp w.sub.toNat ≠ 0 := by rw [h1]; decide
    rw [exec_loop d hw hc, if_neg first, if_pos last, h1]
  · rw [exec_loop d hw hc, if_neg h0, if_neg (fun h => h1 (eq_one_of_sub_one h)), State.chainTo_some _ e ha]
  · rw [exec_loop d hw hc, if_neg h0, if_neg (fun h => h1 (eq_one_of_sub_one h)), State.chainTo_none _ e hn]
  · rw [exec_branch d hw hc, hf]
    rfl
  · rw [exec_branch d hw hc, if_pos ht, State.chainTo_some s e ha]
  · rw [exec_branch d hw hc, if_pos ht, State.chainTo_none s e hn]
  · rw [exec_tic_line d hw hc ht hl, if_neg hn]
  · rw [exec_tic_line d hw hc ht hl, if_pos hi]

end Sys2Proof.Machine

/-! SUPPORT. Register words, LOADG and STOREG. -/
namespace Sys2Proof.Machine

section
variable {s : State} {e : Nat} {p : Prog} {w : Ccw}

/-! ## Register words (R96, Table 3.12) -/

/-- The change `f` of the program and the completion of its word, in a program that goes on after it. -/
theorem Delivered.onlyProg_updates (d : Delivered s e p [w]) {f : Prog → Prog} (hc : (f p).chan = p.chan) (go : (f p).goesOn) (ha : (f p).after = p.after) :
    OnlyProg (s.ack e) ((s.updProg e f).completeWord e .next) e ((f p).done p.after) :=
  onlyProg_updProg_completeWord s e p f d.prog (hc.trans d.chan) go ha

theorem exec_setg (d : Delivered s e p [w]) (hw : w.opc = 0x20)
    (hc : ctlChecks p w (decide (w.space = 0)) (!w.plain false true false true || decide (15 < w.sub.toNat)) false [] = none) :
    exec (.setg e) s = .next ((s.updProg e (fun q => q.setGp w.sub.toNat w.addr)).completeWord e .next) := by
  change execSetg e s = _
  rw [execSetg, State.atWord_delivered d _ _ (by simp [hw]), State.checked_none d _ _ hc]

theorem exec_addg (d : Delivered s e p [w]) (hw : w.opc = 0x21) (hc : ctlChecks p w (decide (w.space = 0)) (arithUndef w) false [] = none) :
    exec (.addg e) s = .next ((s.updProg e (fun q =>
      let r := addFlags (p.getGp w.sub.toNat) (p.operand w)
      (q.setGp w.sub.toNat r.1).setFlags r.2.1 r.2.2.1 r.2.2.2)).completeWord e .next) := by
  change execAddg e s = _
  rw [execAddg, State.atWord_delivered d _ _ (by simp [hw]), State.checked_none d _ _ hc]

theorem exec_testg (d : Delivered s e p [w]) (hw : w.opc = 0x24) (hc : ctlChecks p w (decide (w.space = 0)) (arithUndef w) false [] = none) :
    exec (.testg e) s = .next ((s.updProg e (fun q =>
      let r := subFlags (p.getGp w.sub.toNat) (p.operand w)
      q.setFlags r.2.1 r.2.2.1 r.2.2.2)).completeWord e .next) := by
  change execTestg e s = _
  rw [execTestg, State.atWord_delivered d _ _ (by simp [hw]), State.checked_none d _ _ hc]

/-! ## LOADG and STOREG (R80, R96) -/

/-- What a LOADG does with the bytes that it got. -/
def State.loadgDone (s : State) (e : Nat) (w : Ccw) (bs : List Byte) : State :=
  (s.updProg e (fun q => (q.setGp w.sub.toNat (BitVec.ofNat 64 (leNat bs))).flagsOf (BitVec.ofNat 64 (leNat bs)))).completeWord e .next

/-- LOADG reads its bytes as one piece, unless a HOST transfer failed or fell short. -/
theorem exec_loadg (d : Delivered s e p [w]) (hw : w.opc = 0x22) (hc : s.regMemChecks p w false = none) (x : Xfer) :
    exec (.loadg e x) s = .next (
      match (if decide ((p.eff w).space = spHost) then (if x.status = .ok ∧ x.data.length < w.count.toNat then some Ending.linkFault
        else xferEnding x.status true) else none) with
      | some b => s.endAtWord e b 0
      | none =>
        let g := s.readPiece e { space := (p.eff w).space, addr := (p.eff w).addr, len := w.count.toNat } x.data
        match g.fail with
        | some f => g.st.endAtWord e f.2 0
        | none => g.st.loadgDone e w g.bytes) := by
  change execLoadg e x s = _
  rw [execLoadg, State.atWord_delivered d _ _ (by simp [hw]), State.checked_none d _ _ hc]
  rfl

section
variable (d : Delivered s e p [w]) (hw : w.opc = 0x22) (hc : s.regMemChecks p w false = none) (x : Xfer)
include d hw hc

theorem exec_loadg_local (hs : (p.eff w).space = spLocal) :
    exec (.loadg e x) s = .next (s.loadgDone e w ((s.localStore e).readN (p.eff w).addr.toNat w.count.toNat)) := by
  rw [exec_loadg d hw hc]
  simp [hs, State.readPiece, spLocal, spHost, spYard]

theorem exec_loadg_host (hs : (p.eff w).space = spHost) (hok : x.status = .ok) (hl : w.count.toNat ≤ x.data.length) :
    exec (.loadg e x) s = .next (s.loadgDone e w (x.data.take w.count.toNat)) := by
  rw [exec_loadg d hw hc]
  simp [hs, hok, xferEnding, Nat.not_lt.mpr hl, State.readPiece]

theorem exec_loadg_host_ends (hs : (p.eff w).space = spHost) {b : Ending} (hb : xferEnding x.status true = some b) :
    exec (.loadg e x) s = .next (s.endAtWord e b 0) := by
  have failed : x.status ≠ .ok := by
    rintro h
    rw [h] at hb
    cases hb
  rw [exec_loadg d hw hc]
  simp [hs, failed, hb]

theorem exec_loadg_yard (hs : (p.eff w).space = spYard) (hg : s.yard.firstBad (p.eff w).addr.toNat w.count.toNat = none) :
    exec (.loadg e x) s = .next (s.loadgDone e w (s.yard.read (p.eff w).addr.toNat w.count.toNat)) := by
  rw [exec_loadg d hw hc]
  simp [hs, State.readPiece, spHost, spYard, hg]

/-- An uncorrectable word in the Yard's range is reported, and ends the program (R485). -/
theorem exec_loadg_yard_bad (hs : (p.eff w).space = spYard) {a : Nat} (hb : s.yard.firstBad (p.eff w).addr.toNat w.count.toNat = some a) :
    exec (.loadg e x) s = .next ((s.reportBad a 1).endAtWord e Ending.dataFault 0) := by
  rw [exec_loadg d hw hc]
  simp [hs, State.readPiece, spHost, spYard, hb]

end

/-- STOREG writes its bytes as one piece, unless a HOST transfer failed. -/
theorem exec_storeg (d : Delivered s e p [w]) (hw : w.opc = 0x23) (hc : s.regMemChecks p w true = none) (x : Xfer) :
    exec (.storeg e x) s = .next (
      match (if (p.eff w).space = spHost then xferEnding x.status true else none) with
      | some b => s.endAtWord e b 0
      | none => (s.writePiece e p.fn { space := (p.eff w).space, addr := (p.eff w).addr, len := w.count.toNat }
          (leBytes w.count.toNat (p.getGp w.sub.toNat).toNat)).completeWord e .next) := by
  change execStoreg e x s = _
  rw [execStoreg, State.atWord_delivered d _ _ (by simp [hw]), State.checked_none d _ _ hc] <;> rfl

/-- A transfer that was served, or that needed none, has no ending. -/
theorem xferEnding_none {k : Nat} {x : Xfer} (h : k = spHost → x.status = .ok) : (if k = spHost then xferEnding x.status true else none) = none := by
  split
  next hk => rw [h hk]; rfl
  · rfl

end

/-- Settles O4: the arm of each register word, whose effect is an update of the program alone, and of LOADG and STOREG by where their bytes are. -/
theorem registerWordsRun : Obligations.RegisterWordsRun := by
  refine ⟨fun e x s p w d => ⟨fun hw hc => ?_, fun hw hc => ?_, fun hw hc => ?_, fun hw hc hs => ?_⟩,
    fun e x s p w d => ⟨fun hw hc hs => ⟨exec_loadg_host d hw hc x hs, fun b => exec_loadg_host_ends d hw hc x hs⟩,
      fun hw hc hs => ⟨exec_loadg_yard d hw hc x hs, fun a => exec_loadg_yard_bad d hw hc x hs⟩, fun hw hc => ⟨fun hok => ?_, fun b hs hb => ?_⟩⟩⟩
  · exact ⟨_, exec_setg d hw hc, rfl, fun go => d.onlyProg_updates rfl go rfl⟩
  · exact ⟨_, exec_addg d hw hc, rfl, fun go => d.onlyProg_updates rfl go rfl⟩
  · exact ⟨_, exec_testg d hw hc, rfl, fun go => d.onlyProg_updates rfl go rfl⟩
  · exact ⟨_, exec_loadg_local d hw hc x hs, rfl, fun go => d.onlyProg_updates rfl go rfl⟩
  · rw [exec_storeg d hw hc, xferEnding_none hok]
  · rw [exec_storeg d hw hc, if_pos hs, hb]

end Sys2Proof.Machine

/-! SUPPORT. HALT, SUSPEND and POST. -/
namespace Sys2Proof.Machine

section
variable {s : State} {e : Nat} {p : Prog} {w : Ccw}

/-! ## HALT and SUSPEND (R73, R87, R120, R123) -/

theorem exec_halt (d : Delivered s e p [w]) (hw : w.opc = 7)
    (hc : ctlChecks p w (decide (w.space = 0)) (!w.plain false true false false || decide (1 < w.sub.toNat)) false [] = none) :
    exec (.halt e) s = .next (s.completeWord e (.stop (w.sub.getLsbD 0))) := by
  change execHalt e s = _
  rw [execHalt, State.atWord_delivered d _ _ (by simp [hw]), State.checked_none d _ _ hc]

/-- The program of an operation of one word, once that word has completed. -/
theorem Prog.done_single (ho : p.op = [w]) :
    p.done p.after = { p with
      steps := p.steps + 1, last := p.pc, anyDone := true, op := [], noted := false, moved := 0, further := false, xf := none, resumed := false
      pc := p.opAddr 1, phase := .boundary } := by
  simp [Prog.done, Prog.after, ho, Prog.opAddr]

/-- A SUSPEND counts, and then suspends its program, unless a halt waits for it. -/
theorem exec_suspend (d : Delivered s e p [w]) (hw : w.opc = 6) (hc : zeroChecks p w (decide (p.cls ≤ 1)) = none) :
    exec (.suspend e) s = .next (if p.haltPend then (s.updProg e (fun _ => p.done p.after)).endAtLast e Ending.halted
      else (s.updProg e (fun _ => p.done p.after)).suspendProg e (.word w.lnk) p.pc) := by
  have counted : s.updProg e (fun _ => p.done p.after) = s.updProg e (fun q => { q with
      steps := q.steps + 1, last := q.pc, anyDone := true, op := [], noted := false, moved := 0, further := false, xf := none, resumed := false
      pc := q.opAddr 1, phase := .boundary }) := State.updProg_congr s e p _ _ d.prog (Prog.done_single d.2.2.1)
  change execSuspend e s = _
  rw [execSuspend, State.atWord_delivered d _ _ (by simp [hw]), State.checked_none d _ _ hc, counted]

/-- Whatever else a check of it finds, a word without operands that its class forbids ends its program (R73, R104). -/
theorem zeroChecks_range (hr : w.reservedBits = false) (hp : w.plain false false false false = true) :
    zeroChecks p w true = some (.ends Ending.programFault 0) := by
  have first : ∀ a b c : Bool, ∀ l, firstBad (badIf a Ending.programFault 0 :: badIf b Ending.programFault 0 :: badIf c Ending.programFault 0
      :: badIf true Ending.programFault 0 :: l) = some (.ends Ending.programFault 0) := by
    rintro (_ | _) (_ | _) (_ | _) l <;> rfl
  rw [zeroChecks, ctlChecks, hr, hp]
  exact first ..

theorem exec_suspend_class (d : Delivered s e p [w]) (hw : w.opc = 6) (hcls : p.cls ≤ 1) (hr : w.reservedBits = false)
    (hp : w.plain false false false false = true) : exec (.suspend e) s = .next (s.endAtWord e Ending.programFault 0) := by
  have hc : zeroChecks p w (decide (p.cls ≤ 1)) = some (.ends Ending.programFault 0) := by
    rw [decide_eq_true hcls]
    exact zeroChecks_range hr hp
  change execSuspend e s = _
  rw [execSuspend, State.atWord_delivered d _ _ (by simp [hw])]
  exact State.checked_ends d _ false _ _ _ hc

/-! ## POST (R75, R88, R175) -/

/-- A POST of a notice waits, before its checks, while four completions of its program are held. -/
theorem exec_postNotice_waits (d : Delivered s e p [w]) (hw : w.opc = 8) (hk : w.sub = 0) (h : 4 ≤ s.notesHeld e p.cqid) :
    exec (.postNotice e) s = .next (s.updProg e (fun q => { q with phase := .noteHold, noted := true })) := by
  change execPostNotice e s = _
  rw [execPostNotice, State.atWord_delivered d _ _ (by simp [hw, hk]), if_pos h]

theorem exec_postNotice (d : Delivered s e p [w]) (hw : w.opc = 8) (hk : w.sub = 0) (h : s.notesHeld e p.cqid < 4)
    (hc : ctlChecks p w (decide (w.space = 0)) (!w.plain false false true false) false [] = none) :
    exec (.postNotice e) s = .next (if p.cls = 0 && decide (s.noticesMax p ≤ p.notices) then s.endAtWord e Ending.programFault 0
      else ((s.pushNotice e p w.count.toNat).updProg e (fun q => { q with notices := q.notices + 1 })).completeWord e .next) := by
  change execPostNotice e s = _
  rw [execPostNotice, State.atWord_delivered d _ _ (by simp [hw, hk]), if_neg (Nat.not_le.mpr h), State.checked_none d _ _ hc]

/-- A POST of a status word, with no write of its program on its way, writes GPn as one piece, unless a HOST transfer failed. -/
theorem exec_postStatusWord (d : Delivered s e p [w]) (hw : w.opc = 8) (hk : w.sub = 1) (hc : s.statusChecks p w = none) (hu : p.unacked = false)
    (x : Xfer) :
    exec (.postStatusWord e x) s = .next (
      match (if w.space.toNat = spHost then xferEnding x.status true else none) with
      | some b => s.endAtWord e b 0
      | none => (s.writePiece e p.fn { space := w.space.toNat, addr := w.addr, len := 8 } (leBytes 8 (p.getGp w.mode.toNat).toNat)).completeWord e .next) := by
  change execPostStatusWord e x s = _
  rw [execPostStatusWord, State.atWord_delivered d _ _ (by simp [hw, hk]), State.checkedBar_none d _ true _ (by simp [Prog.barred, hu]) hc] <;> rfl

end

/-- Settles O7: HALT completes as a word that ends its program, SUSPEND by its own count, and its class is one of its checks. -/
theorem haltAndSuspend : Obligations.HaltAndSuspend := by
  refine ⟨fun e s p w d hw hc => ?_, fun e s p w d hw => ⟨fun hc => ⟨_, onlyProg_updProg s e p _ d.prog, exec_suspend d hw hc⟩, exec_suspend_class d hw⟩⟩
  refine ⟨_, State.onlyProg_wordDone d.prog, ?_⟩
  rw [exec_halt d hw hc, State.completeWord_stop d.prog d.chan]

/-- Settles O8: a notice is held, refused by its bound or raised, and a status word is written as one piece. -/
theorem postWordsRun : Obligations.PostWordsRun := by
  refine fun e x s p w d hw => ⟨fun hk => ⟨exec_postNotice_waits d hw hk, fun h hc => ⟨fun h0 hn => ?_, fun hn => ?_⟩⟩,
    fun hk hc hu => ⟨fun hok => ?_, fun b hs hb => ?_⟩⟩
  · rw [exec_postNotice d hw hk h hc, if_pos (by simp [h0, hn])]
  · have within : (decide (p.cls = 0) && decide (s.noticesMax p ≤ p.notices)) = false := by
      simpa using hn
    rw [exec_postNotice d hw hk h hc, within]
    rfl
  · rw [exec_postStatusWord d hw hk hc hu, xferEnding_none hok]
  · rw [exec_postStatusWord d hw hk hc hu, if_pos hs, hb]

end Sys2Proof.Machine

/-! SUPPORT. SIGNAL and WAIT. -/
namespace Sys2Proof.Machine

section
variable {s : State} {e : Nat} {p : Prog} {w : Ccw}

/-! ## SIGNAL (R86, R148) -/

/-- A SIGNAL whose checks find nothing acts on its target. -/
theorem Delivered.signal {k : Nat} {undef : W64 → Bool} {access : Prog → W64 → State → Option Bad} (d : Delivered s e p [w]) (hw : w.opc = 5)
    (hk : w.sub.toNat = k) (hc : signalChecks p w (undef w.addr) (access p w.addr s) = none) (f : Prog → W64 → State → State) :
    s.signal e k undef access f = .next (f p w.addr s) := by
  rw [State.signal, State.atWord_delivered d _ _ (by simp [hw, hk]), State.checked_none d _ _ hc]

theorem exec_signalDoorbell (d : Delivered s e p [w]) (hw : w.opc = 5) (hk : w.sub = 1)
    (hc : signalChecks p w (decide (fld w.addr 12 20 ≠ 0) || decide (fld w.addr 48 16 ≠ 0))
      (badIf (match s.sq (fld w.addr 0 12) with | some q => decide (q.fn ≠ p.fn) | none => true) Ending.protectionFault 0) = none) :
    exec (.signalDoorbell e) s = .next ((s.ringSq (fld w.addr 0 12) (fld w.addr 32 16)).completeWord e .next) := by
  change execSignalDoorbell e s = _
  unfold execSignalDoorbell
  refine d.signal hw (by rw [hk]; rfl) ?_ _
  exact hc

theorem exec_signalInterrupt (d : Delivered s e p [w]) (hw : w.opc = 5) (hk : w.sub = 2)
    (hc : signalChecks p w (decide (fld w.addr 8 56 ≠ 0)) none = none) :
    exec (.signalInterrupt e) s = .next ((s.sendMsix p.fn (fld w.addr 0 8)).completeWord e .next) := by
  change execSignalInterrupt e s = _
  unfold execSignalInterrupt
  refine d.signal hw (by rw [hk]; rfl) ?_ _
  exact hc

/-- An arrival counts at its barrier, and completes it where its count is reached (R147). -/
theorem exec_signalBarrierArrival (d : Delivered s e p [w]) (hw : w.opc = 5) (hk : w.sub = 4)
    (hc : signalChecks p w (decide (fld w.addr 8 56 ≠ 0)) (s.arrivalChecks e p (fld w.addr 0 8)) = none) :
    let u := ((s.updProg e (fun q => { q with arrivals := q.arrivals.put (fld w.addr 0 8) (s.bar (fld w.addr 0 8)).done })).updBar (fld w.addr 0 8)
      (fun b => { b with arrived := b.arrived + 1 })).completeWord e .next
    exec (.signalBarrierArrival e) s =
      .next (if (u.bar (fld w.addr 0 8)).count ≤ (u.bar (fld w.addr 0 8)).arrived then u.barrierDone (fld w.addr 0 8) else u) := by
  change execSignalBarrierArrival e s = _
  unfold execSignalBarrierArrival
  refine d.signal hw (by rw [hk]; rfl) ?_ _
  exact hc

theorem exec_signalRequestAcknowledge (d : Delivered s e p [w]) (hw : w.opc = 5) (hk : w.sub = 5)
    (hc : signalChecks p w (decide (fld w.addr 4 60 ≠ 0)) none = none) :
    exec (.signalRequestAcknowledge e) s = .next ((s.drive (.dack (fld w.addr 0 4))).completeWord e .next) := by
  change execSignalRequestAcknowledge e s = _
  unfold execSignalRequestAcknowledge
  refine d.signal hw (by rw [hk]; rfl) ?_ _
  exact hc

/-- SIGNAL of a mailbox word, from end `i` of the channel of the function's engines. -/
theorem exec_signalMailboxWord (d : Delivered s e p [w]) (hw : w.opc = 5) (hk : w.sub = 3)
    (hc : signalChecks p w (decide (fld w.addr 12 52 ≠ 0)) (badIf (s.engineEnd (fld w.addr 0 8) p.mid).isNone Ending.protectionFault 0) = none)
    {i : Bool} (hi : s.engineEnd (fld w.addr 0 8) p.mid = some i) (agree : Bool) :
    exec (.signalMailboxWord e agree) s = .next (
      if ((s.mchan (fld w.addr 0 8)).side i).aborted then
        (s.updMchan (fld w.addr 0 8) (fun c => c.updSide i (fun m => { m with aborted := false }))).endAtWord e Ending.linkFault 0
      else if !agree then (s.mbxForeign p.mid (fld w.addr 0 8)).completeWord e .next
      else if mbxDepth ≤ ((s.mchan (fld w.addr 0 8)).outq i).length then (s.ack e).updProg e (fun p => { p with phase := .mbxFull })
      else (s.mbxQueue (fld w.addr 0 8) i (p.getGp (fld w.addr 8 4))).completeWord e .next) := by
  change execSignalMailboxWord e agree s = _
  unfold execSignalMailboxWord
  refine (d.signal hw (by rw [hk]; rfl) ?checks _).trans ?act
  case checks => exact hc
  case act => simp only [hi]

end

/-- Settles O9: each SIGNAL by its own arm, of which that of a mailbox word splits on its notice, its stamps and its room. -/
theorem signalWordsAct : Obligations.SignalWordsAct := by
  intro e s p w d hw
  refine ⟨exec_signalDoorbell d hw, exec_signalInterrupt d hw, fun hk hc i agree hi => ?mailbox, exec_signalBarrierArrival d hw,
    exec_signalRequestAcknowledge d hw⟩
  rw [exec_signalMailboxWord d hw hk hc hi]
  refine ⟨fun ha => by rw [if_pos ha], fun ha => ⟨fun hn => ?_, fun hg full => ?_, fun hg room => ?_⟩⟩
  · rw [ha, hn]
    rfl
  · rw [ha, hg, if_pos full]
    exact ⟨_, rfl, onlyProg_updProg (s.ack e) e p _ d.prog⟩
  · rw [ha, hg, if_neg (Nat.not_le.mpr room)]
    rfl

/-! ## WAIT (R85) -/

section
variable {s : State} {e : Nat} {p : Prog} {w : Ccw}

theorem exec_wait (d : Delivered s e p [w]) (hw : w.opc = 4) (hc : s.waitChecks e p w = none) : exec (.wait e) s = .next (s.beginWait e p w) := by
  change execWait e s = _
  rw [execWait, State.atWord_delivered d _ _ (by simp [hw]), State.checked_none d _ _ hc]

/-- The program `p` as it waits for `k` (R85). -/
def Prog.waiting (p : Prog) (s : State) (w : Ccw) (k : WaitKind) : Prog :=
  { p with phase := .wait { kind := k, startTick := s.tick, limitUs := w.count.toNat, onExpiry := w.mode.getLsbD 0 } }

/-- Where `beginWait` only begins to wait, the WAIT changes its program alone. -/
theorem Delivered.waits (d : Delivered s e p [w]) (hw : w.opc = 4) (hc : s.waitChecks e p w = none) {k : WaitKind}
    (hb : s.beginWait e p w = s.startWait e w k) : ∃ t, exec (.wait e) s = .next t ∧ OnlyProg (s.ack e) t e (p.waiting s w k) :=
  ⟨_, (exec_wait d hw hc).trans (congrArg _ hb), onlyProg_updProg (s.ack e) e p _ d.prog⟩

/-- Taking from an empty direction leaves the state (R422). -/
theorem State.mbxTake_none {ch : Nat} {i : Bool} {u : State} (h : s.mbxTake ch i = (none, u)) : u = s := by
  unfold State.mbxTake at h
  dsimp only at h
  split at h <;> cases h
  rfl

theorem exec_deviceTimeWaitDone {y : WaitS} (h : Stands s e p (.wait y)) :
    exec (.deviceTimeWaitDone e) s
      = occurs s ((match y.kind with | .devTime _ => true | .delay _ => true | _ => false) && s.waitDue y) (fun s => s.finishWait e true) := by
  obtain ⟨run, ph⟩ := h
  change execDeviceTimeWaitDone e s = _
  simp only [execDeviceTimeWaitDone, run, ph] <;> rfl

theorem exec_waitLimitExpiry {y : WaitS} (h : Stands s e p (.wait y)) :
    exec (.waitLimitExpiry e) s = occurs s (decide (y.limitUs ≠ 0) && s.passedUs y.startTick y.limitUs && !s.waitDue y) (fun s =>
      if y.onExpiry then s.finishWait e false else s.endAtWord e Ending.stepTimeout 0) := by
  obtain ⟨run, ph⟩ := h
  change execWaitLimitExpiry e s = _
  simp only [execWaitLimitExpiry, run, ph]

end

/-- Settles O10: `beginWait` by the event that is there or not, the event of device time, and the limit that passes without it. -/
theorem waitWordsWait : Obligations.WaitWordsWait := by
  refine ⟨fun e s p w d hw hc => ?_, fun e s p y h => ⟨fun hy later => ?_, fun due limit passed => ?_⟩⟩
  · refine ⟨fun hk => d.waits hw hc (by simp [State.beginWait, hk]),
      fun hk => ⟨fun u hu => ?_, fun hn => d.waits hw hc (by simp [State.beginWait, hk, hn])⟩, fun hk i hi ha => ?_,
      fun hk i hi ha => ⟨fun v u hv => ?_, fun ⟨u, hu⟩ => ?_⟩,
      fun hk => ⟨fun hn => ?_, fun he => d.waits hw hc (by simp [State.beginWait, hk, he])⟩, fun hk => ⟨fun b hb => ⟨fun hlt => ?_, fun hle => ?_⟩, fun hn => ?_⟩,
      fun hk => d.waits hw hc (by simp [State.beginWait, hk]), fun hk => d.waits hw hc (by simp [State.beginWait, hk])⟩
    · rw [exec_wait d hw hc]
      simp [State.beginWait, hk, hu]
    · rw [exec_wait d hw hc]
      simp [State.beginWait, hk, hi, ha]
    · rw [exec_wait d hw hc]
      simp [State.beginWait, hk, hi, ha, hv]
    · obtain rfl := State.mbxTake_none hu
      exact d.waits hw hc (by simp [State.beginWait, hk, hi, ha, hu])
    · rw [exec_wait d hw hc]
      simp [State.beginWait, hk, hn]
    · rw [exec_wait d hw hc]
      simp [State.beginWait, hk, hb, hlt]
    · exact d.waits hw hc (by simp [State.beginWait, hk, hb, Nat.not_lt.mpr hle])
    · exact d.waits hw hc (by simp [State.beginWait, hk, hn])
  · have due : ((match y.kind with | .devTime _ => true | .delay _ => true | _ => false) && s.waitDue y) = true := by
      obtain ⟨a, ha, hle⟩ | ⟨a, ha, hle⟩ := hy <;> simp [ha, State.waitDue, hle, later]
    rw [exec_deviceTimeWaitDone h, due]
    rfl
  · rw [exec_waitLimitExpiry h, due, passed, decide_eq_true limit]
    rfl

end Sys2Proof.Machine

/-! SUPPORT. Gating, waking, reset and readiness of the clusters. -/
namespace Sys2Proof.Machine

/-! ## Steps repeated over a list -/

/-- What no step of a list changes, all of them leave. -/
theorem foldl_keeps {α β : Type} {f : State → α → State} (g : State → β) (h : ∀ s a, g (f s a) = g s) (l : List α) (s : State) : g (l.foldl f s) = g s := by
  induction l generalizing s with
  | nil => rfl
  | cons a l ih => exact (ih _).trans (h s a)

/-- Where each step of a list updates its own engine, an engine of the list is updated once. -/
theorem foldl_engine {f : State → Nat → State} {h : Nat → Engine → Engine} (hf : ∀ s a e, (f s a).engine e = if e = a then h a (s.engine a) else s.engine e)
    {l : List Nat} (hl : l.Nodup) (s : State) (e : Nat) : (l.foldl f s).engine e = if e ∈ l then h e (s.engine e) else s.engine e := by
  induction l generalizing s with
  | nil => rfl
  | cons a l ih =>
    obtain ⟨new, rest⟩ := List.nodup_cons.mp hl
    rw [List.foldl_cons, ih rest, hf]
    by_cases he : e = a
    · subst he
      simp [new]
    · simp [he]

/-- The same of clusters. -/
theorem foldl_cluster {f : State → Nat → State} {h : Cluster → Cluster} (hf : ∀ s a, f s a = s.updCluster a h) (hh : ∀ k, h (h k) = h k) (l : List Nat)
    (s : State) (c : Nat) : (l.foldl f s).cluster c = if c ∈ l then h (s.cluster c) else s.cluster c := by
  induction l generalizing s with
  | nil => rfl
  | cons a l ih =>
    rw [List.foldl_cons, ih, hf, State.updCluster_cluster]
    by_cases hc : c = a
    · subst hc
      simp [hh]
    · simp [hc]

theorem clusterEngines_nodup (c : Nat) : (clusterEngines c).Nodup :=
  List.Pairwise.map _ (fun _ _ h same => h (Nat.add_left_cancel same)) List.nodup_range

/-- An event that has its condition occurs. -/
theorem occurs_true {s : State} {b : Bool} (h : b = true) (f : State → State) : occurs s b f = .next (f s) := by rw [occurs_next, if_pos h]

/-- One that has not leaves the state. -/
theorem occurs_false {s : State} {b : Bool} (h : b = false) (f : State → State) : occurs s b f = .next s := by rw [occurs_next, h]; rfl

@[simp] theorem State.updCluster_engine (s : State) (c e : Nat) (f : Cluster → Cluster) : (s.updCluster c f).engine e = s.engine e := rfl

/-! ## Gating and waking (R154, R155) -/

theorem exec_clusterGate {s : State} {c : Nat} (hm : s.mayGate c = true) (ht : s.passedUs (s.cluster c).idleSince (s.cluster c).gateIdleUs = true) :
    exec (.clusterGate c) s = .next ((s.stopBist c).updCluster c (fun k => { k with gated := true })) := by
  change execClusterGate c s = _
  rw [execClusterGate, occurs_next, hm, ht]
  rfl

theorem exec_clusterWake {s : State} {c : Nat} (hg : (s.cluster c).gated = true) (hr : (s.cluster c).wakeReq = true) (hf : (s.cluster c).fenced = false) :
    exec (.clusterWake c) s = .next (s.updCluster c (fun k =>
      { k with gated := false, wakeReq := false, waking := some s.tick, gateCount := satAdd 32 k.gateCount 1 })) := by
  change execClusterWake c s = _
  simp only [execClusterWake, occurs_next, hg, hr, hf]
  rfl

theorem exec_clusterWakeReady {s : State} {c t : Nat} (hw : (s.cluster c).waking = some t) (ht : s.passedUs t 8 = true) :
    exec (.clusterWakeReady c) s = .next ((s.cluster c).orders.foldl (fun u o => u.applyOrder c o) (s.updCluster c (fun k =>
      { k with waking := none, bistSlot := 0, passedOver := 0, turnAt := none, idleSince := s.tick, orders := [] }))) := by
  change execClusterWakeReady c s = _
  simp only [execClusterWakeReady, hw, occurs_next, ht, if_true]

/-! ## Reset and readiness (R153, R448, R452) -/

theorem exec_clusterReset {s : State} {c : Nat} (hc : c < 16) (hr : (s.cluster c).resetAt = none) (hg : (s.cluster c).gated = false)
    (hw : (s.cluster c).waking = none) (ho : (s.cluster c).resetReq = true ∨ s.arrayTurn c = true) :
    exec (.clusterReset c) s = .next (s.resetCluster c) := by
  have ordered : ((s.cluster c).resetReq || s.arrayTurn c) = true := by simpa using ho
  change execClusterReset c s = _
  simp [execClusterReset, occurs_next, hc, hr, hg, hw, ordered]

/-- Engine `e` of a cluster that becomes ready: seated as R135 says, and fenced where its test failed. -/
def Engine.seatAfterReset (failed : List Nat) (e : Nat) (g : Engine) : Engine :=
  { g with
    seated := decide (e % engPerCluster < 64), tested := !(failed.contains (e % engPerCluster) || g.fenced)
    fenced := failed.contains (e % engPerCluster) || g.fenced }

/-- The state with the engines of cluster `c` seated. -/
def State.seatAll (s : State) (c : Nat) (failed : List Nat) : State :=
  (clusterEngines c).foldl (fun s e =>
    let bad := failed.contains (e % engPerCluster) || (s.engine e).fenced
    s.updEngine e (fun g => { g with seated := decide (e % engPerCluster < 64), tested := !bad, fenced := bad })) s

/-- The crews have their seats of cluster `c` back, and the cluster is done. -/
def State.clusterDone (s : State) (c : Nat) : State :=
  let s := { s with eng := { s.eng with crews := s.eng.crews.all (fun (_ : Nat) (k : Crew) => { k with lostIn := k.lostIn.del c }) } }
  s.updCluster c (fun k => { k with done := true, resetAt := none, seats := 64, lost := [], idleSince := s.tick })

/-- A cluster becomes ready alone, or in the array reset with the last of them. -/
def State.declareReady (s : State) (c : Nat) : State :=
  let array := s.inMode [.load] && (List.range 16).any (fun i => !(s.cluster i).ready)
  let all := (List.range 16).all (fun i => (s.cluster i).done)
  if !array then s.updCluster c (fun k => { k with ready := true })
  else if all then (List.range 16).foldl (fun s i => s.updCluster i (fun k => { k with ready := true })) s else s

/-- The failed engines of cluster `c` pass their seats on. -/
def State.passFailed (s : State) (c : Nat) : State :=
  let bad := (clusterEngines c).filter (fun e => (s.engine e).fenced && (s.engine e).seated)
  bad.foldl State.passSeat s

theorem exec_clusterReady {s : State} {c k : Nat} {failed : List Nat} (hr : (s.cluster c).resetAt = some k) (ht : s.passedUs k 42 = true) :
    exec (.clusterReady c failed) s = .next ((((s.seatAll c failed).clusterDone c).declareReady c).passFailed c) := by
  have arm : exec (.clusterReady c failed) s = match (s.cluster c).resetAt with
    | none => .next s
    | some t => occurs s (s.passedUs t 42) fun s => (((s.seatAll c failed).clusterDone c).declareReady c).passFailed c := rfl
  rw [arm, hr]
  exact occurs_true ht _

theorem State.seatAll_engine (s : State) (c : Nat) (failed : List Nat) (e : Nat) :
    (s.seatAll c failed).engine e = if e ∈ clusterEngines c then (s.engine e).seatAfterReset failed e else s.engine e := by
  unfold State.seatAll
  refine foldl_engine (h := fun e g => g.seatAfterReset failed e) (fun s a e => ?_) (clusterEngines_nodup c) s e
  rw [State.updEngine_engine]
  rfl

@[simp] theorem State.seatAll_cluster (s : State) (c : Nat) (failed : List Nat) (d : Nat) : (s.seatAll c failed).cluster d = s.cluster d := by
  unfold State.seatAll
  refine foldl_keeps (State.cluster · d) (fun _ _ => ?_) _ s
  rfl

@[simp] theorem State.seatAll_top (s : State) (c : Nat) (failed : List Nat) : (s.seatAll c failed).top = s.top := by
  unfold State.seatAll
  refine foldl_keeps State.top (fun _ _ => ?_) _ s
  rfl

theorem State.clusterDone_cluster (s : State) (c d : Nat) :
    (s.clusterDone c).cluster d = if d = c then { s.cluster c with done := true, resetAt := none, seats := 64, lost := [], idleSince := s.tick } else s.cluster d :=
  State.updCluster_cluster ..

@[simp] theorem State.clusterDone_engine (s : State) (c e : Nat) : (s.clusterDone c).engine e = s.engine e := rfl
@[simp] theorem State.clusterDone_top (s : State) (c : Nat) : (s.clusterDone c).top = s.top := rfl

@[simp] theorem State.declareReady_engine (s : State) (c e : Nat) : (s.declareReady c).engine e = s.engine e := by
  simp only [State.declareReady]
  split
  · rfl
  · split
    · refine foldl_keeps (State.engine · e) (fun _ _ => ?_) _ s
      rfl
    · rfl

/-- Of a cluster, readiness is all that the declaration changes. -/
theorem State.declareReady_cluster (s : State) (c d : Nat) : ∃ r, (s.declareReady c).cluster d = { s.cluster d with ready := r } := by
  simp only [State.declareReady]
  split
  · rw [State.updCluster_cluster]
    split
    next h =>
      subst h
      exact ⟨true, rfl⟩
    · exact ⟨_, rfl⟩
  · split
    · rw [foldl_cluster (h := fun k => { k with ready := true }) (fun _ _ => rfl) fun _ => rfl]
      split
      · exact ⟨true, rfl⟩
      · exact ⟨_, rfl⟩
    · exact ⟨_, rfl⟩

/-- Outside the array reset the cluster becomes ready alone. -/
theorem State.declareReady_alone {s : State} {c : Nat} (h : s.inMode [.load] = false) : s.declareReady c = s.updCluster c (fun k => { k with ready := true }) := by
  simp [State.declareReady, h]

/-- In the array reset all become ready where all are done (R448). -/
theorem State.declareReady_array {s : State} {c : Nat} (h : s.inMode [.load] = true) {i : Nat} (hi : i < 16) (hr : (s.cluster i).ready = false)
    (hd : ∀ d < 16, (s.cluster d).done = true) {d : Nat} (hd16 : d < 16) : ((s.declareReady c).cluster d).ready = true := by
  have array : (s.inMode [.load] && (List.range 16).any (fun i => !(s.cluster i).ready)) = true := by
    rw [h, Bool.true_and, List.any_eq_true]
    exact ⟨i, List.mem_range.mpr hi, by rw [hr]; rfl⟩
  have all : (List.range 16).all (fun i => (s.cluster i).done) = true := by
    rw [List.all_eq_true]
    exact fun d hd' => hd d (List.mem_range.mp hd')
  simp only [State.declareReady, array, all, Bool.not_true, Bool.false_eq_true, if_false, if_true]
  rw [foldl_cluster (h := fun k => { k with ready := true }) (fun _ _ => rfl) fun _ => rfl, if_pos (List.mem_range.mpr hd16)]

/-- Settles O26: the update that each event is, and of readiness the seats of the engines and the declaration. -/
theorem clustersGateAndReset : Obligations.ClustersGateAndReset := by
  refine ⟨fun c s => ⟨fun hm ht => ?gate, fun hg hr hf => ?wake, fun k hw ht => ?awake⟩,
    fun c s => ⟨exec_clusterReset, fun k failed hr ht => ?ready⟩⟩
  case gate =>
    refine ⟨_, exec_clusterGate hm ht, ?_, ?_, fun d hd => ?_, fun e he => ?_, ?_⟩
    · simp
    · simp [State.stopBist]
    · simp [State.stopBist, State.updCluster_cluster_other, hd]
      rfl
    · rw [State.updCluster_engine, State.stopBist, State.updCluster_engine, State.updEngine_engine_other _ _ _ _ he]
    · rfl
  case wake =>
    exact ⟨_, exec_clusterWake hg hr hf, fun d => State.updCluster_cluster_other _ _ _ _, rfl, State.updCluster_cluster_same ..⟩
  case awake =>
    exact ⟨_, exec_clusterWakeReady hw ht, fun d => State.updCluster_cluster_other _ _ _ _, rfl, State.updCluster_cluster_same ..⟩
  case ready =>
    have cluster (d : Nat) := State.clusterDone_cluster (s.seatAll c failed) c d
    simp only [State.seatAll_cluster] at cluster
    obtain ⟨r, own⟩ := State.declareReady_cluster ((s.seatAll c failed).clusterDone c) c c
    rw [cluster, if_pos rfl] at own
    refine ⟨((s.seatAll c failed).clusterDone c).declareReady c, exec_clusterReady hr ht, ?_, ?_, ?_, ?_, fun e he => ?_, fun e he => ?_,
      fun hm => ⟨?_, fun d hd => ?_⟩, fun hm hc hr hd d hd16 => ?_⟩
    · rw [own]
    · rw [own]
    · rw [own]
    · rw [own]
    · rw [State.declareReady_engine, State.clusterDone_engine, State.seatAll_engine, if_pos he]
      rfl
    · rw [State.declareReady_engine, State.clusterDone_engine, State.seatAll_engine, if_neg he]
    · rw [State.declareReady_alone (by simpa [State.inMode] using hm), State.updCluster_cluster_same]
    · rw [State.declareReady_alone (by simpa [State.inMode] using hm), State.updCluster_cluster_other _ _ _ _ hd, cluster, if_neg hd]
    · refine State.declareReady_array (by simpa [State.inMode] using hm) hc (by rw [cluster, if_pos rfl]; exact hr) (fun i hi => ?_) hd16
      rw [cluster]
      split
      · rfl
      next hne => exact hd i hi hne

end Sys2Proof.Machine

/-! SUPPORT. The checks of a packet and its answer. -/
namespace Sys2Proof.Machine

/-! ## The rows of the catalogue -/

theorem shortRows_exec (fn : Nat) (d : Rd) : ∀ row ∈ shortRows fn d,
    row = (.createSq fn, cmdCreateSq, .error) ∨ ∀ s, exec row.1 s = s.command row.2.1 fn row.2.2 := by
  simp only [shortRows, List.forall_mem_cons, List.not_mem_nil, false_imp_iff, implies_true, and_true]
  refine ⟨.inl trivial, ?_⟩
  and_intros
  all_goals exact .inr fun _ => rfl

theorem shortRowsToo_exec (fn : Nat) (d : Rd) : ∀ row ∈ shortRowsToo fn d, ∀ s, exec row.1 s = s.command row.2.1 fn row.2.2 := by
  simp only [shortRowsToo, List.forall_mem_cons, List.not_mem_nil, false_imp_iff, implies_true, and_true]
  and_intros
  all_goals exact fun _ => rfl

theorem longRows_exec (fn : Nat) (d : Rd) (img : Image) (probes : List LunProbe) (fast : Nat) :
    ∀ row ∈ longRows fn d img probes fast, ∀ s, exec row.1 s = s.command row.2.1 fn row.2.2 := by
  simp only [longRows, List.forall_mem_cons, List.not_mem_nil, false_imp_iff, implies_true, and_true]
  and_intros
  all_goals exact fun _ => rfl

/-- Every row takes its command up; that of CREATE_SQ also answers for an opcode that no row takes (R349). -/
theorem packetRows_exec (fn : Nat) (d : Rd) (img : Image) (probes : List LunProbe) (fast : Nat) : ∀ row ∈ packetRows fn d img probes fast,
    row = (.createSq fn, cmdCreateSq, .error) ∨ ∀ s, exec row.1 s = s.command row.2.1 fn row.2.2 := by
  simp only [packetRows, List.forall_mem_append]
  exact ⟨⟨shortRows_exec fn d, fun row h => .inr (shortRowsToo_exec fn d row h)⟩, fun row h => .inr (longRows_exec fn d img probes fast row h)⟩

theorem exec_createSq (fn : Nat) (s : State) : exec (.createSq fn) s = match s.turn with
    | some p => if p.fn = fn ∧ !catalogue.contains p.opc then .next ((s.afterTurn p).replyTo p Status.badOpcode [] []) else s.command cmdCreateSq fn .error
    | none => .next s := rfl

/-- CREATE_SQ is in the catalogue. -/
theorem cmdCreateSq_listed {p : Packet} (h : cmdCreateSq.is p = true) : catalogue.contains p.opc = true := by
  have opc : p.opc = cmdCreateSq.opc := by
    simp only [Cmd.is, Bool.and_eq_true, decide_eq_true_eq] at h
    exact h.1
  rw [opc]
  decide

/-- A row takes its command up where the packet in turn, if it is of the function, is of the command or has an opcode of the catalogue. -/
theorem exec_packetRow {fn : Nat} {d di : Rd} {img : Image} {probes : List LunProbe} {fast : Nat} {i : Instr} {c : Cmd}
    (h : (i, c, di) ∈ packetRows fn d img probes fast) {s : State}
    (hp : ∀ p, s.turn = some p → p.fn = fn → c.is p = true ∨ catalogue.contains p.opc = true) : exec i s = s.command c fn di := by
  obtain heq | hrun := packetRows_exec fn d img probes fast _ h
  · obtain ⟨rfl, rfl, rfl⟩ : i = _ ∧ c = _ ∧ di = _ := by simpa using heq
    rw [exec_createSq]
    cases ht : s.turn with
    | none => simp [State.command, ht]
    | some p =>
      have listed : ¬(p.fn = fn ∧ (!catalogue.contains p.opc) = true) := fun ⟨hf, hn⟩ => by
        have here : catalogue.contains p.opc = true := (hp p ht hf).elim cmdCreateSq_listed id
        rw [here] at hn
        cases hn
      simp only [if_neg listed]
  · exact hrun s

/-! ## The turn of a packet (R348 to R354) -/

section
variable {s : State} {c : Cmd} {fn : Nat} {d : Rd} {p : Packet}

theorem State.command_turn (ht : s.turn = some p) (hf : p.fn = fn) (hc : c.is p = true) : s.command c fn d = s.takeUp c p d := by
  simp only [State.command, ht, if_pos (And.intro hf hc)]

theorem State.command_noTurn (ht : s.turn = none) : s.command c fn d = .next s := by
  simp only [State.command, ht]

theorem State.command_otherTurn (ht : s.turn = some p) (ho : p.fn ≠ fn ∨ c.is p = false) : s.command c fn d = .next s := by
  have other : ¬(p.fn = fn ∧ c.is p = true) := by
    rintro ⟨hf, hc⟩
    obtain ho | ho := ho
    · exact ho hf
    · rw [ho] at hc
      cases hc
  simp only [State.command, ht, if_neg other]

/-- The input data that a command of packet `p` has with the turn of its packet; a background command has its own at its commit point (R349). -/
def Cmd.dataAt (c : Cmd) (p : Packet) (d : Rd) : Option (List Byte) := if c.data = .input ∧ c.long = false then dataOf d p.len else some []

/-- The checks of a packet in their order, and then its effect. -/
theorem State.takeUp_eq (s : State) (c : Cmd) (p : Packet) (d : Rd) :
    s.takeUp c p d =
      let u := s.afterTurn p
      let data := c.dataAt p d
      let r := p.req (data.getD [])
      if r.version ≠ 1 then .next (u.replyTo p Status.badParam [] [])
      else if c.malformed r then .fault .reservedPacket
      else match u.verdict c r data.isSome with
        | some st => .next (u.replyTo p st [] [])
        | none =>
          if u.longBusy c p then .next (u.replyTo p Status.busy [] [])
          else if r.dry && !c.verifies then .next (u.replyTo p Status.success [] [])
          else if !r.dry && u.otp.locked && c.prot u r then .next (u.replyTo p Status.consentPending [] [])
          else if c.long then .next (u.startLong c p r)
          else .next (State.finish p (c.apply r true [] u)) := by
  have data : (if decide (c.data = .input) && !c.long then dataOf d p.len else some []) = c.dataAt p d := by simp [Cmd.dataAt]
  rw [← data]
  rfl

/-- The first check that fails is answered with its status. -/
theorem State.takeUp_fails {st : BitVec 16} (hv : (p.req ((c.dataAt p d).getD [])).version = 1) (hm : c.malformed (p.req ((c.dataAt p d).getD [])) = false)
    (hs : (s.afterTurn p).verdict c (p.req ((c.dataAt p d).getD [])) (c.dataAt p d).isSome = some st) :
    s.takeUp c p d = .next ((s.afterTurn p).replyTo p st [] []) := by
  simp [State.takeUp_eq, hv, hm, hs]

/-- A command that passes its checks. -/
theorem State.takeUp_passes (hv : (p.req ((c.dataAt p d).getD [])).version = 1) (hm : c.malformed (p.req ((c.dataAt p d).getD [])) = false)
    (hs : (s.afterTurn p).verdict c (p.req ((c.dataAt p d).getD [])) (c.dataAt p d).isSome = none) :
    s.takeUp c p d =
      let u := s.afterTurn p
      let r := p.req ((c.dataAt p d).getD [])
      if u.longBusy c p then .next (u.replyTo p Status.busy [] [])
      else if r.dry && !c.verifies then .next (u.replyTo p Status.success [] [])
      else if !r.dry && u.otp.locked && c.prot u r then .next (u.replyTo p Status.consentPending [] [])
      else if c.long then .next (u.startLong c p r)
      else .next (State.finish p (c.apply r true [] u)) := by
  simp [State.takeUp_eq, hv, hm, hs]

end

/-! ## Answers (R349) -/

/-- An answer joins the replies of its function. -/
theorem State.replyTo_replies (s : State) (p : Packet) (st : BitVec 16) (body out : List Byte) (h : p.mute = false) :
    ((s.replyTo p st body out).aq p.fn).replies = (s.aq p.fn).replies ++ [(p.no, s.replyCqe (leAt p.bytes 4 4) st body)] := by
  have driven (b : Bool) (o : Output) : ((if b then s else s.drive o).dropPacket p.no).aq p.fn = s.aq p.fn
      ∧ (if b then s else s.drive o).replyCqe (leAt p.bytes 4 4) st body = s.replyCqe (leAt p.bytes 4 4) st body := by
    cases b <;> exact ⟨rfl, rfl⟩
  simp only [State.replyTo, h, Bool.false_eq_true, if_false, State.updAq_aq_same, (driven _ _).1, (driven _ _).2]

/-- The packet is done with. -/
theorem State.replyTo_staged (s : State) (p : Packet) (st : BitVec 16) (body out : List Byte) :
    (s.replyTo p st body out).mgp.staged = s.mgp.staged.filter (fun q => decide (q.no ≠ p.no)) := by
  unfold State.replyTo
  split
  · rfl
  · dsimp only [State.updAq_mgp, State.dropPacket]
    split <;> rfl

theorem dry_only_verifies {dry verifies : Bool} (h : dry = true → verifies = true) : ¬(dry && !verifies) = true := by
  cases dry <;> cases verifies <;> simp_all

theorem protected_unlocked {dry locked prot : Bool} (h : dry = false → locked = true → prot = false) : ¬(!dry && locked && prot) = true := by
  cases dry <;> cases locked <;> simp_all

/-- Settles O42: each row takes its command up in the turn of a packet, and the checks there stand in their order. -/
theorem packetsRunTheirCommands : Obligations.PacketsRunTheirCommands := by
  refine ⟨fun fn d di img probes fast i c s p h ht hf hc => ?turn, fun fn d di img probes fast i c s h hn => ?other, fun fn s p ht hf ho => ?unlisted,
    fun st body out s p hm => ⟨s.replyTo_replies p st body out hm, s.replyTo_staged p st body out⟩⟩
  case turn =>
    have mine : ∀ q, s.turn = some q → q.fn = fn → c.is q = true ∨ catalogue.contains q.opc = true := fun q hq _ => by
      obtain rfl : p = q := Option.some.inj (ht.symm.trans hq)
      exact .inl hc
    rw [exec_packetRow h mine, State.command_turn ht hf hc]
    refine ⟨fun hv => ?_, fun hv hm => ?_, fun hv hm => ⟨fun st hs => State.takeUp_fails hv hm hs, fun hs => ?_⟩⟩
    · rw [State.takeUp_eq]
      exact if_pos hv
    · rw [State.takeUp_eq]
      exact (if_neg (not_not_intro hv)).trans (if_pos hm)
    · rw [State.takeUp_passes hv hm hs]
      refine ⟨fun hb => if_pos hb, fun hb => ?_⟩
      have free : ¬(s.afterTurn p).longBusy c p = true := by rw [hb]; decide
      refine ⟨fun hd hver => (if_neg free).trans (if_pos ?_), fun hd hl hp => (if_neg free).trans ((if_neg ?_).trans (if_pos ?_)), fun hdry hprot =>
        (if_neg free).trans ((if_neg ?_).trans ((if_neg ?_).trans (apply_ite _ _ _ _).symm))⟩
      · exact Bool.and_eq_true_iff.mpr ⟨hd, by rw [hver]; rfl⟩
      · exact fun ha => absurd ((Bool.and_eq_true_iff.mp ha).1.symm.trans hd) (by decide)
      · exact Bool.and_eq_true_iff.mpr ⟨Bool.and_eq_true_iff.mpr ⟨(congrArg not hd).trans rfl, hl⟩, hp⟩
      · exact dry_only_verifies hdry
      · exact protected_unlocked hprot
  case other =>
    have listed : ∀ q, s.turn = some q → q.fn = fn → c.is q = true ∨ catalogue.contains q.opc = true := fun q hq hf => by
      obtain hn | ⟨p, hp, ho | ⟨-, hl⟩⟩ := hn
      · rw [hn] at hq
        cases hq
      · obtain rfl : p = q := Option.some.inj (hp.symm.trans hq)
        exact absurd hf ho
      · obtain rfl : p = q := Option.some.inj (hp.symm.trans hq)
        exact .inr hl
    rw [exec_packetRow h listed]
    obtain hn | ⟨p, hp, ho⟩ := hn
    · exact State.command_noTurn hn
    · exact State.command_otherTurn hp (ho.imp_right And.left)
  case unlisted =>
    rw [exec_createSq, ht]
    exact if_pos ⟨hf, by rw [ho]; rfl⟩

end Sys2Proof.Machine

/-! SUPPORT. The commit points of background commands. -/
namespace Sys2Proof.Machine

/-! ## The commit points of background commands (R350, R351, R363) -/

theorem commitRows_exec (fn : Nat) (d : Rd) (pass : Bool) (result : List Byte) (img : Image) (probes : List LunProbe) (fast : Nat) :
    ∀ row ∈ commitRows fn d pass result img probes fast, ∀ s, exec row.1 s = s.longCommand row.2.1 fn row.2.2 (.commit pass result) := by
  simp only [commitRows, List.forall_mem_cons, List.not_mem_nil, false_imp_iff, implies_true, and_true]
  and_intros
  all_goals exact fun _ => rfl

section
variable {s : State} {c : Cmd} {fn : Nat} {d : Rd} {pass : Bool} {result : List Byte} {p : Packet}

theorem State.longCommand_commit (h : s.inHand c fn = some p) : s.longCommand c fn d (.commit pass result) = .next (s.commitLong c p d pass result) := by
  simp only [State.longCommand, h]

theorem State.longCommand_none (h : s.inHand c fn = none) : s.longCommand c fn d (.commit pass result) = .next s := by
  simp only [State.longCommand, h]

theorem State.commitLong_unread (h : (if c.data = .input then dataOf d p.len else some []) = none) :
    s.commitLong c p d pass result = (s.undoCmd p).replyTo p Status.badParam [] [] := by
  simp only [State.commitLong, h]

theorem State.commitLong_read {data : List Byte} (h : (if c.data = .input then dataOf d p.len else some []) = some data) :
    s.commitLong c p d pass result = if (p.req data).dry then s.replyTo p (c.apply (p.req data) pass result s).status [] []
      else State.finish p (c.apply (p.req data) pass result s) := by
  simp only [State.commitLong, h]

end

/-- UPDATE_ADVANCE step 0x00 of a firmware that restarts (R363). -/
theorem exec_updateFirmwareRestart {fn : Nat} {s : State} {p : Packet} (h : s.restarting fn = some p) (ready : Bool) (result : List Byte) :
    exec (.updateFirmwareRestart fn (.commit ready result)) s = if ready && !s.passedMs p.begun 500 then .next (s.newFirmware p)
      else if !ready && s.passedMs p.begun 500 then .next (s.oldFirmware p) else .next s := by
  change execUpdateFirmwareRestart fn (.commit ready result) s = _
  simp only [execUpdateFirmwareRestart, h]

theorem exec_updateFirmwareRestart_none {fn : Nat} {s : State} (h : s.restarting fn = none) (ready : Bool) (result : List Byte) :
    exec (.updateFirmwareRestart fn (.commit ready result)) s = .next s := by
  change execUpdateFirmwareRestart fn (.commit ready result) s = _
  simp only [execUpdateFirmwareRestart, h]

/-- Settles O43: each row commits what is in hand, which is what `commitLong` does with the input data that were read. -/
theorem backgroundCommandsCommit : Obligations.BackgroundCommandsCommit := by
  refine ⟨fun fn d di pass result img probes fast i c s p h hp => ?hand, fun fn d di pass result img probes fast i c s h hn => ?free,
    fun fn result s hn ready => exec_updateFirmwareRestart_none hn ready result, fun fn result s p hp => ⟨fun early => ?_, fun late => ?_⟩⟩
  case hand =>
    have row : exec i s = _ := (commitRows_exec fn d pass result img probes fast _ h s).trans (State.longCommand_commit hp)
    refine ⟨fun hn => row.trans (congrArg _ (State.commitLong_unread hn)), fun data hd => ⟨fun hdry => ?_, fun hdry => ?_⟩⟩
    · rw [row, State.commitLong_read hd, if_neg (by rw [hdry]; decide)]
    · rw [row, State.commitLong_read hd, if_pos hdry]
  case free => exact (commitRows_exec fn d pass result img probes fast _ h s).trans (State.longCommand_none hn)
  · rw [exec_updateFirmwareRestart hp, exec_updateFirmwareRestart hp, early]
    exact ⟨rfl, rfl⟩
  · rw [exec_updateFirmwareRestart hp, exec_updateFirmwareRestart hp, late]
    exact ⟨rfl, rfl⟩

end Sys2Proof.Machine

/-! SUPPORT. Register writes. -/
namespace Sys2Proof.Machine

/-! ## W1C bits (R9) -/

/-- The bits that a write of `reg` clears, `v` less those that events have set in its tick. -/
def clearsOf (reg : Nat) (hot : List (Nat × W32)) (v : W32) : W32 := hot.foldl (fun v h => if h.1 = reg then v &&& ~~~ h.2 else v) v

theorem State.clears_eq (s : State) (reg : Nat) (v : W32) : s.clears reg v = clearsOf reg s.top.hot v := rfl

/-- Bits that a write leaves alone, it leaves alone whatever events have set. -/
theorem clearsOf_and_zero {reg : Nat} {m : W32} (hot : List (Nat × W32)) {v : W32} (h : v &&& m = 0) : clearsOf reg hot v &&& m = 0 := by
  induction hot generalizing v with
  | nil => exact h
  | cons x hot ih =>
    refine ih ?_
    dsimp only
    split
    · rw [BitVec.and_assoc, BitVec.and_comm (~~~ x.2), ← BitVec.and_assoc, h]
      exact BitVec.zero_and
    · exact h

/-- A bit that an event has set in this tick is not cleared. -/
theorem clearsOf_hot {reg : Nat} {hot : List (Nat × W32)} {h : Nat × W32} (hm : h ∈ hot) (hr : h.1 = reg) (v : W32) : clearsOf reg hot v &&& h.2 = 0 := by
  induction hot generalizing v with
  | nil => cases hm
  | cons x hot ih =>
    obtain rfl | hm := List.mem_cons.mp hm
    · refine clearsOf_and_zero hot ?_
      dsimp only
      rw [if_pos hr, BitVec.and_assoc, BitVec.and_comm (~~~ h.2), BitVec.and_not_self]
      exact BitVec.and_zero
    · exact ih hm _

/-! ## Register writes (R6, R7, R18) -/

section
variable {mid bar off fn : Nat} {v : W32} {s : State}

theorem exec_registerWrite_nothing (h : s.frozen = true ∨ (off % 4 ≠ 0 ∧ bar ≠ 7)) : exec (.registerWrite mid bar off v) s = .next s := by
  have none : (s.frozen || (decide (off % 4 ≠ 0) && decide (bar ≠ 7))) = true := by
    obtain h | ⟨ho, hb⟩ := h
    · rw [h, Bool.true_or]
    · rw [decide_eq_true ho, decide_eq_true hb, Bool.and_true, Bool.or_true]
  exact if_pos none

/-- A write in BAR0 reaches a register with the right over its block. -/
theorem exec_registerWrite_bar0 (hf : s.frozen = false) (ho : off % 4 = 0) : exec (.registerWrite mid 0 off v) s =
    if s.mayWrite mid (blockOf off) && decide (off < 0x1000000) then
      (s.regBar0 mid off (s.clears (bar0Reg mid off) v)).elim (.fault .reservedValue) .next
    else .next s := by
  change execRegisterWrite mid 0 off v s = _
  simp only [execRegisterWrite, hf, ho]
  cases s.regBar0 mid off (s.clears (bar0Reg mid off) v) <;> rfl

/-- A write in BAR4 is one of the identity's function, where it has one that is not fenced. -/
theorem exec_registerWrite_bar4_none (hl : s.liveFn mid = none) : exec (.registerWrite mid 4 off v) s = .next s := by
  change execRegisterWrite mid 4 off v s = _
  simp only [execRegisterWrite, hl, ite_self]

theorem exec_registerWrite_bar4 (hf : s.frozen = false) (ho : off % 4 = 0) (hl : s.liveFn mid = some fn) : exec (.registerWrite mid 4 off v) s =
    if off < 0x4000 then .next (s.regWindow mid off (s.clears (windowReg mid off) v))
    else if off < 0x5000 then .next (s.regMsix fn off v) else .next s := by
  change execRegisterWrite mid 4 off v s = _
  simp only [execRegisterWrite, hf, ho, hl]
  rfl

theorem exec_registerWrite_config_none (hl : fnOf mid = none) : exec (.registerWrite mid 7 off v) s = .next s := by
  change execRegisterWrite mid 7 off v s = _
  simp only [execRegisterWrite, hl, ite_self]

theorem exec_registerWrite_config (hf : s.frozen = false) (hl : fnOf mid = some fn) : exec (.registerWrite mid 7 off v) s = .next (s.regConfig fn off v) := by
  change execRegisterWrite mid 7 off v s = _
  simp [execRegisterWrite, hf, hl]

/-- No other BAR holds a register. -/
theorem exec_registerWrite_otherBar (h0 : bar ≠ 0) (h4 : bar ≠ 4) (h7 : bar ≠ 7) : exec (.registerWrite mid bar off v) s = .next s := by
  change execRegisterWrite mid bar off v s = _
  unfold execRegisterWrite
  split
  · rfl
  · split
    · exact absurd rfl h0
    · exact absurd rfl h4
    · exact absurd rfl h7
    · rfl

end

/-! ## The MSI-X table and the configuration space of a function (R320, R321) -/

/-- A write of a vector's data changes that vector's data alone. -/
theorem State.regMsix_data {s : State} {fn off : Nat} {v : W32} (h : off % 16 = 8) :
    s.regMsix fn off v = s.updHfn fn (fun x => { x with vecs := x.vecs.mod ((off - 0x4000) / 0x10) (0, 0, true) (fun e => (e.1, v, e.2.2)) }) := by
  simp only [State.regMsix, h]

/-- The masks stand. -/
theorem Fn.masked_mod (x : Fn) (k : Nat) (v : W32) (j : Nat) :
    ({ x with vecs := x.vecs.mod k (0, 0, true) (fun e => (e.1, v, e.2.2)) } : Fn).masked j = x.masked j := by
  simp only [Fn.masked, Tbl.get_mod]
  split
  next h => rw [h]
  · rfl

theorem State.regConfig_command {s : State} {fn : Nat} (v : W32) (h : (s.hfn fn).pba = []) :
    s.regConfig fn 4 v = s.updHfn fn (fun f => { f with bme := v.getLsbD 2 }) := by
  have pba : ((s.updHfn fn (fun f => { f with bme := v.getLsbD 2 })).hfn fn).pba = [] := by
    rw [State.updHfn_hfn_same]
    exact h
  rw [State.regConfig, if_pos rfl, State.flushMsix, pba]
  rfl

/-- QUIET is protected by the lock, and reserved outside 10 to 10,000 (R382, R416). -/
theorem State.regBar0_quiet (s : State) (mid : Nat) (v : W32) :
    s.regBar0 mid 0xE00020 v = if s.otp.locked then some s
      else okIf (decide (fld v 0 16 < 10) || decide (10000 < fld v 0 16)) { s with fcs := { s.fcs with quiet := v &&& 0xFFFF } } := rfl

/-- Settles O50: a write by its BAR, the W1C bits by the fold over those set in the tick, and four registers by the rows of their blocks. -/
theorem registerWritesFollowCodes : Obligations.RegisterWritesFollowCodes := by
  refine ⟨fun mid bar off v s => ⟨fun hf => exec_registerWrite_nothing (.inl hf), fun ho hb => exec_registerWrite_nothing (.inr ⟨ho, hb⟩),
      exec_registerWrite_otherBar, fun hn => ?_, fun ho hlt hm => ?_, clearsOf_and_zero _ (BitVec.and_not_self v), fun h hm hr => clearsOf_hot hm hr v,
      rfl, rfl, rfl, fun hl => ?_, fun hl => ⟨fun lo hi => ?_, fun hout => ?_⟩⟩,
    fun mid off v s hf => ⟨exec_registerWrite_bar4_none, fun fn hl ho => ⟨fun h => ?_, fun h h' => ?_, fun h => ?_, fun h => ?_⟩,
      exec_registerWrite_config_none, fun fn hl => ⟨exec_registerWrite_config hf hl, fun hp => ?_⟩⟩⟩
  · have closed : ¬(s.mayWrite mid (blockOf off) && decide (off < 0x1000000)) = true := by
      obtain hn | hn := hn <;> simp [hn]
    by_cases ho : s.frozen = true ∨ (off % 4 ≠ 0 ∧ (0 : Nat) ≠ 7)
    · exact exec_registerWrite_nothing ho
    · obtain ⟨hf, ho⟩ := not_or.mp ho
      rw [exec_registerWrite_bar0 (by simpa using hf) (by simpa using ho), if_neg closed]
  · have hf : s.frozen = false := by
      simp only [State.mayWrite, Bool.and_eq_true, Bool.not_eq_true'] at hm
      exact hm.1.1.1
    have opened : (s.mayWrite mid (blockOf off) && decide (off < 0x1000000)) = true := by simp [hm, hlt]
    rw [exec_registerWrite_bar0 hf ho, if_pos opened]
    refine ⟨fun t ht => ?_, fun hn => ?_⟩
    · rw [ht, Option.elim_some]
    · rw [hn, Option.elim_none]
  · rw [State.regBar0_quiet, if_pos hl]
  · rw [State.regBar0_quiet, hl, Nat.not_lt.mpr lo |> decide_eq_false, Nat.not_lt.mpr hi |> decide_eq_false]
    rfl
  · have bad : (decide (fld v 0 16 < 10) || decide (10000 < fld v 0 16)) = true := by simpa using hout
    rw [State.regBar0_quiet, hl, bad]
    rfl
  · rw [exec_registerWrite_bar4 hf ho hl, if_pos h]
  · rw [exec_registerWrite_bar4 hf ho hl, if_neg (Nat.not_lt.mpr h), if_pos h']
  · rw [exec_registerWrite_bar4 hf ho hl, if_neg (by omega), if_neg (Nat.not_lt.mpr h)]
  · rw [State.regMsix_data h]
    refine ⟨fun j hj => State.updHfn_hfn_other _ _ _ _ hj, rfl, fun j => ?_⟩
    rw [State.updHfn_hfn_same, Fn.masked_mod]
  · rw [State.regConfig_command v hp]
    exact ⟨State.updHfn_hfn_same .., fun j hj => State.updHfn_hfn_other _ _ _ _ hj⟩

end Sys2Proof.Machine

/-! SUPPORT. Data words begin, and move their bytes on a mover channel. -/
namespace Sys2Proof.Machine

/-! ## A data word goes on (R113, R217, R299) -/

section
variable {s : State} {e : Nat} {p : Prog} {w : Ccw} {ws : List Ccw} {y : Xfr}

theorem Begun.prog (h : Begun s e p (w :: ws) y) : s.prog e = some p := State.prog_of_running h.1

/-- A data operation that has begun, and whose pages have been read, goes on. -/
theorem Begun.goOn (h : Begun s e p (w :: ws) y) (go : Prog → Xfr → Ccw → State → State) : s.goOn e go = go p y w s := by
  obtain ⟨run, -, ho, hx, hr⟩ := h
  simp [State.goOn, State.prog_of_running run, ho, hx, hr]

/-- The row of a data word that has begun. -/
theorem Begun.dataWord (h : Begun s e p (w :: ws) y) {opc : BitVec 8} (hw : w.opc = opc) (chk : Prog → Ccw → State → Option Bad)
    (start : Prog → Ccw → State → State) (go : Prog → Xfr → Ccw → State → State) : s.dataWord e opc chk start go = .next (go p y w s) := by
  obtain ⟨run, ph, ho, hx, -⟩ := id h
  rw [State.dataWord, State.atWord_taken run (.inl ph) ho (by simp [hw]), hx, Option.isSome_some, if_pos rfl, h.goOn]

theorem Carried.chan (h : Carried s e p (w :: ws) y) : p.chan.isSome = true := by
  have carried := h.2
  unfold State.carried at carried
  cases hc : p.chan with
  | none => simp [hc] at carried
  | some c => rfl

/-- What a mover carries moves its next portion. -/
theorem Carried.carry (h : Carried s e p (w :: ws) y) (f : Prog → State → State) : s.carry e w f = f p s := by
  simp only [State.carry, h.1.prog, h.chan, h.2, if_true]

/-- The row of a data word whose first bytes are yet to move: it begins, and goes on where it can. -/
theorem Delivered.dataWord (d : Delivered s e p (w :: ws)) {opc : BitVec 8} (hw : w.opc = opc) {chk : Prog → Ccw → State → Option Bad}
    (hc : chk p w s = none) (start : Prog → Ccw → State → State) (go : Prog → Xfr → Ccw → State → State) :
    s.dataWord e opc chk start go = .next ((start p w s).goOn e go) := by
  rw [State.dataWord, State.atWord_delivered d _ _ (by simp [hw]), d.2.2.2.1]
  exact State.checked_none d _ _ hc

/-- One that waits for no page goes on at once. -/
theorem Delivered.goOn_beginXfr (d : Delivered s e p (w :: ws)) (hr : y.reads = []) (go : Prog → Xfr → Ccw → State → State) :
    (s.beginXfr e y).goOn e go = go { p with xf := some y } y w (s.beginXfr e y) := by
  have hp : (s.beginXfr e y).prog e = some { p with xf := some y } := by
    rw [State.beginXfr, State.updProg_prog, d.prog]
    rfl
  obtain ⟨-, -, ho, -, -⟩ := d
  simp [State.goOn, hp, ho, hr]

/-- A data word that ended its program as it began does not go on. -/
theorem Delivered.goOn_endAtWord (d : Delivered s e p (w :: ws)) (n : Ending) (i : Nat) (go : Prog → Xfr → Ccw → State → State) :
    (s.endAtWord e n i).goOn e go = s.endAtWord e n i :=
  State.goOn_endAtWord s e p n i go d.prog (by rw [d.2.1]; decide)

end

/-! ## Deliveries -/

/-- A transfer that is served delivers its bytes, or drops them with DRP (R80). -/
theorem State.deliverTo_ok (s : State) (e : Nat) (p : Prog) (ps : List Piece) (bs : List Byte) (drp : Bool) {x : Xfer} (h : x.status = .ok) :
    s.deliverTo e p ps bs drp x = { bytes := bs.length, fail := none, st := if drp then s else State.scatter e p.fn ps bs s } := by
  simp [State.deliverTo, h, xferEnding]

/-- The next portion of the bytes kept, where the transfer is served. -/
theorem State.deliverNext_ok (s : State) (e : Nat) {p : Prog} {y : Xfr} (hx : p.xf = some y) (w : Ccw) (ops : Nat) (mismatch : Bool) {x : Xfer}
    (h : x.status = .ok) (fin : Prog → Prog) :
    s.deliverNext e p w ops mismatch x fin =
      let k := p.portion (hasCell (p.pieces p.op) && !w.drp) y.src.length
      let bs := (y.src.drop p.moved).take k
      State.wordProgress { bytes := bs.length, fail := none, st := if w.drp then s else State.scatter e p.fn (slicePieces (p.pieces p.op) p.moved k) bs s }
        e p y.src.length ops false mismatch 1 fin := by
  simp only [State.deliverNext, hx, State.deliverTo_ok s e p _ _ w.drp h]
  rfl

/-! ## MOVE, FILL, REGION_READ and VAULT_READ (R72, R90, R94) -/

section
variable {s : State} {e : Nat} {p : Prog} {w : Ccw} {ws : List Ccw} {y : Xfr} {x : Xfer}

/-- What a MOVE does next: with a raw NAND page, or between memories. -/
def State.moveNext (e : Nat) (x : Xfer) (p : Prog) (y : Xfr) (w : Ccw) (s : State) : State :=
  if (p.eff w).space = spRaw then s.rawMove e p y w x else s.memMove e w x

theorem exec_move_begins (d : Delivered s e p (w :: ws)) (hw : w.opc = 0x10) (hc : s.moveChecks p w = none) :
    exec (.move e x) s = .next ((s.beginXfr e Xfr.fresh).moveNext e x { p with xf := some Xfr.fresh } Xfr.fresh w) := by
  have arm : exec (.move e x) s = .next ((s.beginXfr e Xfr.fresh).goOn e (fun p y w s => s.moveNext e x p y w)) :=
    d.dataWord hw (chk := fun p w s => s.moveChecks p w) hc (plainStart e) _
  rw [arm, d.goOn_beginXfr rfl]

theorem exec_move_goesOn (h : Begun s e p (w :: ws) y) (hw : w.opc = 0x10) : exec (.move e x) s = .next (s.moveNext e x p y w) :=
  h.dataWord hw (fun p w s => s.moveChecks p w) (plainStart e) (fun p y w s => s.moveNext e x p y w)

theorem exec_move_raw (h : Begun s e p (w :: ws) y) (hw : w.opc = 0x10) (hr : (p.eff w).space = spRaw) :
    exec (.move e x) s = .next (s.rawMove e p y w x) := by
  rw [exec_move_goesOn h hw, State.moveNext, if_pos hr]

theorem exec_fill_begins (d : Delivered s e p (w :: ws)) (hw : w.opc = 0x18) (hc : s.fillChecks p w = none) :
    exec (.fill e x) s = .next ((s.beginXfr e Xfr.fresh).fillNext e w x) := by
  have arm : exec (.fill e x) s = .next ((s.beginXfr e Xfr.fresh).goOn e (fun _ _ w s => s.fillNext e w x)) :=
    d.dataWord hw (chk := fun p w s => s.fillChecks p w) hc (plainStart e) _
  rw [arm, d.goOn_beginXfr rfl]

theorem exec_fill_goesOn (h : Begun s e p (w :: ws) y) (hw : w.opc = 0x18) : exec (.fill e x) s = .next (s.fillNext e w x) :=
  h.dataWord hw (fun p w s => s.fillChecks p w) (plainStart e) (fun _ _ w s => s.fillNext e w x)

/-- The transfer of a VAULT_READ: the bytes of the image that it reads (R94). -/
def State.vaultXfr (s : State) (p : Prog) (w : Ccw) : Xfr :=
  { Xfr.fresh with src := (((s.image (s.vaultSlot w)).getD []).drop (fld w.addr 0 58)).take (opLen p.op) }

theorem exec_vaultRead_begins (d : Delivered s e p (w :: ws)) (hw : w.opc = 0x15) (hc : s.vaultChecks p w = none) :
    exec (.vaultRead e x) s = .next ((s.beginXfr e (s.vaultXfr p w)).vaultNext e (s.vaultXfr p w) w x) := by
  have arm : exec (.vaultRead e x) s = .next ((s.beginXfr e (s.vaultXfr p w)).goOn e (fun _ y w s => s.vaultNext e y w x)) :=
    d.dataWord hw (chk := fun p w s => s.vaultChecks p w) hc (fun p w s => s.beginXfr e (s.vaultXfr p w)) _
  rw [arm, d.goOn_beginXfr rfl]

theorem exec_vaultRead_goesOn (h : Begun s e p (w :: ws) y) (hw : w.opc = 0x15) : exec (.vaultRead e x) s = .next (s.vaultNext e y w x) :=
  h.dataWord hw (fun p w s => s.vaultChecks p w) (fun p w s => s.beginXfr e (s.vaultXfr p w)) (fun _ y w s => s.vaultNext e y w x)

theorem exec_regionRead_begins (d : Delivered s e p (w :: ws)) (hw : w.opc = 0x14) (hc : s.regionReadChecks p w = none) :
    exec (.regionRead e x) s = .next ((s.beginRegionRead e p w).goOn e (fun _ y w s => s.regionNext e y w x)) :=
  d.dataWord hw (chk := fun p w s => s.regionReadChecks p w) hc (fun p w s => s.beginRegionRead e p w) _

theorem exec_regionRead_goesOn (h : Begun s e p (w :: ws) y) (hw : w.opc = 0x14) : exec (.regionRead e x) s = .next (s.regionNext e y w x) :=
  h.dataWord hw (fun p w s => s.regionReadChecks p w) (fun p w s => s.beginRegionRead e p w) (fun _ y w s => s.regionNext e y w x)

theorem exec_regionRead_lost (d : Delivered s e p (w :: ws)) (hw : w.opc = 0x14) (hc : s.regionReadChecks p w = none) {r : Region}
    (hr : s.region (regionId w.addr) = some r)
    (hl : (s.unitPages (regionId w.addr) r (regionOff w.addr) (opLen p.op)).any (fun z => s.pageLost z.1 z.2) = true) :
    exec (.regionRead e x) s = .next (s.endAtWord e Ending.dataFault 0) := by
  have ends : s.beginRegionRead e p w = s.endAtWord e Ending.dataFault 0 := by
    simp only [State.beginRegionRead, hr, hl, if_true]
  rw [exec_regionRead_begins d hw hc, ends, d.goOn_endAtWord]

theorem exec_regionRead_held (d : Delivered s e p (w :: ws)) (hw : w.opc = 0x14) (hc : s.regionReadChecks p w = none) {r : Region}
    (hr : s.region (regionId w.addr) = some r)
    (hl : (s.unitPages (regionId w.addr) r (regionOff w.addr) (opLen p.op)).any (fun z => s.pageLost z.1 z.2) = false) :
    let q := State.askReads p.cls p.crew p.deadline (s.unitPages (regionId w.addr) r (regionOff w.addr) (opLen p.op)) (s.useRegion (regionId w.addr))
    exec (.regionRead e x) s = .next ((q.2.beginXfr e { Xfr.fresh with src := r.bytesAt (regionOff w.addr) (opLen p.op), reads := q.1 }).goOn e
      (fun _ y w s => s.regionNext e y w x)) := by
  rw [exec_regionRead_begins d hw hc]
  simp only [State.beginRegionRead, hr, hl, Bool.false_eq_true, if_false]

/-- A REGION_READ whose transfer is served delivers the next of the bytes kept. -/
theorem Carried.regionNext (h : Carried s e p (w :: ws) y) (hx : x.status = .ok) :
    s.regionNext e y w x = s.deliverNext e p w (mediaOps (opLen p.op)) (decide (y.src.length < opLen p.op)) x (fun p => p) := by
  rw [State.regionNext, h.carry, hx]
  rfl

/-- A raw page that is read delivers its bytes (R90, R472). -/
theorem Carried.rawMove_read (h : Carried s e p (w :: ws) y) (hm : (p.eff w).mode % 2 = 0) (hg : y.granted = true) (hx : x.status = .ok) :
    s.rawMove e p y w x =
      let k := p.portion (hasCell (p.pieces p.op) && !w.drp) (opLen p.op)
      let bs := x.data.take k
      State.wordProgress { bytes := bs.length, fail := none, st := if w.drp then s else State.scatter e p.fn (slicePieces (p.pieces p.op) p.moved k) bs s }
        e p (opLen p.op) 0 false false 1 (fun p => p) := by
  simp only [State.rawMove, hm, hg, if_true, Bool.not_true, Bool.false_eq_true, if_false, h.carry, State.deliverTo_ok s e p _ _ w.drp hx]
  rfl

/-- The last bytes of a raw page to write are taken: the page is driven, with 0xFF around them, and programmed. -/
theorem Carried.rawMove_write (h : Carried s e p (w :: ws) y) (hm : (p.eff w).mode % 2 = 1) (hg : y.granted = false)
    (hf : (s.collectNext e p false x).fail = none) (hs : cellEnd (p.pieces p.op) (s.collectNext e p false x) = false)
    (hl : opLen p.op ≤ (y.src ++ (s.collectNext e p false x).bytes).length) :
    s.rawMove e p y w x =
      let src := y.src ++ (s.collectNext e p false x).bytes
      let u := (s.collectNext e p false x).st.updProg e (fun p => { p with xf := p.xf.map (fun z => { z with src := src }) })
      let col := rawColumn (p.eff w).addr
      ((u.dropChan e dsOk).drive (.nandRaw (p.eff w).addr
        (List.replicate col 0xFF ++ src ++ List.replicate (u.pageBytes (rawLun (p.eff w).addr) - col - src.length) 0xFF))).rawJob e p (p.eff w).addr true := by
  have odd : ¬(p.eff w).mode % 2 = 0 := by omega
  simp only [State.rawMove, odd, hg, Bool.false_eq_true, if_false, h.carry, hf, hs, Option.isSome_none, Bool.or_self, Nat.not_lt.mpr hl]

/-- A raw page that was written ends its word (R90). -/
theorem State.rawMove_written (s : State) (e : Nat) (p : Prog) (w : Ccw) (hm : (p.eff w).mode % 2 = 1) (hg : y.granted = true) :
    s.rawMove e p y w x = State.endData { bytes := opLen p.op, fail := (xferEnding x.status false).map (fun n => (0, n)), st := s } e 0 false 1 (fun p => p) := by
  have odd : ¬(p.eff w).mode % 2 = 0 := by omega
  simp only [State.rawMove, odd, hg, if_false, if_true]
  cases xferEnding x.status false <;> rfl

theorem State.rawMove_asks (s : State) (e : Nat) (p : Prog) (w : Ccw) (hm : (p.eff w).mode % 2 = 0) (hg : y.granted = false) :
    s.rawMove e p y w x = s.rawJob e p (p.eff w).addr false := by
  simp only [State.rawMove, hm, hg, Bool.not_false, if_true]

end

/-- Settles O11: each data word begins or goes on by its row, and what a mover carries is the body that `carry` calls. -/
theorem dataWordsMove : Obligations.DataWordsMove := by
  refine ⟨fun e x s p w ws d => ⟨fun hw hc => ⟨fun hn => ?_, fun hr => ?_⟩, exec_fill_begins d, exec_vaultRead_begins d,
      fun hw hc r hr => ⟨fun hl => ⟨_, exec_regionRead_lost d hw hc hr hl, rfl⟩, exec_regionRead_held d hw hc hr⟩⟩,
    fun e x s p w ws y h => ⟨fun hw hn => ?_, fun hw => ?_, fun hw hx => ?_, fun hw hx => ?_, fun hw hr hm hg hx => ?_, fun hw hr hm hg hf hs hl => ?_⟩,
    fun e x s p w y hm hg => s.rawMove_asks e p w hm hg, fun e x s p w ws y h hw hr hm hg => ?_⟩
  · rw [exec_move_begins d hw hc, State.moveNext]
    exact congrArg _ (if_neg hn)
  · rw [exec_move_begins d hw hc, State.moveNext]
    exact congrArg _ (if_pos hr)
  · rw [exec_move_goesOn h.1 hw, State.moveNext, if_neg hn, State.memMove, h.carry]
  · rw [exec_fill_goesOn h.1 hw, State.fillNext, h.carry]
  · rw [exec_regionRead_goesOn h.1 hw, h.regionNext hx, State.deliverNext_ok s e h.1.2.2.2.1 w _ _ hx]
  · rw [exec_vaultRead_goesOn h.1 hw, State.vaultNext, h.carry, State.deliverNext_ok s e h.1.2.2.2.1 w _ _ hx]
  · rw [exec_move_raw h.1 hw hr, h.rawMove_read hm hg hx]
  · rw [exec_move_raw h.1 hw hr, h.rawMove_write hm hg hf hs hl]
  · rw [exec_move_raw h hw hr, s.rawMove_written e p w hm hg]

end Sys2Proof.Machine

/-! SUPPORT. Reads of streams. -/
namespace Sys2Proof.Machine

/-! ## READ_STREAM (R53, R54, R93) -/

section
variable {s : State} {e : Nat} {p : Prog} {w : Ccw} {ws : List Ccw} {y : Xfr} {x : Xfer} {st : Stream}

/-- The records that a READ_STREAM reads: those of the stream from its cursor on that fit. -/
def Stream.readBy (st : Stream) (p : Prog) (w : Ccw) : List Rec :=
  let all := st.from (w.mode.getLsbD 0) (p.getGp (fld w.sub 0 4 + 1)).toNat
  all.takeWhile (fun q => decide (q.seq < (takeRecs (fld w.addr 48 16) all (opLen p.op)).2.getD 0))

theorem exec_readStream_begins (d : Delivered s e p (w :: ws)) (hw : w.opc = 0x12) (hc : s.streamChecks p w = none) :
    exec (.readStream e x) s = .next ((s.beginRead e p w).goOn e (fun _ y w s => s.streamNext e y w x)) :=
  d.dataWord hw (chk := fun p w s => s.streamChecks p w) hc (fun p w s => s.beginRead e p w) _

theorem exec_readStream_goesOn (h : Begun s e p (w :: ws) y) (hw : w.opc = 0x12) : exec (.readStream e x) s = .next (s.streamNext e y w x) :=
  h.dataWord hw (fun p w s => s.streamChecks p w) (fun p w s => s.beginRead e p w) (fun _ y w s => s.streamNext e y w x)

/-- A cursor below the oldest number still held ends the program (R53). -/
theorem State.beginRead_gone (hs : s.stream (fld w.addr 48 16) = some st) (ht : w.mode.getLsbD 0 = false)
    (hg : (p.getGp (fld w.sub 0 4 + 1)).toNat < st.oldSeq) : s.beginRead e p w = s.endAtWord e Ending.dataGone 0 := by
  simp only [State.beginRead, hs, ht, hg, decide_true, Bool.not_false, Bool.and_self, if_true]

/-- Otherwise the records are kept, unless one of their pages is lost (R380). -/
theorem State.beginRead_held (hs : s.stream (fld w.addr 48 16) = some st)
    (hh : w.mode.getLsbD 0 = false → st.oldSeq ≤ (p.getGp (fld w.sub 0 4 + 1)).toNat) :
    s.beginRead e p w =
      let cur := (p.getGp (fld w.sub 0 4 + 1)).toNat
      let r := takeRecs (fld w.addr 48 16) (st.from (w.mode.getLsbD 0) cur) (opLen p.op)
      let pages := s.recPages (fld w.addr 48 16) (st.readBy p w)
      let q := State.askReads p.cls p.crew p.deadline pages (s.useStream (fld w.addr 48 16))
      if pages.any (fun x => s.pageLost x.1 x.2) then s.endAtWord e Ending.dataFault 0
      else q.2.beginXfr e { Xfr.fresh with
        src := r.1, heads := 32 * (st.readBy p w).length, next := r.2.getD (st.startAt (w.mode.getLsbD 0) cur), reads := q.1 } := by
  have held : ¬(!w.mode.getLsbD 0 && decide ((p.getGp (fld w.sub 0 4 + 1)).toNat < st.oldSeq)) = true := by
    simpa using hh
  simp only [State.beginRead, hs, if_neg held]
  rfl

/-- Where the transfer is served, a READ_STREAM delivers the next of its records, and its end leaves the number after them. -/
theorem Carried.streamNext (h : Carried s e p (w :: ws) y) (hx : x.status = .ok) :
    s.streamNext e y w x = s.deliverNext e p w (mediaOps (opLen p.op)) (decide (y.src.length < opLen p.op)) x
      (fun p => p.setGp (fld w.sub 0 4 + 1) (BitVec.ofNat 64 y.next)) := by
  rw [State.streamNext, h.carry, hx]
  rfl

end

/-- Settles O13: the start by the cursor and the pages of its records, and the next portion of the records kept. -/
theorem streamReadDelivers : Obligations.StreamReadDelivers := by
  refine ⟨fun e x s p w ws st d hw hc hs => ⟨fun ht hg => ?_, fun hh hl => ?_, fun hh hl => ?_⟩, fun e x s p w ws y h hw hx => ?_⟩
  · rw [exec_readStream_begins d hw hc, State.beginRead_gone hs ht hg, d.goOn_endAtWord]
  · rw [exec_readStream_begins d hw hc, State.beginRead_held hs hh]
    refine congrArg Host.Outcome.next ((congrArg (State.goOn · e _) (if_pos hl)).trans (d.goOn_endAtWord ..))
  · rw [exec_readStream_begins d hw hc, State.beginRead_held hs hh]
    exact congrArg Host.Outcome.next (congrArg (State.goOn · e _) (if_neg (ne_true_of_eq_false hl)))
  · rw [exec_readStream_goesOn h.1 hw, h.streamNext hx, State.deliverNext_ok s e h.1.2.2.2.1 w _ _ hx]

end Sys2Proof.Machine

/-! SUPPORT. The time limits of a program. -/
namespace Sys2Proof.Machine

/-! ## The time limits of a program (R127 to R129) -/

section
variable {s : State} {e : Nat} {p : Prog} {n : Ending}

theorem State.stopWord_seal (hs : p.op.head?.any (fun w => decide (w.opc = 0x30)) = true) (hp : p.phase = .fetched) :
    s.stopWord e p n = (s.sealOpen e).endAtWord e n 0 := by
  cases ho : p.op with
  | nil => simp [ho] at hs
  | cons w ws =>
    have sealing : w.opc = 0x30 := by simpa [ho] using hs
    simp [State.stopWord, ho, sealing, hp]

theorem State.stopWord_other (h : p.op.head?.any (fun w => decide (w.opc = 0x30)) = false ∨ p.phase ≠ .fetched) :
    s.stopWord e p n = s.endAtWord e n 0 := by
  cases ho : p.op with
  | nil => simp [State.stopWord, ho]
  | cons w ws =>
    have other : (decide (w.opc = 0x30) && decide (p.phase = .fetched)) = false := by
      obtain h | h := h
      · rw [show decide (w.opc = 0x30) = false by simpa [ho] using h, Bool.false_and]
      · rw [decide_eq_false h, Bool.and_false]
    simp only [State.stopWord, ho, other]
    rfl

theorem exec_stepTimeout (hr : s.running e = some p) (hp : p.phase = .fetched ∨ p.phase = .mbxFull ∨ p.phase = .bar)
    (ht : s.passedUs p.execAt (s.stepUs p) = true) :
    exec (.stepTimeout e) s = .next ((s.stopWord e p Ending.stepTimeout).report 0x0C 0 kindEng e 0) := by
  have executing : (decide (p.phase = .fetched) || decide (p.phase = .mbxFull) || decide (p.phase = .bar)) = true := by
    obtain h | h | h := hp <;> rw [h] <;> decide
  change execStepTimeout e s = _
  simp only [execStepTimeout, hr]
  exact occurs_true (by rw [executing, ht]; rfl) _

theorem exec_deadlineExpiry (hr : s.running e = some p) (hd : p.deadline ≠ 0) (hn : p.deadline.toNat ≤ s.now) (hp : p.phase ≠ .postwait)
    (hc : 2 ≤ p.cls ∧ n = Ending.stepTimeout ∨ p.cls = 1 ∧ s.fcs.lost = true ∧ n = Ending.deadlineMissed) :
    exec (.deadlineExpiry e) s = .next (if p.phase.inWord then s.stopWord e p n else s.endAtLast e n) := by
  have judged : (decide (2 ≤ p.cls) || (decide (p.cls = 1) && s.fcs.lost)) = true := by
    obtain ⟨h, -⟩ | ⟨h, hl, -⟩ := hc
    · simp [h]
    · simp [h, hl]
  have ending : (if p.cls = 1 then Ending.deadlineMissed else Ending.stepTimeout) = n := by
    obtain ⟨h, rfl⟩ | ⟨h, -, rfl⟩ := hc
    · exact if_neg (by omega)
    · exact if_pos h
  change execDeadlineExpiry e s = _
  simp only [execDeadlineExpiry, hr, ending]
  exact occurs_true (by rw [judged, decide_eq_true hd, decide_eq_true hn, decide_eq_true hp]; rfl) _

end

/-- Settles O16: the word in hand stops at `stopWord`, by whether it is a SEAL; between words the last one is named. -/
theorem timeLimitsEndPrograms : Obligations.TimeLimitsEndPrograms := by
  refine fun e s p => ⟨fun hr hp ht => ⟨fun h => ?_, fun hs hf => ?_⟩, fun n hr hd hn hp hc => ⟨fun hw => ?_, fun hw h => ?_, fun hf hs => ?_⟩⟩
  · rw [exec_stepTimeout hr hp ht, State.stopWord_other h]
  · rw [exec_stepTimeout hr hp ht, State.stopWord_seal hs hf]
  · rw [exec_deadlineExpiry hr hd hn hp hc, hw]
    rfl
  · rw [exec_deadlineExpiry hr hd hn hp hc, if_pos hw, State.stopWord_other h]
  · rw [exec_deadlineExpiry hr hd hn hp hc, if_pos (by rw [hf]; rfl), State.stopWord_seal hs hf]

end Sys2Proof.Machine

/-! SUPPORT. Persistence words. -/
namespace Sys2Proof.Machine

/-! ## Persistence words (R44, R45, R49, R92, R97) -/

section
variable {s : State} {e : Nat} {p : Prog} {w : Ccw} {ws : List Ccw} {t : Target} {x : Xfer}

theorem exec_append_begins (d : Delivered s e p (w :: ws)) (hw : w.opc = 0x11) (hc : s.appendChecks p w = none) :
    exec (.append e x) s = .next (((s.useStream (fld w.addr 48 16)).beginPersist e).goOn e (fun _ _ w s => s.persistNext e w x)) :=
  d.dataWord hw (chk := fun p w s => s.appendChecks p w) hc (fun _ w s => (s.useStream (fld w.addr 48 16)).beginPersist e) _

theorem exec_append_goesOn {y : Xfr} (h : Begun s e p (w :: ws) y) (hw : w.opc = 0x11) : exec (.append e x) s = .next (s.persistNext e w x) :=
  h.dataWord hw (fun p w s => s.appendChecks p w) (fun _ w s => (s.useStream (fld w.addr 48 16)).beginPersist e) (fun _ _ w s => s.persistNext e w x)

theorem exec_regionWrite_begins (d : Delivered s e p (w :: ws)) (hw : w.opc = 0x13) (hc : s.regionWriteChecks p w = none) :
    exec (.regionWrite e x) s = .next (((s.useRegion (regionId w.addr)).beginPersist e).goOn e (fun _ _ w s => s.persistNext e w x)) :=
  d.dataWord hw (chk := fun p w s => s.regionWriteChecks p w) hc (fun _ w s => (s.useRegion (regionId w.addr)).beginPersist e) _

theorem exec_regionWrite_goesOn {y : Xfr} (h : Begun s e p (w :: ws) y) (hw : w.opc = 0x13) :
    exec (.regionWrite e x) s = .next (s.persistNext e w x) :=
  h.dataWord hw (fun p w s => s.regionWriteChecks p w) (fun _ w s => (s.useRegion (regionId w.addr)).beginPersist e) (fun _ _ w s => s.persistNext e w x)

theorem exec_trim (d : Delivered s e p (w :: ws)) (hw : w.opc = 0x31) (hc : s.trimChecks p w = none) :
    exec (.trim e) s = .next (s.beginPersist e) := by
  change execTrim e s = _
  rw [execTrim, State.atWord_delivered d _ _ (by simp [hw]), State.checked_none d _ _ hc]

theorem Prog.persistTarget_head (ho : p.op = w :: ws) : p.op.head?.bind p.persistTarget = p.persistTarget w := by rw [ho]; rfl

section
variable (hp : s.prog e = some p) (ho : p.op = w :: ws) (ht : p.persistTarget w = some t)
include hp ho ht

/-- A write beyond the byte count of a PINNED stream marks it full (R51). -/
theorem State.beginPersist_full {id : Nat} (hf : s.pinnedFull t (opLen p.op) = some id) :
    s.beginPersist e = (s.updStream id (fun st => { st with full := true })).endAtWord e Ending.resourceExhausted 0 := by
  simp only [State.beginPersist, hp, Prog.persistTarget_head ho, ht, hf]

/-- A write opens its group where none is open, and its charge decides (R34, R44, R45). -/
theorem State.beginPersist_room (hf : s.pinnedFull t (opLen p.op) = none) :
    s.beginPersist e =
      let o := s.openGroup e p
      let c := t.charge (opLen p.op)
      if groupMax < o.2.groupCharge (some o.1) + c then o.2.endAtWord e Ending.programFault 0
      else match o.2.tryCharge { p with group := some o.1 } c with
        | .refused => o.2.endAtWord e Ending.energyLimit 0
        | .waits => ((o.2.enqueueCharge e p.cls c).ack e).updProg e (fun q => { q with phase := .charge })
        | .granted => o.2.grantPersist e := by
  simp only [State.beginPersist, hp, Prog.persistTarget_head ho, ht, hf] <;> rfl

/-- A granted charge lets the write join the group: a write without bytes completes, and any other takes its bytes (R49, R57, R92). -/
theorem State.grantPersist_room {g : Nat} (hg : p.group = some g) (hf : s.pinnedFull t (opLen p.op) = none) :
    s.grantPersist e =
      let c := t.charge (opLen p.op)
      let b := (s.updProg e (fun q => { q with reserve := q.reserve - c, phase := .fetched })).bindWrite t g (List.replicate (t.moves (opLen p.op)) 0)
      let u := b.2.addWrite g b.1 c
      if t.moves (opLen p.op) = 0 then
        let u := u.updProg e (fun q => q.deviceDone 0 1 1)
        (if p.policy = 2 then u.sealOpen e else u).completeWord e .next
      else u.beginXfr e { Xfr.fresh with granted := true } := by
  simp only [State.grantPersist, hp, Prog.persistTarget_head ho, ht, hg, hf]

end

/-- The next of the bytes of a write are collected and, with the last of them, the write is whole (R34, R36). -/
theorem Carried.persistNext {y : Xfr} {i : Nat} (h : Carried s e p (w :: ws) y) (hg : p.group = some i) (hf : (s.collectNext e p false x).fail = none)
    (hs : cellEnd (p.pieces p.op) (s.collectNext e p false x) = false) :
    s.persistNext e w x =
      let g := s.collectNext e p false x
      let src := y.src ++ g.bytes
      let u := g.st.updProg e (fun p => { p with xf := p.xf.map (fun z => { z with src := src }) })
      let next := if src.length < opLen p.op then u else if p.policy = 2 then (u.fillWrite i src).sealOpen e else u.fillWrite i src
      State.wordProgress { bytes := g.bytes.length, fail := none, st := next } e p (opLen p.op) (mediaOps (opLen p.op)) false false 1 (fun p => p) := by
  obtain ⟨-, -, -, hx, -⟩ := id h.1
  rw [State.persistNext, h.carry]
  simp only [hx, hf, hs, hg, Option.isNone_none, Bool.false_or, Bool.not_false, Bool.true_or, Bool.and_true, Bool.true_and]
  by_cases more : (y.src ++ (s.collectNext e p false x).bytes).length < opLen p.op
  · simp only [decide_eq_false (Nat.not_le.mpr more), if_pos more]
  · simp only [decide_eq_true (Nat.not_lt.mp more), if_neg more, Got.fill]

theorem exec_landingChargeGrant {c0 : Bool} {c : Charge} {rest : List Charge} (hq : s.lq.queue c0 = c :: rest) (hr : s.running c.eng = some p)
    (ho : s.chargeOpen c.cls = true) (hb : c.bytes ≤ s.freeRoom c.cls + p.reserve) :
    exec (.landingChargeGrant c0 x) s = .next ((((s.dropCharge c.eng).updProg c.eng (fun q => { q with execAt := s.tick })).grantPersist c.eng).goOn c.eng
      (fun _ _ w s => s.persistNext c.eng w x)) := by
  change execLandingChargeGrant c0 x s = _
  simp only [execLandingChargeGrant, hq, hr]
  have now : (s.dropCharge c.eng).tick = s.tick := congrArg Core.tick (s.dropCharge_core c.eng)
  refine (occurs_true ?_ _).trans ?_
  · rw [ho, decide_eq_true hb]
    rfl
  · simp only [now]

end

/-- Settles O14: the start of a write by its room and its charge, what a granted charge does, and the bytes that a mover collects for it. -/
theorem persistWordsRun : Obligations.PersistWordsRun := by
  refine ⟨fun e x s p w ws d => ⟨exec_append_begins d, exec_regionWrite_begins d, exec_trim d⟩, fun e s p w ws t hp ho ht =>
      ⟨fun id => State.beginPersist_full hp ho ht, fun hf => ⟨fun big => ?_, fun fits => ⟨fun hc => ?_, fun hc => ?_, fun hc => ?_⟩⟩,
        fun g hg hf => ⟨fun hm => ?_, fun hm => ?_⟩⟩,
    fun e x s p w ws y i h hg hf hs => ⟨fun hw => ?_, fun hw => ?_⟩, fun c0 x s c rest p => exec_landingChargeGrant⟩
  · rw [State.beginPersist_room hp ho ht hf]
    exact if_pos big
  · rw [State.beginPersist_room hp ho ht hf]
    simp only [if_neg (Nat.not_lt.mpr fits), hc]
  · rw [State.beginPersist_room hp ho ht hf]
    simp only [if_neg (Nat.not_lt.mpr fits), hc]
  · rw [State.beginPersist_room hp ho ht hf]
    simp only [if_neg (Nat.not_lt.mpr fits), hc]
  · rw [State.grantPersist_room hp ho ht hg hf]
    exact if_neg hm
  · rw [State.grantPersist_room hp ho ht hg hf]
    exact if_pos hm
  · rw [exec_append_goesOn h.1 hw, h.persistNext hg hf hs]
  · rw [exec_regionWrite_goesOn h.1 hw, h.persistNext hg hf hs]

end Sys2Proof.Machine

/-! SUPPORT. Doorbells. -/
namespace Sys2Proof.Machine

/-! ## Doorbells (R9, R161, R162, R167) -/

section
variable {s : State} {fn off n m : Nat} {v : W32}

theorem exec_sqTailDoorbell (live : s.fnLive fn = true) : exec (.sqTailDoorbell fn off v) s = .next (
    if off = 0xF0000 then s.ringAq fn (fld v 0 16)
    else if off < 0x8000 ∧ off % 8 = 0 then (s.sq (off / 8)).elim s fun q => if q.fn = fn then s.ringSq (off / 8) (fld v 0 16) else s
    else s) := by
  change execSqTailDoorbell fn off v s = _
  rw [execSqTailDoorbell, occurs_true live]
  cases s.sq (off / 8) <;> rfl

/-- The doorbell of queue `n`. -/
theorem exec_sqTailDoorbell_io (live : s.fnLive fn = true) (hn : n < 0x1000) : exec (.sqTailDoorbell fn (8 * n) v) s =
    .next ((s.sq n).elim s fun q => if q.fn = fn then s.ringSq n (fld v 0 16) else s) := by
  have slot : 8 * n / 8 = n := by omega
  rw [exec_sqTailDoorbell live, if_neg (by omega), if_pos (by omega), slot]

theorem exec_cqHeadDoorbell (live : s.fnLive fn = true) : exec (.cqHeadDoorbell fn off v) s = .next (
    if off = 0xF0008 then
      if inRing (s.aq fn).cqHead (s.aq fn).cqTail (s.aq fn).cqDepth (fld v 0 16) then s.updAq fn (fun a => { a with cqHead := fld v 0 16 })
      else (s.updAq fn (fun a => { a with dbErr := true })).aqSets fn 8
    else if 0x80000 ≤ off ∧ off < 0x84000 ∧ off % 8 = 0 then
      (s.cq ((off - 0x80000) / 8)).elim s fun q =>
        if q.fn ≠ fn then s
        else if inRing q.head q.tail q.depth (fld v 0 16) then
          s.updCq ((off - 0x80000) / 8) (fun q => { q with head := fld v 0 16, c0Full := q.c0Full && decide ((q.tail + 1) % q.depth = fld v 0 16) })
        else (s.updCq ((off - 0x80000) / 8) (fun q => { q with dbErr := true })).cqSets ((off - 0x80000) / 8) 8
    else s) := by
  change execCqHeadDoorbell fn off v s = _
  rw [execCqHeadDoorbell, occurs_true live]
  cases s.cq ((off - 0x80000) / 8) <;> rfl

/-- The doorbell of completion queue `m`. -/
theorem exec_cqHeadDoorbell_io (live : s.fnLive fn = true) (hm : m < 0x800) : exec (.cqHeadDoorbell fn (0x80000 + 8 * m) v) s =
    .next ((s.cq m).elim s fun q =>
      if q.fn ≠ fn then s
      else if inRing q.head q.tail q.depth (fld v 0 16) then
        s.updCq m (fun q => { q with head := fld v 0 16, c0Full := q.c0Full && decide ((q.tail + 1) % q.depth = fld v 0 16) })
      else (s.updCq m (fun q => { q with dbErr := true })).cqSets m 8) := by
  have slot : (0x80000 + 8 * m - 0x80000) / 8 = m := by omega
  rw [exec_cqHeadDoorbell live, if_neg (by omega), if_pos (by omega), slot]

/-- A fenced function has no doorbells (R9). -/
theorem exec_doorbells_fenced (dead : s.fnLive fn = false) :
    exec (.sqTailDoorbell fn off v) s = .next s ∧ exec (.cqHeadDoorbell fn off v) s = .next s := by
  change execSqTailDoorbell fn off v s = _ ∧ execCqHeadDoorbell fn off v s = _
  rw [execSqTailDoorbell, execCqHeadDoorbell, occurs_false dead, occurs_false dead]
  exact ⟨rfl, rfl⟩

/-! ## What a doorbell changes -/

/-- The tail that a doorbell leaves of a queue: it sets the tail, or an error bit. -/
def Sq.ring (i tick : Nat) (q : Sq) : Sq :=
  if q.depth ≤ i then { q with dbErr := true }
  else { q with tail := i, stopped := false, bells := if i = q.tail then q.bells else q.bells ++ [(i, tick)] }

theorem State.ringSq_within {q : Sq} (hq : s.sq n = some q) {i : Nat} (hi : i < q.depth) : s.ringSq n i = s.updSq n (Sq.ring i s.tick) := by
  have within : s.sqBeyond n i = false := by simp [State.sqBeyond, hq, hi]
  rw [State.ringSq, within]
  rfl

theorem State.ringSq_beyond {q : Sq} (hq : s.sq n = some q) {i : Nat} (hi : q.depth ≤ i) :
    s.ringSq n i = (s.sets (qeReg q.fn (0x20004 + 0x20 * n)) 8).updSq n (Sq.ring i s.tick) := by
  have beyond : s.sqBeyond n i = true := by simp [State.sqBeyond, hq, hi]
  rw [State.ringSq, beyond, if_pos rfl, State.sqSets, hq]
  rfl

@[simp] theorem State.sets_sq (s : State) (reg bit n : Nat) : (s.sets reg bit).sq n = s.sq n := rfl
@[simp] theorem State.sets_cq (s : State) (reg bit m : Nat) : (s.sets reg bit).cq m = s.cq m := rfl
@[simp] theorem State.sets_aq (s : State) (reg bit fn : Nat) : (s.sets reg bit).aq fn = s.aq fn := rfl

/-- A change of queue `n` that is not refused. -/
theorem State.updSq_only {q : Sq} (hq : s.sq n = some q) (f : Sq → Sq) :
    (s.updSq n f).sq n = some (f q) ∧ (∀ m, m ≠ n → (s.updSq n f).sq m = s.sq m) ∧ s.updSq n f = { s with qe := { s.qe with sqs := (s.updSq n f).qe.sqs } } :=
  ⟨by rw [State.updSq_sq_same, hq]; rfl, fun _ => State.updSq_sq_other _ _ _ _, rfl⟩

theorem State.updCq_only {q : Cq} (hq : s.cq m = some q) (f : Cq → Cq) :
    (∀ k, k ≠ m → (s.updCq m f).cq k = s.cq k) ∧ s.updCq m f = { s with qe := { s.qe with cqs := (s.updCq m f).qe.cqs } } ∧ (s.updCq m f).cq m = some (f q) :=
  ⟨fun _ => State.updCq_cq_other _ _ _ _, rfl, by rw [State.updCq_cq_same, hq]; rfl⟩

theorem State.updAq_only (s : State) (fn : Nat) (f : Aq → Aq) :
    (∀ g, g ≠ fn → (s.updAq fn f).aq g = s.aq g) ∧ (s.updAq fn f).aq fn = f (s.aq fn) ∧ s.updAq fn f = { s with qe := { s.qe with aqs := (s.updAq fn f).qe.aqs } } :=
  ⟨fun _ => State.updAq_aq_other _ _ _ _, State.updAq_aq_same .., rfl⟩

theorem inRing_iff {head tail depth v : Nat} :
    inRing head tail depth v = true ↔ v < depth ∧ (v + depth - head) % depth ≤ (tail + depth - head) % depth := by
  simp [inRing]

end

/-- Settles O19: a doorbell by its offset, and by whether its value is in range; each change is one of the queue or the pair that it names. -/
theorem doorbellsMoveQueues : Obligations.DoorbellsMoveQueues := by
  refine ⟨fun fn off v s => ⟨exec_doorbells_fenced, fun ho hr => ?tailOther, fun ho hr => ?headOther⟩,
    fun fn n v s live hn => ⟨fun hq => ?_, fun q hq => ⟨fun hf => ?_, fun hf hb => ?_, fun hf hw => ?_⟩⟩,
    fun fn v s live => ⟨fun hw => ?_, fun hb => ?_, fun hi => ?_, fun ho => ?_⟩,
    fun fn m v s live hm => ⟨fun hq => ?_, fun q hq => ⟨fun hf => ?_, fun hf hd hi => ?_, fun hf ho => ?_⟩⟩⟩
  case tailOther =>
    cases live : s.fnLive fn
    · exact (exec_doorbells_fenced live).1
    · rw [exec_sqTailDoorbell live, if_neg ho, if_neg (by omega)]
  case headOther =>
    cases live : s.fnLive fn
    · exact (exec_doorbells_fenced live).2
    · rw [exec_cqHeadDoorbell live, if_neg ho, if_neg (by omega)]
  · rw [exec_sqTailDoorbell_io live hn, hq, Option.elim_none]
  · rw [exec_sqTailDoorbell_io live hn, hq, Option.elim_some, if_neg hf]
  · subst hf
    rw [exec_sqTailDoorbell_io live hn, hq, Option.elim_some, if_pos rfl, State.ringSq_beyond hq hb]
    obtain ⟨own, rest, -⟩ := State.updSq_only (s := s.sets (qeReg q.fn (0x20004 + 0x20 * n)) 8) hq (Sq.ring (fld v 0 16) s.tick)
    exact ⟨_, rfl, own.trans (by rw [Sq.ring, if_pos hb]), rest, rfl⟩
  · rw [exec_sqTailDoorbell_io live hn, hq, Option.elim_some, if_pos hf, State.ringSq_within hq hw]
    obtain ⟨own, rest, frame⟩ := State.updSq_only hq (Sq.ring (fld v 0 16) s.tick)
    exact ⟨_, rfl, own.trans (by rw [Sq.ring, if_neg (Nat.not_le.mpr hw)]), rest, frame⟩
  · rw [exec_sqTailDoorbell live, if_pos rfl, State.ringAq, if_neg (Nat.not_le.mpr hw)]
    exact ⟨_, rfl, State.updAq_only ..⟩
  · rw [exec_sqTailDoorbell live, if_pos rfl, State.ringAq, if_pos hb]
    obtain ⟨rest, own, -⟩ := State.updAq_only s fn (fun a => { a with dbErr := true })
    exact ⟨_, rfl, rest, own, rfl⟩
  · rw [exec_cqHeadDoorbell live, if_pos rfl, if_pos hi]
    exact ⟨_, rfl, State.updAq_only ..⟩
  · rw [exec_cqHeadDoorbell live, if_pos rfl, if_neg (ne_true_of_eq_false ho)]
    obtain ⟨rest, own, -⟩ := State.updAq_only s fn (fun a => { a with dbErr := true })
    exact ⟨_, rfl, rest, own, rfl⟩
  · rw [exec_cqHeadDoorbell_io live hm, hq, Option.elim_none]
  · rw [exec_cqHeadDoorbell_io live hm, hq, Option.elim_some, if_pos hf]
  · rw [exec_cqHeadDoorbell_io live hm, hq, Option.elim_some, if_neg (not_not_intro hf), if_pos (inRing_iff.mpr ⟨hd, hi⟩)]
    exact ⟨_, rfl, State.updCq_only hq _⟩
  · subst hf
    have outside : ¬inRing q.head q.tail q.depth (fld v 0 16) = true := fun h => by
      obtain ⟨hd, hi⟩ := inRing_iff.mp h
      omega
    obtain ⟨rest, -, own⟩ := State.updCq_only hq (fun q => { q with dbErr := true })
    have marked : (s.updCq m (fun q => { q with dbErr := true })).cqSets m 8
        = (s.updCq m (fun q => { q with dbErr := true })).sets (qeReg q.fn (0x40004 + 0x20 * m)) 8 := by
      rw [State.cqSets, own]
    rw [exec_cqHeadDoorbell_io live hm, hq, Option.elim_some, if_neg (not_not_intro rfl), if_neg outside, marked]
    exact ⟨_, rfl, rest, own, rfl⟩

end Sys2Proof.Machine

/-! SUPPORT. Entries of the submission queues, and queue control. -/
namespace Sys2Proof.Machine

/-! ## Entries of a submission queue (R165 to R168) -/

/-- The head slots that a fetch of a queue sees: the copy held, or the block that the read returned. -/
def headCopy (copy : Option (Nat × List (Option (List Byte)))) (head depth : Nat) (r : Rd) : Option (Nat × List (Option (List Byte))) :=
  if (copyAt copy head).isSome then copy else match r with | .data bs => some (blockCopy head depth bs) | .error => copy

/-- The state in which a fetch looks at the head slot: the block is read where no copy of it is held. -/
def State.headRead (s : State) (fn : Nat) (base : W64) (copy : Option (Nat × List (Option (List Byte)))) (head depth : Nat) : State :=
  if (copyAt copy head).isSome then s else s.readBlock fn base head depth

section
variable {s : State} {n : Nat} {r : Rd} {q : Sq}

section
variable (hq : s.sq n = some q) (hm : s.mayFetch n q = true)
include hq hm

/-- The head slot of a queue that may be fetched and is not empty. -/
theorem exec_sqEntryFetch_io (hw : q.ownWait = none) (ht : q.head ≠ q.tail) :
    exec (.sqEntryFetch (.io n) r) s =
      let u := s.headRead q.fn q.base q.copy q.head q.depth
      match copyAt (headCopy q.copy q.head q.depth r) q.head with
      | none => .next (((u.updSq n (fun x => { x with rdErr := true, ownWait := some u.tick })).sqSets n 10).readFailed q.fn)
      | some e =>
        let v := u.updSq n (fun x => { x with copy := headCopy q.copy q.head q.depth r })
        if (sqeOf e).own = q.phase then v.stageSq n e
        else .next (v.updSq n (fun x => { x with copy := copyDrop x.copy x.head, ownWait := some u.tick })) := by
  change execSqEntryFetch (.io n) r s = _
  simp only [execSqEntryFetch, hq, hm, hw, ht, Option.isSome_none, Bool.not_true, Bool.or_self, Bool.false_eq_true, if_false]
  rfl

/-- An empty queue with SPEC reads ahead. -/
theorem exec_sqEntryFetch_spec (hw : q.ownWait = none) (ht : q.head = q.tail) (hs : q.spec = true) (hc : copyAt q.copy q.tail = none) :
    exec (.sqEntryFetch (.io n) r) s =
      let u := s.readBlock q.fn q.base q.tail q.depth
      match r with
      | .data bs => .next (u.updSq n (fun x => { x with copy := some (blockCopy x.tail x.depth bs) }))
      | .error => .next (((u.updSq n (fun x => { x with rdErr := true })).sqSets n 10).readFailed q.fn) := by
  change execSqEntryFetch (.io n) r s = _
  simp only [execSqEntryFetch, hq, hm, hw, ht, hs, hc, Option.isSome_none, Bool.not_true, Bool.or_self, Bool.false_eq_true, if_false, if_true] <;> rfl

/-- A waiting slot is read again. -/
theorem exec_ownReread_io (hw : q.ownWait.isSome = true) :
    exec (.ownReread (.io n) r) s =
      let u := s.readRing q.fn q.base q.head 1
      match r with
      | .error => .next (((u.updSq n (fun x => { x with rdErr := true })).sqSets n 10).readFailed q.fn)
      | .data e => if e.length = 64 ∧ (sqeOf e).own = q.phase then u.stageSq n e else .next u := by
  have waits : q.ownWait.isNone = false := Option.isNone_eq_false_iff.mpr hw
  change execOwnReread (.io n) r s = _
  simp only [execOwnReread, hq, hm, waits, Bool.not_true, Bool.or_self, Bool.false_eq_true, if_false] <;> rfl

end

theorem exec_sqOwnTimeout_io {k : Nat} (hq : s.sq n = some q) (hw : q.ownWait = some k) (ht : s.passedUs k (s.aq q.fn).ownWaitUs = true) :
    exec (.sqOwnTimeout (.io n)) s =
      .next (((s.updSq n (fun x => { x with ownErr := true, ownWait := none, stopped := true })).sqSets n 9).postEvent q.fn 0x0002 n (BitVec.ofNat 64 q.head)) := by
  change execSqOwnTimeout (.io n) s = _
  simp only [execSqOwnTimeout, hq, hw]
  exact occurs_true ht _

theorem State.stageSq_undef {e : List Byte} (h : (sqeOf e).undef = true) : s.stageSq n e = .fault .reservedEntry := if_pos h

/-- The entry that is taken from the head slot. -/
def Sq.entryTaken (q : Sq) (s : State) (e : List Byte) : Staged :=
  { sqe := sqeOf e, bell := (bellsAt q.head q.bells s.tick).1, hdr := none, waiting := false, no := s.qe.nextStage }

theorem State.stageSq_taken {e : List Byte} (hq : s.sq n = some q) (h : (sqeOf e).undef = false) :
    ∃ t, s.stageSq n e = .next t ∧ (∀ m, m ≠ n → t.sq m = s.sq m)
      ∧ t.sq n = some { q with
          staged := q.staged ++ [q.entryTaken s e], bells := (bellsAt q.head q.bells s.tick).2, copy := copyDrop q.copy q.head
          head := (q.head + 1) % q.depth, phase := if (q.head + 1) % q.depth = 0 then !q.phase else q.phase, ownWait := none }
      ∧ t = { s with qe := { s.qe with sqs := t.qe.sqs, nextStage := s.qe.nextStage + 1 } } := by
  obtain ⟨own, rest, -⟩ := State.updSq_only hq (fun q => { q with
    staged := q.staged ++ [q.entryTaken s e], bells := (bellsAt q.head q.bells s.tick).2, copy := copyDrop q.copy q.head
    head := (q.head + 1) % q.depth, phase := if (q.head + 1) % q.depth = 0 then !q.phase else q.phase, ownWait := none })
  exact ⟨_, if_neg (ne_true_of_eq_false h), rest, own, rfl⟩

end

/-! ## Packets of an admin queue -/

section
variable {s : State} {fn : Nat} {r : Rd}

theorem exec_sqEntryFetch_adm (hm : s.mayFetchAq fn (s.aq fn) = true) (hw : (s.aq fn).ownWait = none) (ht : (s.aq fn).sqHead ≠ (s.aq fn).sqTail) :
    exec (.sqEntryFetch (.adm fn) r) s =
      let u := s.headRead fn (s.aq fn).sqBase (s.aq fn).copy (s.aq fn).sqHead (s.aq fn).sqDepth
      match copyAt (headCopy (s.aq fn).copy (s.aq fn).sqHead (s.aq fn).sqDepth r) (s.aq fn).sqHead with
      | none => .next (((u.updAq fn (fun x => { x with rdErr := true, ownWait := some u.tick })).aqSets fn 10).readFailed fn)
      | some e =>
        let v := u.updAq fn (fun x => { x with copy := headCopy (s.aq fn).copy (s.aq fn).sqHead (s.aq fn).sqDepth r })
        if (sqeOf e).own = (s.aq fn).sqPhase then .next (v.stageAq fn e)
        else .next (v.updAq fn (fun x => { x with copy := copyDrop x.copy x.sqHead, ownWait := some u.tick })) := by
  change execSqEntryFetch (.adm fn) r s = _
  simp only [execSqEntryFetch, hm, hw, decide_eq_false ht, Option.isSome_none, Bool.not_true, Bool.or_self, Bool.false_eq_true, if_false]
  rfl

theorem exec_ownReread_adm (hm : s.mayFetchAq fn (s.aq fn) = true) (hw : (s.aq fn).ownWait.isSome = true) :
    exec (.ownReread (.adm fn) r) s =
      let u := s.readRing fn (s.aq fn).sqBase (s.aq fn).sqHead 1
      match r with
      | .error => .next (((u.updAq fn (fun x => { x with rdErr := true })).aqSets fn 10).readFailed fn)
      | .data e => if e.length = 64 ∧ (sqeOf e).own = (s.aq fn).sqPhase then .next (u.stageAq fn e) else .next u := by
  have waits : (s.aq fn).ownWait.isNone = false := Option.isNone_eq_false_iff.mpr hw
  change execOwnReread (.adm fn) r s = _
  simp only [execOwnReread, hm, waits, Bool.not_true, Bool.or_self, Bool.false_eq_true, if_false] <;> rfl

theorem exec_sqOwnTimeout_adm {k : Nat} (hw : (s.aq fn).ownWait = some k) (ht : s.passedUs k (s.aq fn).ownWaitUs = true) :
    exec (.sqOwnTimeout (.adm fn)) s =
      .next (((s.updAq fn (fun x => { x with ownErr := true, ownWait := none, stopped := true })).aqSets fn 9).postEvent fn 0x0002 0xFFFF
        (BitVec.ofNat 64 (s.aq fn).sqHead)) := by
  change execSqOwnTimeout (.adm fn) s = _
  simp only [execSqOwnTimeout, hw]
  exact occurs_true ht _

/-- The packet that is taken joins the Management Processor's, and the head of its pair advances. -/
theorem State.stageAq_taken (s : State) (fn : Nat) (e : List Byte) :
    let h := ((s.aq fn).sqHead + 1) % (s.aq fn).sqDepth
    (s.stageAq fn e).mgp.staged = s.mgp.staged ++ [{
        fn := fn, mid := midOf fn, bytes := e, tick := s.tick, no := s.qe.nextStage, started := false, committed := false
        begun := 0, resetting := false, inner := none, mute := false }]
      ∧ (∀ g, g ≠ fn → (s.stageAq fn e).aq g = s.aq g)
      ∧ (s.stageAq fn e).aq fn = { s.aq fn with
          copy := copyDrop (s.aq fn).copy (s.aq fn).sqHead, sqHead := h, sqPhase := if h = 0 then !(s.aq fn).sqPhase else (s.aq fn).sqPhase
          ownWait := none } := by
  obtain ⟨rest, own, -⟩ := State.updAq_only s fn (fun a =>
    let h := (a.sqHead + 1) % a.sqDepth
    { a with copy := copyDrop a.copy a.sqHead, sqHead := h, sqPhase := if h = 0 then !a.sqPhase else a.sqPhase, ownWait := none })
  exact ⟨rfl, rest, own⟩

/-! ## Queue control (R181, R189 to R191) -/

theorem exec_sqEnableWrite {n : Nat} {v : W32} (hw : s.mayWrite (midOf fn) qeBlock = true) :
    exec (.sqEnableWrite fn n v) s = .next (s.writeSqCtrl fn n v) := by
  change execSqEnableWrite fn n v s = _
  rw [execSqEnableWrite, occurs_true hw]

theorem exec_haltAll {n : Nat} {v : W32} (hw : s.mayWrite (midOf fn) qeBlock = true) (hv : v.getLsbD 2 = true) :
    exec (.haltAll fn n v) s = .next (s.writeSqCtrl fn n v) := by
  change execHaltAll fn n v s = _
  rw [execHaltAll, hv, hw, Bool.and_self, occurs_true rfl]

/-- The pair after a write `v` of its control register, less the bits that an event has set in its tick. -/
def Aq.control (v : W32) (a : Aq) : Aq :=
  let a := { a with dbErr := a.dbErr && !v.getLsbD 8, ownErr := a.ownErr && !v.getLsbD 9, rdErr := a.rdErr && !v.getLsbD 10 }
  if v.getLsbD 0 && !a.en then
    { a with
      en := true, rdy := true, sqHead := 0, sqTail := 0, sqPhase := true, cqHead := 0, cqTail := 0, cqPhase := true, ownWait := none, stopped := false
      copy := none }
  else if v.getLsbD 0 then a else { a with en := false, rdy := false, ownWait := none, copy := none }

theorem exec_aqEnable {v : W32} (hw : s.mayWrite (midOf fn) qeBlock = true) :
    exec (.aqEnable fn v) s = .next (s.updAq fn (Aq.control (s.clears (qeReg fn 4) v))) := by
  change execAqEnable fn v s = _
  rw [execAqEnable, occurs_true hw]
  rfl

end

section
variable {s : State} {fn n : Nat} {v : W32}

theorem State.writeSqCtrl_foreign (h : ∀ q, s.sq n = some q → q.fn ≠ fn) : s.writeSqCtrl fn n v = s := by
  unfold State.writeSqCtrl
  split
  · rfl
  · exact if_pos (h _ ‹_›)

theorem State.writeSqCtrl_own {q : Sq} (hq : s.sq n = some q) (hf : q.fn = fn) :
    s.writeSqCtrl fn n v =
      let u := s.updSq n (fun q => { q with en := v.getLsbD 0, spec := v.getLsbD 1 })
      if v.getLsbD 2 && !v.getLsbD 0 then u.haltQueue n else u := by
  rw [State.writeSqCtrl, hq]
  exact if_neg (not_not_intro hf)

end

/-- Settles O20: an entry is taken only with the mark of its lap; and queue control. -/
theorem queuesFetchAndStop : Obligations.QueuesFetchAndStop := by
  refine ⟨fun n r s q hq hm => ⟨fun hw ht => ⟨fun e he => ⟨fun ho => ?_, fun ho => ?_⟩, fun he => ?_⟩,
      fun hw ht hs hc => ⟨fun bs hr => ?_, fun hr => ?_⟩, fun hw => ⟨fun e hr hl ho => ?_, fun e hr hn => ?_, fun hr => ?_⟩⟩,
    fun n e s q hq => ⟨State.stageSq_undef, fun h => ?_, fun k hw ht => exec_sqOwnTimeout_io hq hw ht⟩,
    fun fn r s hm => ⟨fun hw ht => ⟨fun e he => ⟨fun ho => ?_, fun ho => ?_⟩, fun he => ?_⟩,
      fun hw => ⟨fun e hr hl ho => ?_, fun e hr hn => ?_, fun hr => ?_⟩⟩,
    fun fn e s => ?_, fun fn k s hw ht => exec_sqOwnTimeout_adm hw ht,
    fun fn n v s hw => ⟨fun hf => ?_, fun q hq hf => ⟨fun hc => ?_, fun h2 h0 => ?_, fun h2 h0 => ?_⟩, ?_⟩⟩
  · rw [exec_sqEntryFetch_io hq hm hw ht, show copyAt (headCopy q.copy q.head q.depth r) q.head = some e from he]
    exact if_pos ho
  · rw [exec_sqEntryFetch_io hq hm hw ht, show copyAt (headCopy q.copy q.head q.depth r) q.head = some e from he]
    exact if_neg ho
  · rw [exec_sqEntryFetch_io hq hm hw ht, show copyAt (headCopy q.copy q.head q.depth r) q.head = none from he]
    rfl
  · exact (exec_sqEntryFetch_spec hq hm hw ht hs hc).trans (by rw [hr])
  · exact (exec_sqEntryFetch_spec hq hm hw ht hs hc).trans (by rw [hr])
  · rw [exec_ownReread_io hq hm hw, hr]
    exact if_pos ⟨hl, ho⟩
  · rw [exec_ownReread_io hq hm hw, hr]
    exact if_neg hn
  · exact (exec_ownReread_io hq hm hw).trans (by rw [hr])
  · obtain ⟨t, taken, rest, own, frame⟩ := State.stageSq_taken hq h
    exact ⟨t, q.entryTaken s e, taken, rfl, rfl, rest, own, frame⟩
  · rw [exec_sqEntryFetch_adm hm hw ht,
      show copyAt (headCopy (s.aq fn).copy (s.aq fn).sqHead (s.aq fn).sqDepth r) (s.aq fn).sqHead = some e from he]
    exact if_pos ho
  · rw [exec_sqEntryFetch_adm hm hw ht,
      show copyAt (headCopy (s.aq fn).copy (s.aq fn).sqHead (s.aq fn).sqDepth r) (s.aq fn).sqHead = some e from he]
    exact if_neg ho
  · rw [exec_sqEntryFetch_adm hm hw ht,
      show copyAt (headCopy (s.aq fn).copy (s.aq fn).sqHead (s.aq fn).sqDepth r) (s.aq fn).sqHead = none from he]
    rfl
  · rw [exec_ownReread_adm hm hw, hr]
    exact if_pos ⟨hl, ho⟩
  · rw [exec_ownReread_adm hm hw, hr]
    exact if_neg hn
  · exact (exec_ownReread_adm hm hw).trans (by rw [hr])
  · obtain ⟨joins, rest, own⟩ := State.stageAq_taken s fn e
    exact ⟨_, joins, rfl, rfl, rfl, rest, own⟩
  · rw [exec_sqEnableWrite hw, State.writeSqCtrl_foreign hf]
  · rw [exec_sqEnableWrite hw, State.writeSqCtrl_own hq hf]
    rcases hc with h2 | h0
    · rw [h2]; rfl
    · rw [h0, Bool.not_true, Bool.and_false]; rfl
  · rw [exec_sqEnableWrite hw, exec_haltAll hw h2, State.writeSqCtrl_own hq hf, h2, h0]
    exact ⟨rfl, rfl⟩
  · rw [exec_haltAll hw h2, State.writeSqCtrl_own hq hf, h2, h0]
    rfl
  · obtain ⟨rest, own, frame⟩ := State.updAq_only s fn (Aq.control (s.clears (qeReg fn 4) v))
    refine ⟨_, exec_aqEnable hw, rest, frame, fun h0 he => own.trans ?_, fun h0 he => own.trans ?_, fun h0 => own.trans ?_⟩
    · simp [Aq.control, h0, he]
    · simp [Aq.control, h0, he]
    · simp only [Aq.control, h0, Bool.false_and, Bool.false_eq_true, if_false]

end Sys2Proof.Machine

/-! SUPPORT. The posting of completions and events. -/
namespace Sys2Proof.Machine

section
variable {s : State} {m : Nat} {q : Cq} {w : Waiting} {rest : List Waiting}

/-- The oldest ready completion goes to a ring with a free slot. -/
theorem State.postReady_free (hr : q.ready = w :: rest) (hh : q.held = []) (hf : q.full = false)
    (hi : (s.updCq m (fun x => { x with ready := rest })).canIssue q.fn = true) :
    s.postReady m q = (s.updCq m (fun x => { x with ready := rest })).postCqe m q w := by
  simp only [State.postReady, hr, hh, hf, hi, List.isEmpty_nil, Bool.not_false, Bool.and_self, if_true]

/-- Otherwise it is held. -/
theorem State.postReady_held (hr : q.ready = w :: rest)
    (hh : q.held ≠ [] ∨ q.full = true ∨ (s.updCq m (fun x => { x with ready := rest })).canIssue q.fn = false) :
    s.postReady m q =
      let h := (s.updCq m (fun x => { x with ready := rest })).updCq m (fun x => { x with held := x.held ++ [w] })
      (if q.full && h.cqC0 m then h.c0RingFull m q else h).checkStall m := by
  have barred : ¬(q.held.isEmpty && !q.full && (s.updCq m (fun x => { x with ready := rest })).canIssue q.fn) = true := by
    rw [Bool.and_eq_true, Bool.and_eq_true, List.isEmpty_iff, Bool.not_eq_true']
    rintro ⟨⟨noneHeld, room⟩, path⟩
    rcases hh with hh | hf | hi
    · exact hh noneHeld
    · exact Bool.false_ne_true (room.symm.trans hf)
    · exact Bool.false_ne_true (hi.symm.trans path)
  simp only [State.postReady, hr]
  exact if_neg barred

end

/-- Settles O21: completions and events are posted in order. -/
theorem completionsArePosted : Obligations.CompletionsArePosted := by
  refine ⟨fun m s q w rest hq hr hm => ⟨fun hh hf hi => ?_, fun hh => ?_⟩,
    fun m s q w hq hw hi hm => ⟨fun hf => ?_, fun hf => ?_⟩, fun fn n c rest s hr ho hrun hh first => ?_,
    fun m t s q hq hi hf ht => ?_, fun m t a s q hq hs hn ht => ?_, fun fn s e rest he ho hr => ?_⟩
  · change execCompletionPost (.io m) s = _
    simp only [execCompletionPost, hq, occurs_true hm, State.postReady_free hr hh hf hi]
  · change execCompletionPost (.io m) s = _
    simp only [execCompletionPost, hq, occurs_true hm, State.postReady_held hr hh]
  · change execHeldCompletionPost m s = _
    simp only [execHeldCompletionPost, hq, hw, hf, hi, hm, Bool.and_self, Bool.false_eq_true, if_false, occurs_true]
  · change execHeldCompletionPost m s = _
    simp only [execHeldCompletionPost, hq, hw, hf, hi, hm, Bool.and_self, if_true]
  · change execCompletionPost (.adm fn) s = _
    simp only [execCompletionPost, hr]
    refine occurs_true ?_ _
    rw [ho, hrun, hh]
    cases hrdy : (s.aq fn).rdy with
    | false => rfl
    | true =>
      cases he : (s.aq fn).events with
      | nil => rfl
      | cons e l => simpa using first hrdy e l he
  · change execMsixCoalesceTimeout m s = _
    simp only [execMsixCoalesceTimeout, hq, hi, hf, ht, Bool.and_self, occurs_true]
  · change execCqStalled m s = _
    simp only [execCqStalled, hq, hs, hn, ht, Bool.not_false, Bool.and_self, occurs_true]
  · change execAdminEventPost fn s = _
    simp only [execAdminEventPost, he, ho, hr, Bool.and_self, occurs_true]

end Sys2Proof.Machine

/-! SUPPORT. Control entries. -/
namespace Sys2Proof.Machine

section
variable {s : State} {n opc e : Nat} {hold : Bool} {x : Staged} {p : Prog} {f : Nat → Prog → Staged → State → State}

/-- A control entry that names one live program acts on it. -/
theorem State.control_one (hx : s.controlEntry n opc hold = some x)
    (ht : (s.updSq n (fun q => { q with staged := q.staged.erase x })).targets n x.sqe.tag = [e])
    (hp : (s.updSq n (fun q => { q with staged := q.staged.erase x })).prog e = some p) :
    s.control n opc hold f = .next (f e p x (s.updSq n (fun q => { q with staged := q.staged.erase x }))) := by
  simp only [State.control, hx, ht, hp]

/-- One that names no live program is answered BAD_PARAM. -/
theorem State.control_nobody (hx : s.controlEntry n opc hold = some x)
    (ht : (s.updSq n (fun q => { q with staged := q.staged.erase x })).targets n x.sqe.tag = []) :
    s.control n opc hold f
      = .next ((s.updSq n (fun q => { q with staged := q.staged.erase x })).refuseEntry n x.sqe.tag Status.badParam) := by
  simp only [State.control, hx, ht]

/-- One that names two has no stated effect. -/
theorem State.control_shared (hx : s.controlEntry n opc hold = some x)
    (ht : 2 ≤ ((s.updSq n (fun q => { q with staged := q.staged.erase x })).targets n x.sqe.tag).length) :
    s.control n opc hold f = .fault .sharedTag := by
  simp only [State.control, hx]
  match h : (s.updSq n (fun q => { q with staged := q.staged.erase x })).targets n x.sqe.tag with
  | [] => simp [h] at ht
  | [_] => simp [h] at ht
  | _ :: _ :: _ => rfl

end

/-- Every control entry is taken as its operation of `State.control`. -/
theorem exec_controlEntry {n opc : Nat} {hold : Bool} {i : Instr}
    (h : (i, opc, hold) ∈ [(Instr.haltEntry n, opcHalt, false), (.haltHoldEntry n, opcHalt, true), (.resumeEntry n, opcResume, false)]) (s : State) :
    ∃ f, exec i s = s.control n opc hold f := by
  simp only [List.mem_cons, List.not_mem_nil, or_false, Prod.mk.injEq] at h
  rcases h with ⟨rfl, rfl, rfl⟩ | ⟨rfl, rfl, rfl⟩ | ⟨rfl, rfl, rfl⟩
  · exact ⟨_, show execHaltEntry n s = _ from rfl⟩
  · exact ⟨_, show execHaltHoldEntry n s = _ from rfl⟩
  · exact ⟨_, show execResumeEntry n s = _ from rfl⟩

/-- Settles O22: HALT, HALT with HOLD and RESUME act on their one target. -/
theorem controlEntriesAct : Obligations.ControlEntriesAct := by
  refine ⟨fun n e s x p ht hp => ⟨fun hx => ?_, fun hx => ?_, fun hx => ?_⟩, fun n s x i opc hold hi hx => ?_⟩
  · have taken : exec (.haltEntry n) s = execHaltEntry n s := rfl
    rw [execHaltEntry, State.control_one hx ht hp] at taken
    exact ⟨fun h => taken.trans (by rw [h]; rfl), fun h => taken.trans (by rw [h]; rfl)⟩
  · have taken : exec (.haltHoldEntry n) s = execHaltHoldEntry n s := rfl
    rw [execHaltHoldEntry, State.control_one hx ht hp] at taken
    refine ⟨fun hc => taken.trans (by rw [if_pos hc]), fun hc h => taken.trans ?_,
      fun hc hh hd => ⟨fun h => taken.trans ?_, fun h => taken.trans ?_, fun h => taken.trans ?_⟩⟩
    · rw [if_neg (by omega)]
      rcases h with h | h | ⟨k, h⟩ <;> simp [h]
    · rw [if_neg (by omega), hh, hd]
      rcases h with h | h | ⟨k, h⟩ | ⟨k, h⟩ <;> rw [h] <;> rfl
    · rw [if_neg (by omega), hh, hd, h]
      rfl
    · rw [if_neg (by omega), hh, hd]
      rcases h with h | h | h <;> rw [h] <;> rfl
  · have taken : exec (.resumeEntry n) s = execResumeEntry n s := rfl
    rw [execResumeEntry, State.control_one hx ht hp] at taken
    refine ⟨fun k h => taken.trans (by rw [h]), fun h => taken.trans ?_⟩
    split
    · exact absurd ‹_› (h _)
    · rfl
  · obtain ⟨f, runs⟩ := exec_controlEntry hi s
    exact ⟨fun ht => runs.trans (State.control_nobody hx ht), fun ht => runs.trans (State.control_shared hx ht)⟩

end Sys2Proof.Machine

/-! SUPPORT. The admission of starts. -/
namespace Sys2Proof.Machine

/-! ## Admission of starts (R206 to R214) -/

section
variable {s u : State} {n k g : Nat} {r : Rd} {q : Sq} {x : Crew} {e : Staged} {h : Option Hdr}

section
variable (hq : s.sq n = some q) (he : q.headStart = some e) (hk : q.crew = some k) (hx : s.crew k = some x)
include hq he hk hx

/-- The START that comes next is tested by its checks. -/
theorem exec_admitStart (hn : s.nextStart = some n) :
    exec (.admitStart n r) s = match s.checkStart x q e r with
      | .undef => .fault .reservedWord
      | .wait s => .next s
      | .refuse b s => .next (s.refuseStart n k x.cls e b)
      | .go h s => .next (s.seatStart n k x q e h) := by
  change execAdmitStart n r s = _
  simp only [execAdmitStart, hn, ne_eq, not_true_eq_false, if_false, hq, he, hk, hx] <;> rfl

/-- A seat has become free for one that waits. -/
theorem exec_seatFreedPlacement (hw : e.waiting = true) (hm : s.queueMode q = true) (hl : s.fnLive q.fn = true) (hh : s.qeHolds n = false)
    (hf : (s.seatFor k e.no e.sqe.hint (s.placement x (e.hdr.getD none))).isSome = true) :
    exec (.seatFreedPlacement n) s = .next (s.seatFreed n k x q e) := by
  change execSeatFreedPlacement n s = _
  simp only [execSeatFreedPlacement, hq, he, hk, hx]
  exact occurs_true (by rw [hw, hm, hl, hh, hf]; rfl) _

end

section
variable (free : u.seatFor k e.no e.sqe.hint (u.placement x h) = some g)
include free

theorem State.seatStart_late (hc : 2 ≤ x.cls) : u.seatStart n k x q e h = u.placeOn g n k x.cls q e h := by
  simp only [State.seatStart, free, show ¬x.cls = 1 by omega, show ¬x.cls = 0 by omega, if_false, Bool.not_true, Bool.false_eq_true]

theorem State.seatStart_class1 {hd : Hdr} (hc : x.cls = 1) (hh : h = some hd) :
    u.seatStart n k x q e h =
      if u.proved hd e.sqe.deadline.toNat then u.placeOn g n k 1 q e h else u.refuseStart n k 1 e (refusal Status.admitRefused) := by
  subst hh
  simp only [State.seatStart, free, hc, if_true, Nat.one_ne_zero, if_false]
  cases u.proved hd e.sqe.deadline.toNat <;> rfl

theorem State.seatStart_class0 {hd : Hdr} (hc : x.cls = 0) (hh : h = some hd) :
    u.seatStart n k x q e h = (u.meterC0 q.fn n (max 1 hd.maxOps)).placeOn g n k 0 q e h := by
  subst hh
  simp only [State.seatStart, free, hc, Nat.zero_ne_one, if_false, if_true, Bool.not_true, Bool.false_eq_true]

end

end

/-- Settles O23: the START that comes next is refused, seated or waits, and a freed seat is given in turn. -/
theorem startsAreAdmitted : Obligations.StartsAreAdmitted := by
  refine fun n k g r s u q x e h b hq he hk hx =>
    ⟨fun hn => ⟨fun hc => ?_, fun hc => ?_, fun hc => ?_, fun hc => ?_⟩, fun free =>
      ⟨State.seatStart_late free, fun hd hc hh hp => ?_, fun hd hc hh hp => ?_, fun hd => State.seatStart_class0 free⟩, fun full => ?_,
      fun hw hm hl hh hf => ⟨fun turn => ?_, fun other => ?_⟩⟩
  · exact (exec_admitStart hq he hk hx hn).trans (by rw [hc])
  · exact (exec_admitStart hq he hk hx hn).trans (by rw [hc])
  · exact (exec_admitStart hq he hk hx hn).trans (by rw [hc])
  · exact (exec_admitStart hq he hk hx hn).trans (by rw [hc])
  · rw [State.seatStart_class1 free hc hh, if_pos hp]
  · rw [State.seatStart_class1 free hc hh, if_neg (ne_true_of_eq_false hp)]
  · simp only [State.seatStart, full]
  · rw [exec_seatFreedPlacement hq he hk hx hw hm hl hh hf]
    exact congrArg _ (if_pos turn)
  · rw [exec_seatFreedPlacement hq he hk hx hw hm hl hh hf]
    exact congrArg _ (if_neg other)

end Sys2Proof.Machine

/-! SUPPORT. A program's start, and the fetch of its words. -/
namespace Sys2Proof.Machine

/-! ## The program that admission makes (R111) -/

/-- A register reads as written, and every other one as before. -/
theorem Prog.getGp_setGp (p : Prog) {i j : Nat} (v : W64) (hi : i < 16) (hj : j < 16) :
    (p.setGp i v).getGp j = if j = i then v else p.getGp j := by
  have here : j < p.gp.toList.length := by simpa using hj
  simp only [Prog.getGp, Prog.setGp, Nat.mod_eq_of_lt hi, Nat.mod_eq_of_lt hj, Vector.toList_set, List.getD_eq_getElem?_getD, List.getElem?_set]
  grind

/-- The seeds stand in GP0 to GP3, and every other register is as before. -/
theorem Prog.getGp_seed (p : Prog) (l : List W64) {i : Nat} (h : i < 16) :
    (p.seed l).getGp i = if i < 4 then l.getD i 0 else p.getGp i := by
  have written (i : Nat) (v : W64) (hi : i < 16) (q : Prog) := Prog.getGp_setGp q v hi h
  rw [Prog.seed, written 3 _ (by decide), written 2 _ (by decide), written 1 _ (by decide), written 0 _ (by decide)]
  by_cases seeded : i < 4
  · rw [if_pos seeded]
    match i, seeded with
    | 0, _ | 1, _ | 2, _ | 3, _ => rfl
  · rw [if_neg seeded, if_neg (by omega), if_neg (by omega), if_neg (by omega), if_neg (by omega)]

/-! ## Fetching (R109 to R114) -/

section
variable {s : State} {e : Nat} {p : Prog}

/-- The fetch of a program at a word boundary. -/
theorem exec_ccwFetch {host : List (Nat × Rd)} (h : Stands s e p .boundary) :
    exec (.ccwFetch e host) s = match State.fetchOp e p host 256 p.pc.toNat [] s with
      | .absent => .next s
      | .error i s => .next ((s.updProg e (fun p => { p with op := [] })).endAtWord e (if p.yard then Ending.dataFault else Ending.linkFault) i)
      | .beyond i s => .next (if i = 0 then s.endAtLast e Ending.programFault else s.endAtWord e Ending.programFault (i - 1))
      | .words op s =>
        if op.head?.any wordUndef then .fault .reservedWord
        else .next ((s.updProg e (fun p => { p with op := op, fetchedAt := s.tmr.time })).deliver e) := by
  obtain ⟨hp, hb⟩ := h
  change execCcwFetch e host s = _
  simp only [execCcwFetch, hp, hb, ne_eq, not_true_eq_false, if_false] <;> rfl

/-- Words that raise no notice and that no BRK suspends are ready to execute. -/
theorem State.deliver_ready {w : Ccw} {ws : List Ccw} (hp : s.prog e = some p) (ho : p.op = w :: ws) (hn : w.nof = false) (hb : w.brk = false)
    (sound : ∀ v ∈ w :: ws, v.bad = false) (hh : w.opc ≠ 0x3F) (hc : w.opc ≠ 0x40) :
    OnlyProg s (s.deliver e) e { p with
      phase := .fetched, execAt := s.tick, residual := if dataOpc w.opc.toNat then opLen p.op else p.residual } := by
  have noneBad : p.op.findIdx? (fun v => v.bad) = none := by
    rw [ho, List.findIdx?_eq_none_iff]
    exact sound
  simp only [State.deliver, hp]
  rw [ho]
  simp only [hn, hb, Bool.false_and, Bool.false_eq_true, if_false]
  rw [← ho, noneBad, if_neg hh, if_neg hc]
  cases dataOpc w.opc.toNat with
  | false =>
    have h := onlyProg_updProg s e p (fun p => { p with phase := .fetched, execAt := s.tick }) hp
    exact h
  | true =>
    have counted := onlyProg_updProg s e p (fun p => { p with residual := opLen p.op }) hp
    have h := onlyProg_updProg _ e _ (fun p => { p with phase := .fetched, execAt := s.tick }) (congrArg Engine.prog counted.1)
    exact counted.trans h

end

/-- Settles O24: a program starts clean, and words are fetched and delivered whole. -/
theorem programsStartAndFetch : Obligations.ProgramsStartAndFetch := by
  refine ⟨fun pid n k cls q e h => ⟨rfl, fun i hi => ?_, fun i hi hb => ?_, rfl, rfl, rfl, rfl, rfl, rfl, rfl, rfl⟩,
    fun e i host s u p op hs => ⟨fun hf hu => ?_, fun hf hu => ?_, fun hf => ?_, fun hf => ?_, fun hf => ?_⟩,
    fun e s p w ws hp ho hn hb sound hh hc => ⟨_, rfl, State.deliver_ready hp ho hn hb sound hh hc⟩⟩
  · exact (Prog.getGp_seed _ _ (by omega)).trans (if_pos hi)
  · refine ((Prog.getGp_seed _ _ hb).trans (if_neg (by omega))).trans ?_
    simp only [Prog.getGp, Vector.toList_replicate, List.getD_eq_getElem?_getD, List.getElem?_replicate]
    split <;> rfl
  · refine (exec_ccwFetch hs).trans ?_
    rw [hf]
    exact if_neg (ne_true_of_eq_false hu)
  · refine (exec_ccwFetch hs).trans ?_
    rw [hf]
    exact if_pos hu
  · exact (exec_ccwFetch hs).trans (by rw [hf])
  · exact (exec_ccwFetch hs).trans (by rw [hf])
  · exact (exec_ccwFetch hs).trans (by rw [hf])

end Sys2Proof.Machine

/-! SUPPORT. Self-test turns, barriers, broadcasts and snapshots. -/
namespace Sys2Proof.Machine

/-- The part after a test of cluster `c`: the engine of the turn is free, and marked tested or not. -/
def State.testEnded (s : State) (c : Nat) (pass : Bool) : State :=
  (s.updEngine (s.bistEngine c) (fun g => { g with testing := false, passed := false, tested := pass, store := [] })).updCluster c
    (fun k => { k with bist := .idle })

section
variable {s : State} {c t : Nat}

/-- Inside its window the engine of the turn is taken as soon as it may be. -/
theorem exec_selftestTurn_window (hb : (s.cluster c).bist = .window t) (ht : s.passedUs t windowUs = false) :
    exec (.selftestTurn c) s = .next (s.takeForTest c) := by
  change execSelftestTurn c s = _
  simp only [execSelftestTurn, hb, ht, Bool.not_false, occurs_true]

/-- At the window's end its engine is tested, takes no part, or is passed over. -/
theorem exec_handoverWindowEnd (hb : (s.cluster c).bist = .window t) (ht : s.passedUs t windowUs = true) :
    exec (.handoverWindowEnd c) s =
      let u := s.takeForTest c
      let e := u.bistEngine c
      .next (if (u.engine e).testing then u.updCluster c (fun k => { k with bist := .test u.tick })
        else if (u.engine e).fenced then (u.updCluster c (fun k => { k with bist := .idle })).gotoSlot c ((u.cluster c).bistSlot + 1)
        else
          let v := if (u.engine e).passed then u.report 0x0B 0 kindEng e 0 else u
          let w := (v.updEngine e (fun g => { g with due := false, passed := true })).updCluster c
            (fun k => { k with bist := .idle, passedOver := k.passedOver + 1 })
          w.gotoSlot c ((w.cluster c).bistSlot + 1)) := by
  change execHandoverWindowEnd c s = _
  simp only [execHandoverWindowEnd, hb]
  exact occurs_true ht _

/-- The end of a test frees its engine. -/
theorem exec_selftestComplete {pass : Bool} (hb : (s.cluster c).bist = .test t) (ht : s.passedUs t testUs = true) :
    exec (.selftestComplete c pass) s =
      let v := (s.testEnded c pass).gotoSlot c (((s.testEnded c pass).cluster c).bistSlot + 1)
      .next (if !pass && !(s.engine (s.bistEngine c)).fenced then v.report 0x0A 0 kindEng (s.bistEngine c) 0 else v) := by
  change execSelftestComplete c pass s = _
  simp only [execSelftestComplete, hb]
  exact occurs_true ht _

end

/-- Settles O25: a turn begins with its window, takes its engine, tests it or passes it over, and goes on. -/
theorem selfTestTurns : Obligations.SelfTestTurns := by
  refine fun c s => ⟨fun hb hr hg hw hf last more => ?_, fun t => exec_selftestTurn_window,
    fun t hb ht => ⟨fun h => ?_, fun h hf => ?_, fun h hf => ?_⟩, fun t pass hb ht => 
      ⟨s.testEnded c pass, ?_, fun e he => ?_, ?_, fun d hd => ?_, rfl, (exec_selftestComplete hb ht).trans ?_⟩⟩
  · change execSelftestTurn c s = _
    simp only [execSelftestTurn, hb, hr, hg, hw, hf, more]
    refine occurs_true ?_ _
    cases h : (s.cluster c).turnAt with
    | none => rfl
    | some t => simpa using last t h
  · rw [exec_handoverWindowEnd hb ht]
    exact congrArg _ (if_pos h)
  · rw [exec_handoverWindowEnd hb ht]
    exact congrArg _ ((if_neg (ne_true_of_eq_false h)).trans (if_pos hf))
  · rw [exec_handoverWindowEnd hb ht]
    exact congrArg _ ((if_neg (ne_true_of_eq_false h)).trans (if_neg (ne_true_of_eq_false hf)))
  · rw [State.testEnded, State.updCluster_engine, State.updEngine_engine_same]
  · rw [State.testEnded, State.updCluster_engine, State.updEngine_engine_other _ _ _ _ he]
  · exact State.updCluster_cluster_same ..
  · exact State.updCluster_cluster_other _ _ _ _ hd
  · simp only [Bool.and_eq_true, Bool.not_eq_true']

/-- A program no longer counts as having made an arrival at barrier `b` in generation `now`. -/
def Prog.discard (b now : Nat) (p : Prog) : Prog := if p.arrivals.find b = some now then { p with arrivals := p.arrivals.del b } else p

/-- The part after a write `v` of barrier `b`: a new generation, and no arrival. -/
def State.barConfigured (s : State) (b : Nat) (v : W32) : State :=
  ({ s with eng := { s.eng with engines := s.eng.engines.all fun _ g => { g with prog := g.prog.map (Prog.discard b (s.bar b).done) } } } : State).updBar b
    fun x => { x with count := fld v 0 11, owner := fld v 16 6, enable := v.getLsbD 31, gen := wrapAdd 16 x.gen 1, arrived := 0 }

theorem exec_barrierCfgWrite {s : State} {mid b : Nat} {v : W32} (hw : s.mayWrite mid engBlock = true) (h1 : 1 ≤ fld v 0 11) (h2 : fld v 0 11 ≤ 1024) :
    exec (.barrierCfgWrite mid b v) s = .next (s.barConfigured b v) := by
  change execBarrierCfgWrite mid b v s = _
  rw [execBarrierCfgWrite, hw, Bool.not_true, if_neg Bool.false_ne_true]
  exact if_neg (by omega)

/-- What the engines run where the programs of all are changed. -/
theorem State.prog_all (s : State) (f : Prog → Prog) (e : Nat) :
    ({ s with eng := { s.eng with engines := s.eng.engines.all fun _ g => { g with prog := g.prog.map f } } } : State).prog e = (s.prog e).map f := by
  simp only [State.prog, State.engine, Tbl.get, Tbl.find_all]
  cases s.eng.engines.find e <;> rfl

/-- A table made from a range of numbers gives each of them its entry. -/
theorem Tbl.get_range {α : Type} (f : Nat → α) {n k : Nat} (h : k < n) (d : α) : Tbl.get ((List.range n).map fun e => (e, f e)) k d = f k := by
  have found (l : List Nat) (hk : k ∈ l) : Tbl.find (l.map fun e => (e, f e)) k = some (f k) := by
    induction l with
    | nil => simp at hk
    | cons j l ih =>
      simp only [List.map_cons, Tbl.find]
      split
      · subst ‹j = k›; rfl
      · exact ih ((List.mem_cons.mp hk).resolve_left (Ne.symm ‹_›))
  rw [Tbl.get, found _ (List.mem_range.mpr h)]
  rfl

/-- The part with the records of the engines of the clusters of `m` latched. -/
def State.snapLatched (s : State) (m : BitVec 16) : State :=
  { s with eng := { s.eng with
      engines := (List.range engCount).map fun e => (e, if m.getLsbD (e / engPerCluster) then { s.engine e with snap := s.snapOf e } else s.engine e)
      snapTime := s.tmr.time, snapBusy := s.tick + levels m + 18 } }

theorem State.snapshot_idle {s : State} {m : BitVec 16} (h : s.eng.snapBusy ≤ s.tick) :
    s.snapshot m = (maskClusters m).foldl State.writeSnaps (s.snapLatched m) := if_neg (Nat.not_lt.mpr h)

theorem State.snapLatched_engine (s : State) (m : BitVec 16) {e : Nat} (h : e < engCount) :
    (s.snapLatched m).engine e
      = { s.engine e with snap := if m.getLsbD (e / engPerCluster) then s.snapOf e else (s.engine e).snap } := by
  unfold State.snapLatched
  rw [State.engine]
  dsimp only
  rw [Tbl.get_range _ h]
  split <;> rfl

/-- Settles O27: barriers are configured in a new generation, and broadcasts and snapshots reach their clusters. -/
theorem barriersAndBroadcasts : Obligations.BarriersAndBroadcasts := by
  refine ⟨fun mid b v s hw => ⟨fun h1 h2 => ⟨_, exec_barrierCfgWrite hw h1 h2, State.updBar_bar_same .., fun d hd => ?_, fun e => ?_, rfl⟩, fun hc => ?_⟩,
    fun k m s o => ⟨fun ho hp => ?_, fun ho => ?_⟩, fun s b rest hb => ⟨fun hl => ?_, fun hl => ?_⟩,
    fun mid v s hw hg => ⟨fun hb => ?_, fun hb => ?_⟩⟩
  · exact State.updBar_bar_other _ _ _ _ hd
  · have runs : (s.barConfigured b v).prog e = (s.prog e).map (Prog.discard b (s.bar b).done) := State.prog_all s _ e
    exact ⟨fun h => by rw [runs, h]; rfl, fun p h => by rw [runs, h]; rfl⟩
  · change execBarrierCfgWrite mid b v s = _
    rw [execBarrierCfgWrite, hw]
    exact if_pos hc
  · change execBroadcast k m s = _
    rw [execBroadcast, ho]
    exact occurs_true hp _
  · change execBroadcast k m s = _
    rw [execBroadcast, ho]
  · change execBroadcastComplete s = _
    rw [execBroadcastComplete, hb]
    exact if_pos (List.isEmpty_iff.mpr hl)
  · change execBroadcastComplete s = _
    rw [execBroadcastComplete, hb]
    exact if_neg (mt List.isEmpty_iff.mp hl)
  · change execSnapshotGo mid v s = _
    rw [execSnapshotGo, hw, hg, Bool.and_self, occurs_true rfl, State.snapshot, if_pos hb]
  · have taken : exec (.snapshotGo mid v) s = execSnapshotGo mid v s := rfl
    rw [execSnapshotGo, hw, hg, Bool.and_self, occurs_true rfl, State.snapshot_idle hb] at taken
    exact ⟨_, taken, fun e => State.snapLatched_engine s _, rfl, fun _ => by simp only [State.cluster, State.snapLatched]⟩

end Sys2Proof.Machine

/-! SUPPORT. Descriptors of the movers. -/
namespace Sys2Proof.Machine

/-! ## Descriptors (R300 to R305, Table 10.4) -/

section
variable {s : State} {m ch : Nat} {b : List Byte}

section
variable (hm : s.descMode m = true) (hc : ch < 16) (hb : b.length = 32) (hu : (Desc.read b).mayUse ch = true)
  (hs : s.spaceOk (Desc.read b) = true) (free : (s.mvCh m ch).active = none ∨ (s.mvCh m ch).shadow = none)
include hm hc hb hu hs free

/-- A descriptor of a requester that may use the channel, written with a free set of the channel. -/
theorem exec_descriptorWrite :
    exec (.descriptorWrite m ch b) s =
      if descUndef b then .fault .reservedDescriptor
      else .next (if (s.mvCh m ch).active.isNone then (s.updMvCh m ch (fun k => { k with active := some (Desc.read b), moved := 0 })).enter m ch
        else s.updMvCh m ch (fun k => { k with shadow := some (Desc.read b) })) := by
  have room : ((s.mvCh m ch).active.isNone || (s.mvCh m ch).shadow.isNone) = true := by
    rcases free with h | h <;> simp [h]
  change execDescriptorWrite m ch b s = _
  simp only [execDescriptorWrite, hm, hc, hb, hu, hs, room, decide_true, Bool.and_self, Bool.not_true, Bool.false_eq_true, if_false]

end

section
variable {x : Xfer} {d : Desc} (hm : s.descMode m = true) (hd : (s.mvCh m ch).active = some d)
include hm hd

section
variable (own : s.chanEngine m ch = none) (ht : x.status ≠ .timeout)
include own ht

/-- Where the part issues no request for its function, a descriptor ends with LINK. -/
theorem exec_descriptorComplete_noPath (hh : s.mvHost d = false) (hst : (s.mvCh m ch).st = .running ∨ (s.mvCh m ch).st = .barrier) :
    exec (.descriptorComplete m ch x) s = .next (s.descEnd m ch dsLink) := by
  change execDescriptorComplete m ch x s = _
  simp only [execDescriptorComplete, hd, hm, own, hh, Bool.not_false, if_true]
  refine occurs_true ?_ _
  rcases hst with h | h <;> simp [h, ht]

/-- The wait for the acknowledgement of its host writes ends. -/
theorem exec_descriptorComplete_barrier (hh : s.mvHost d = true) (hst : (s.mvCh m ch).st = .barrier) :
    exec (.descriptorComplete m ch x) s = .next (s.descEnd m ch (if x.status = .link then dsLink else dsOk)) := by
  change execDescriptorComplete m ch x s = _
  simp only [execDescriptorComplete, hd, hm, own, hh, hst, Bool.not_true, Bool.false_eq_true, if_false, if_true]
  exact occurs_true (by simp [ht]) _

/-- The bytes of a running descriptor move. -/
theorem exec_descriptorComplete_running (hh : s.mvHost d = true) (hst : (s.mvCh m ch).st = .running) (hr : s.codecReady m ch = true) :
    exec (.descriptorComplete m ch x) s = .next (s.descMove m ch d x) := by
  change execDescriptorComplete m ch x s = _
  simp only [execDescriptorComplete, hd, hm, own, hh, hst, hr, Bool.not_true, Bool.false_eq_true, if_false, reduceCtorEq]
  exact occurs_true (by simp [ht]) _

end

/-- One that has moved nothing for STALL_US ends, and so does the engine word that it carries. -/
theorem exec_moverStallTimeout (hst : (s.mvCh m ch).st = .running ∨ (s.mvCh m ch).st = .barrier)
    (ht : s.passedUs (s.mvCh m ch).movedAt (fld s.mv.cfg 0 16) = true) :
    exec (.moverStallTimeout m ch) s = .next (match s.chanEngine m ch with
      | none => s.descEnd m ch dsTimeout
      | some e => (s.dropChan e dsTimeout).endAtWord e
          (if [d.srcSpace, d.dstSpace].any (fun x => decide (x = spHost) || decide (x = spPort)) then Ending.linkFault else Ending.dataFault) 0) := by
  change execMoverStallTimeout m ch s = _
  simp only [execMoverStallTimeout, hd]
  refine occurs_true ?_ _
  rcases hst with h | h <;> simp [hm, h, ht]

end

end

/-- Settles O28: a descriptor is taken, moves its bytes, and ends with its status. -/
theorem descriptorsRun : Obligations.DescriptorsRun := by
  refine ⟨fun m ch b s hm hc hb hu hs => ⟨fun hw ha => ?_, fun hw ha hsh => ?_, fun hw hf => ?_⟩,
    fun m ch x s d hm hd => ⟨fun own ht => ⟨exec_descriptorComplete_noPath hm hd own ht, exec_descriptorComplete_barrier hm hd own ht,
      fun hh hst hr => ⟨fun bad => ?_, fun ok all => ⟨fun hwb => ?_, fun hwb => ?_⟩, fun ok more => ?_⟩⟩,
      fun hst ht => ⟨fun own => ?_, fun e own => ?_⟩⟩⟩
  · rw [exec_descriptorWrite hm hc hb hu hs (.inl ha), if_neg (ne_true_of_eq_false hw), ha]
    rfl
  · rw [exec_descriptorWrite hm hc hb hu hs (.inr hsh), if_neg (ne_true_of_eq_false hw), Option.isNone_eq_false_iff.mpr ha]
    rfl
  · rw [exec_descriptorWrite hm hc hb hu hs hf, if_pos hw]
  · rw [exec_descriptorComplete_running hm hd own ht hh hst hr]
    exact congrArg _ (if_pos bad)
  · rw [exec_descriptorComplete_running hm hd own ht hh hst hr]
    refine congrArg _ ((if_neg (not_not_intro ok)).trans ((if_pos all).trans ?_))
    exact if_pos hwb
  · rw [exec_descriptorComplete_running hm hd own ht hh hst hr]
    refine congrArg _ ((if_neg (not_not_intro ok)).trans ((if_pos all).trans ?_))
    exact if_neg fun ⟨w, h⟩ => hwb.elim (fun nw => Bool.false_ne_true (nw.symm.trans w)) (· h)
  · rw [exec_descriptorComplete_running hm hd own ht hh hst hr]
    exact congrArg _ ((if_neg (not_not_intro ok)).trans (if_neg (Nat.not_le.mpr more)))
  · exact (exec_moverStallTimeout hm hd hst ht).trans (by rw [own])
  · exact (exec_moverStallTimeout hm hd hst ht).trans (by rw [own])

end Sys2Proof.Machine

/-! SUPPORT. Programs of the movers. -/
namespace Sys2Proof.Machine

/-- An update of one mover changes that mover alone. -/
theorem State.updMover_only (s : State) (m : Nat) (f : Mover → Mover) :
    (∀ k, k ≠ m → (s.updMover m f).mover k = s.mover k) ∧ (s.updMover m f).mover m = f (s.mover m)
      ∧ s.updMover m f = { s with mv := { s.mv with movers := (s.updMover m f).mv.movers } } :=
  ⟨fun _ hk => State.updMover_mover_other _ _ _ _ hk, State.updMover_mover_same .., rfl⟩

/-! ## The instructions of a mover's program (R307, R308) -/

section
variable {s : State} {m : Nat} {x : Xfer} (on : s.prgOn m = true)
include on

section
variable (idle : (s.mover m).wait = none)
include idle

/-- A MOVE of a mover's own program. -/
theorem exec_mvMove (h : leAt (s.mover m).insn 0 1 = 1) :
    exec (.mvMove m x) s =
      if s.prgUndef (s.prgDesc m) then .fault .reservedDescriptor
      else
        let r := s.mvMoveBytes (s.prgDesc m) (s.prgDesc m).src (s.prgDesc m).dst (s.prgDesc m).length x
        let u := r.2.2.updMover m (fun y => { y with bytes := y.bytes + BitVec.ofNat 64 r.1 })
        .next (if r.2.1 ≠ dsOk then u.prgStop m r.2.1
          else (u.updMover m (fun y => { y with a := advanceA (s.mover m).insn (s.prgDesc m).length y.a })).prgNext m) := by
  change execMvMove m x s = _
  simp only [execMvMove, on, idle, h]
  rfl

/-- A reserved opcode stops the mover. -/
theorem exec_mvMove_reserved (h : leAt (s.mover m).insn 0 1 = 0 ∨ 5 < leAt (s.mover m).insn 0 1) : exec (.mvMove m x) s = .next (s.prgStop m 0) := by
  have unlisted : [2, 3, 4, 5].contains (leAt (s.mover m).insn 0 1) = false := by
    simp only [List.contains_eq_mem, List.mem_cons, List.not_mem_nil, or_false, decide_eq_false_iff_not]
    omega
  change execMvMove m x s = _
  simp only [execMvMove, on, idle, unlisted, Bool.not_true, Option.isSome_none, Bool.or_self, Bool.false_eq_true, if_false]
  exact if_pos (by omega)

/-- A LOOP of a mover's own program. -/
theorem exec_mvLoop (h : leAt (s.mover m).insn 0 1 = 2) :
    exec (.mvLoop m) s =
      let c := (s.mover m).k.get (leAt (s.mover m).insn 1 1 % 4) 0
      let u := s.updMover m (fun y => { y with k := y.k.put (leAt (s.mover m).insn 1 1 % 4) (c - 1) })
      .next (if 256 ≤ leAt (s.mover m).insn 4 2 then s.prgStop m 0
        else if c = 0 then s.prgNext m
        else if c - 1 = 0 then u.prgNext m else u.prgGo m (leAt (s.mover m).insn 4 2)) := by
  change execMvLoop m s = _
  rw [execMvLoop, on, idle]
  exact occurs_true (by rw [h]; rfl) _

/-- A SIGNAL of a mover's own program. -/
theorem exec_mvSignal (h : leAt (s.mover m).insn 0 1 = 4) :
    exec (.mvSignal m) s =
      let u := ((s.mover m).k.get 1 0).toNat
      .next (match leAt (s.mover m).insn 1 1 with
        | 1 => (s.updUnit u (fun x => { x with moved := true })).prgNext m
        | 2 => (s.programUnit u).prgNext m
        | 3 => (s.updMover (leAt (s.mover m).insn 8 1 % 64) (fun y => { y with event := true })).prgNext m
        | 4 => s.prgNext m
        | _ => s.prgStop m 0) := by
  change execMvSignal m s = _
  rw [execMvSignal, on, idle]
  exact occurs_true (by rw [h]; rfl) _

/-- An END of a mover's own program. -/
theorem exec_mvEnd (h : leAt (s.mover m).insn 0 1 = 5) :
    exec (.mvEnd m) s = .next (s.updMover m (fun y =>
      { y with prgRun := false, prgDone := true, prgEnd := leAt (s.mover m).insn 1 1, prgMode := !s.inMode [.diagnostic] })) := by
  change execMvEnd m s = _
  rw [execMvEnd, on, idle]
  exact occurs_true (by rw [h]; rfl) _

end

/-- The wait of a mover's own program: the one that it is in, or the one that its instruction begins. -/
def State.prgWait (s : State) (m : Nat) : MvWait :=
  let i := (s.mover m).insn
  (s.mover m).wait.getD { source := leAt i 1 1, operand := BitVec.ofNat 64 (leAt i 8 8), alt := leAt i 2 2, startTick := s.tick, limitUs := leAt i 4 4 }

/-- A WAIT of a mover's own program. -/
theorem exec_mvWait {nor : Bool} (h : leAt (s.mover m).insn 0 1 = 3) :
    exec (.mvWait m nor) s =
      .next (if leAt (s.mover m).insn 1 1 = 0 ∨ 5 < leAt (s.mover m).insn 1 1 ∨ 256 ≤ (s.prgWait m).alt then s.prgStop m 0
        else (s.prgEvent m (s.prgWait m) nor).getD (s.updMover m (fun y => { y with wait := some (s.prgWait m) }))) := by
  change execMvWait m nor s = _
  rw [execMvWait, on]
  refine (occurs_true (by rw [h]; rfl) _).trans (congrArg _ (ite_congr rfl (fun _ => rfl) fun _ => ?_))
  unfold State.prgWait
  dsimp only
  generalize s.prgEvent m _ nor = event
  cases event <;> rfl

/-- A WAIT whose limit passes goes on at ALT. -/
theorem exec_mvWaitExpiry {w : MvWait} (hw : (s.mover m).wait = some w) (hl : w.limitUs ≠ 0) (ht : s.passedUs w.startTick w.limitUs = true) :
    exec (.mvWaitExpiry m) s = .next (s.prgWaitEnd m 2 w.alt) := by
  change execMvWaitExpiry m s = _
  simp only [execMvWaitExpiry, hw]
  exact occurs_true (by rw [on, ht, decide_eq_true hl]; rfl) _

end

/-- The units of a quench mover that is fenced, or has taken none in time, pass on. -/
theorem exec_lqReassign {s : State} {m : Nat} (hm : s.inMode [.quench] = true)
    (hu : s.lq.units.any (fun u => decide (u.mover = some m) && !u.taken && !u.programmed) = true)
    (hf : (s.mover m).fenced = true ∨ s.passedUs (s.mover m).tookAt (fld s.mv.cfg 16 16) = true) :
    exec (.lqReassign m) s = .next (s.passUnits m) := by
  change execLqReassign m s = _
  rw [execLqReassign, hm, hu]
  refine occurs_true ?_ _
  rcases hf with h | h <;> simp [h]

theorem State.passUnits_lq (s : State) (m : Nat) : s.passUnits m = { s with lq := { s.lq with units := (s.passUnits m).lq.units } } := by
  unfold State.passUnits
  split <;> rfl

/-- The part after mover `m` has taken unit `u` of its queue: the unit is marked, and the registers of the mover's program hold its place. -/
def State.unitTaken (s : State) (m u : Nat) (x : QUnit) : State :=
  let i := s.takeFree.1
  let t := { s.takeFree.2.updUnit u (fun x => { x with taken := true }) with free := s.takeFree.2.free + 1 }
  t.updMover m fun y => { y with
    a := (y.a.put 0 (Config.freeWord i)).put 1 (unitBuf u x), tookAt := t.tick
    k := ((y.k.put 0 (BitVec.ofNat 32 x.bytes)).put 1 (BitVec.ofNat 32 u)).put 3 (BitVec.ofNat 32 (Config.freeNat (i + 1))) }

/-- Settles O29: each instruction of a mover's own program has its effect, a WAIT takes its event, and a stopped mover's units pass on. -/
theorem moverProgramsRun : Obligations.MoverProgramsRun := by
  refine ⟨fun m s on => ⟨fun idle => ⟨fun x h hu => ?_, fun x h hu => ⟨fun ok => ?_, fun bad => ?_⟩, fun x => exec_mvMove_reserved on idle,
      fun h => ⟨fun ht => ?_, fun ht hc => ?_, fun ht hc => ?_, fun ht h0 h1 => ?_⟩,
      fun h => ⟨fun hk => ?_, fun hk => ?_, fun hk => ?_, fun hk => ?_, fun hk => ?_⟩, fun h => ?_⟩,
      fun nor h => ⟨fun bad => ?_, fun h0 h5 ha => ⟨fun t he => ?_, fun he => ?_⟩⟩, fun w => exec_mvWaitExpiry on⟩,
    fun m s w nor => ⟨fun hs hu hc => ?_, fun u x hs hu => ?_, fun t hs ht => ?_, fun hs hd => ?_, fun hs he => ?_, fun hs => ?_⟩,
    fun m s hm hu hf => ⟨_, exec_lqReassign hm hu hf, State.passUnits_lq s m, fun hn => ?_, fun k hn => ?_⟩⟩
  · rw [exec_mvMove on idle h, if_pos hu]
  · rw [exec_mvMove on idle h, if_neg (ne_true_of_eq_false hu)]
    exact congrArg _ (if_neg (not_not_intro ok))
  · rw [exec_mvMove on idle h, if_neg (ne_true_of_eq_false hu)]
    exact congrArg _ (if_pos bad)
  · rw [exec_mvLoop on idle h]
    exact congrArg _ (if_pos ht)
  · rw [exec_mvLoop on idle h]
    exact congrArg _ ((if_neg (Nat.not_le.mpr ht)).trans (if_pos hc))
  · rw [exec_mvLoop on idle h]
    exact congrArg _ ((if_neg (Nat.not_le.mpr ht)).trans ((if_neg (by rw [hc]; decide)).trans (if_pos (by rw [hc]; rfl))))
  · rw [exec_mvLoop on idle h]
    exact congrArg _ ((if_neg (Nat.not_le.mpr ht)).trans ((if_neg h0).trans (if_neg (mt eq_one_of_sub_one h1))))
  · exact (exec_mvSignal on idle h).trans (by simp only [hk])
  · exact (exec_mvSignal on idle h).trans (by simp only [hk])
  · exact (exec_mvSignal on idle h).trans (by simp only [hk])
  · exact (exec_mvSignal on idle h).trans (by simp only [hk])
  · refine (exec_mvSignal on idle h).trans (congrArg _ ?_)
    split
    case h_5 => rfl
    all_goals omega
  · obtain ⟨rest, own, frame⟩ := State.updMover_only s m (fun y =>
      { y with prgRun := false, prgDone := true, prgEnd := leAt (s.mover m).insn 1 1, prgMode := !s.inMode [.diagnostic] })
    exact ⟨_, exec_mvEnd on idle h, rest, frame, own⟩
  · rw [exec_mvWait on h]
    exact congrArg _ (if_pos (by simpa only [State.prgWait, or_assoc] using bad))
  · have waits : s.prgEvent m (s.prgWait m) nor = some t := he
    rw [exec_mvWait on h, waits]
    exact congrArg _ (if_neg (by unfold State.prgWait; dsimp only; omega))
  · have waits : s.prgEvent m (s.prgWait m) nor = none := he
    obtain ⟨rest, own, frame⟩ := State.updMover_only s m (fun y => { y with wait := some (s.prgWait m) })
    refine ⟨_, ?_, rest, own, frame⟩
    rw [exec_mvWait on h, waits]
    exact congrArg _ (if_neg (by unfold State.prgWait; dsimp only; omega))
  · simp only [State.prgEvent, hs, hu, hc, if_true]
  · exact ⟨s.unitTaken m u x, by simp only [State.prgEvent, hs, hu] <;> rfl, rfl⟩
  · simp only [State.prgEvent, hs, ht]
  · simp only [State.prgEvent, hs, hd, if_true]
  · simp only [State.prgEvent, hs, he, if_true]
  · simp only [State.prgEvent, hs]
  · rw [State.passUnits, hn]
  · rw [State.passUnits, hn]

end Sys2Proof.Machine

/-! SUPPORT. The outputs of the Cell Pool. -/
namespace Sys2Proof.Machine

/-- The part at reset, which has sent one message. -/
def State.oneMessageSent : State := { State.reset with out := [.msix 0 0] }

/-- What a removal shows is driven as the newest output, before those that were driven earlier. -/
theorem State.cpShow_out (s : State) (mid q : Nat) (lo hi : W32) : (s.cpShow mid q lo hi).out = .cell mid q lo :: s.out := by
  rw [State.cpShow, State.drive_out]

/-- Refutes O30: the outputs stand newest first, so the word that a removal shows comes before a message sent earlier, and not after it. -/
theorem not_cellPoolAccess : ¬ Obligations.CellPoolAccess := by
  intro h
  obtain ⟨-, -, -, -, reads, -⟩ := h 0x10 0 0 State.oneMessageSent
  have mayRead : State.oneMessageSent.mayRead 0x10 (blockOf 0x800000) false = true := rfl
  obtain ⟨-, -, shown⟩ := reads mayRead
  obtain ⟨-, last⟩ := shown 0 0
  rw [State.cpShow_out] at last
  simp [State.oneMessageSent] at last

end Sys2Proof.Machine

/-! SUPPORT. Mailboxes. -/
namespace Sys2Proof.Machine

/-! ## What messages and mailbox events leave alone -/

theorem State.sendMsix_eng (s : State) (fn v : Nat) : (s.sendMsix fn v).eng = s.eng := by
  unfold State.sendMsix
  dsimp only
  split <;> rfl

theorem State.sendMsix_mbx (s : State) (fn v : Nat) : (s.sendMsix fn v).mbx = s.mbx := by
  unfold State.sendMsix
  dsimp only
  split <;> rfl

theorem State.mbxIrq_eng_mbx (s : State) (m : MEnd) (b : Nat) : (s.mbxIrq m b).eng = s.eng ∧ (s.mbxIrq m b).mbx = s.mbx := by
  unfold State.mbxIrq
  split
  · split
    · exact ⟨State.sendMsix_eng .., State.sendMsix_mbx ..⟩
    · exact ⟨rfl, rfl⟩
  · exact ⟨rfl, rfl⟩

/-- A direction holds the words that are set, and the other end reads them. -/
theorem MChan.outq_setOut (c : MChan) (i : Bool) (q : List MWord) (t : Nat) : (c.setOut i q t).outq i = q := by cases i <;> rfl

theorem MChan.inq_setOut (c : MChan) (i : Bool) (q : List MWord) (t : Nat) : (c.setOut (!i) q t).inq i = q := by cases i <;> rfl

/-- Where no program waits on the channel, none is served. -/
theorem State.mbxServe_nobody {s : State} {ch : Nat} {i : Bool}
    (h : s.waiters (fun k => match k with | .mbx c _ => decide (c = ch) | _ => false) = []) : s.mbxServe ch i = s := by
  unfold State.mbxServe
  dsimp only
  generalize hw : s.waiters _ = l
  obtain rfl : l = [] := hw.symm.trans h
  rfl

/-- A word that is queued for a host end stands last in its direction. -/
theorem State.mbxQueue_outq {s : State} {ch : Nat} {i : Bool} {x : W64} (hk : ((s.mchan ch).side (!i)).kind = kindHost)
    (nobody : s.waiters (fun k => match k with | .mbx c _ => decide (c = ch) | _ => false) = []) :
    ((s.mbxQueue ch i x).mchan ch).outq i
      = (s.mchan ch).outq i ++ [{ value := x, mid := if (s.mchan ch).compat then 0 else ((s.mchan ch).side i).mid }] := by
  have awake (t : State) : t.mbxWake ((s.mchan ch).side (!i)) = t := by
    rw [State.mbxWake, hk]
    rfl
  let t := s.updMchan ch (fun c => c.setOut i ((s.mchan ch).outq i ++ [{ value := x, mid := if (s.mchan ch).compat then 0 else ((s.mchan ch).side i).mid }])
    (if ((s.mchan ch).outq i).isEmpty then s.tick else (s.mchan ch).outAt i))
  obtain ⟨eng, mbx⟩ := State.mbxIrq_eng_mbx t ((s.mchan ch).side (!i)) 0
  have same : (t.mbxIrq ((s.mchan ch).side (!i)) 0).waiters (fun k => match k with | .mbx c _ => decide (c = ch) | _ => false) = [] := by
    rw [State.waiters, State.engsWith, eng]
    exact nobody
  have queued : s.mbxQueue ch i x = t.mbxIrq ((s.mchan ch).side (!i)) 0 := by
    unfold State.mbxQueue
    dsimp only
    rw [awake]
    exact State.mbxServe_nobody same
  rw [queued, State.mchan, mbx]
  exact (congrArg (MChan.outq · i) (State.updMchan_mchan_same ..)).trans (MChan.outq_setOut ..)

/-- The channel after a word of end `i` that found no room. -/
def MChan.overran (i : Bool) (c : MChan) : MChan :=
  let d := (c.updSide i (fun m => { m with overrun := true })).setOut i (c.outq i) (c.outAt i)
  { d with drops := satAdd 32 d.drops 1 }

theorem MChan.overran_spec (i : Bool) (c : MChan) :
    (c.overran i).outq i = c.outq i ∧ ((c.overran i).side i).overrun = true ∧ (c.overran i).drops = satAdd 32 c.drops 1 := by
  cases i <;> exact ⟨rfl, rfl, rfl⟩

/-! ## The windows of the mailboxes -/

section
variable {s : State} {mid ch fn : Nat} {v : W32} {a i : Bool}

/-- An identity that is no end of the channel sends and reads nothing. -/
theorem exec_mbx_noEnd (h : (s.mchan ch).windowEnd mid = none) :
    exec (.mbxTxCommit mid ch v a) s = .next s ∧ exec (.mbxRxRead mid ch) s = .next s := by
  change execMbxTxCommit mid ch v a s = _ ∧ execMbxRxRead mid ch s = _
  simp only [execMbxTxCommit, execMbxRxRead, h, and_self]

/-- An end of a fenced function sends and reads nothing. -/
theorem exec_mbx_fenced (hf : fnOf mid = some fn) (fenced : s.fcs.fencedFns.contains fn = true) :
    exec (.mbxTxCommit mid ch v a) s = .next s ∧ exec (.mbxRxRead mid ch) s = .next s := by
  change execMbxTxCommit mid ch v a s = _ ∧ execMbxRxRead mid ch s = _
  simp only [execMbxTxCommit, execMbxRxRead, hf, fenced]
  cases (s.mchan ch).windowEnd mid <;> exact ⟨rfl, rfl⟩

/-- A channel that is not enabled, and an end that is no host's, take no word. -/
theorem exec_mbxTxCommit_closed (hi : (s.mchan ch).windowEnd mid = some i) (h : (s.mchan ch).en = false ∨ ((s.mchan ch).side i).kind ≠ kindHost) :
    exec (.mbxTxCommit mid ch v a) s = .next s := by
  change execMbxTxCommit mid ch v a s = _
  simp only [execMbxTxCommit, hi]
  refine if_pos ?_
  rcases h with h | h <;> simp [h]

section
variable (hf : fnOf mid = some fn) (live : s.fcs.fencedFns.contains fn = false) (hi : (s.mchan ch).windowEnd mid = some i)
include hf live hi

/-- A word that a host end of an enabled channel sends. -/
theorem exec_mbxTxCommit (he : (s.mchan ch).en = true) (hk : ((s.mchan ch).side i).kind = kindHost) :
    exec (.mbxTxCommit mid ch v a) s =
      .next (if !a then s.mbxForeign mid ch
        else if mbxDepth ≤ ((s.mchan ch).outq i).length then
          (s.updMchan ch (MChan.overran i)).sets (windowReg mid (0x40 * ch + 0x14)) 9
        else s.mbxQueue ch i (BitVec.ofNat 64 ((s.mbx.txLo.get (mbxKey mid ch) 0).toNat + v.toNat * 2 ^ 32))) := by
  change execMbxTxCommit mid ch v a s = _
  simp only [execMbxTxCommit, hf, live, hi, he, hk, Bool.not_true, Bool.or_self, ne_eq, not_true_eq_false, decide_false, Bool.false_eq_true, if_false]
  cases a with
  | false => rfl
  | true =>
    simp only [Bool.not_true, Bool.false_eq_true, if_false]
    exact (apply_ite Host.Outcome.next _ _ _).symm

/-- An end that is no host's, and one with no inbound word, is shown none. -/
theorem exec_mbxRxRead_empty (h : ((s.mchan ch).side i).kind ≠ kindHost ∨ (s.mchan ch).inq i = []) :
    exec (.mbxRxRead mid ch) s = .next (s.mbxEmpty mid ch) := by
  change execMbxRxRead mid ch s = _
  simp only [execMbxRxRead, hf, live, hi, Bool.false_eq_true, if_false]
  by_cases hk : ((s.mchan ch).side i).kind = kindHost
  · have empty := h.resolve_left (not_not_intro hk)
    simp only [hk, State.mbxTake, empty, ne_eq, not_true_eq_false, if_false]
  · exact if_pos hk

/-- The oldest inbound word is removed and shown. -/
theorem exec_mbxRxRead_word {w : MWord} {rest : List MWord} (hk : ((s.mchan ch).side i).kind = kindHost) (hw : (s.mchan ch).inq i = w :: rest) :
    exec (.mbxRxRead mid ch) s =
      let u := s.updMchan ch (fun c => c.setOut (!i) rest s.tick)
      .next (((if (w :: rest).length = mbxDepth then u.mbxIrq ((s.mchan ch).side (!i)) 1 else u).mbxLatch mid ch w).mbxRoom ch (!i)) := by
  change execMbxRxRead mid ch s = _
  simp only [execMbxRxRead, hf, live, hi, hk, State.mbxTake, hw, ne_eq, not_true_eq_false, Bool.false_eq_true, if_false]

end

/-- A foreign word is dropped and counted, and reported on a native channel. -/
theorem State.mbxForeign_eq (s : State) (mid ch : Nat) :
    let u := s.updMchan ch (fun c => { c with drops := satAdd 32 c.drops 1 })
    s.mbxForeign mid ch = if (s.mchan ch).compat then u else u.report 0x26 0 kindFunction mid 0 := by
  simp only [State.mbxForeign, State.updMchan_mchan_same]

end

/-! ## The configuration of a channel -/

/-- The fields that a write of a channel's configuration may set. -/
def mbxCfgOk (mid : Nat) (v : W32) : Prop :=
  fld v 0 6 ≠ fld v 8 6 ∧ endFits (fld v 0 6) (fld v 6 2) = true ∧ endFits (fld v 8 6) (fld v 14 2) = true
    ∧ (isHostMid mid = true → fld v 6 2 ≠ kindNode ∧ fld v 14 2 ≠ kindNode)

theorem mbxCfgOk_iff (mid : Nat) (v : W32) :
    (decide (fld v 0 6 = fld v 8 6) || !endFits (fld v 0 6) (fld v 6 2) || !endFits (fld v 8 6) (fld v 14 2)
      || (isHostMid mid && (decide (fld v 6 2 = kindNode) || decide (fld v 14 2 = kindNode)))) = false ↔ mbxCfgOk mid v := by
  simp only [mbxCfgOk, Bool.or_eq_false_iff, Bool.and_eq_false_iff, decide_eq_false_iff_not, Bool.not_eq_false', and_assoc]
  cases isHostMid mid <;> simp

/-- The channel after a write `v` that opens it, empty. -/
def MChan.opened (v : W32) (t : Nat) (c : MChan) : MChan := { c.config v with en := v.getLsbD 31, q01 := [], q10 := [], at01 := t, at10 := t }

section
variable {s : State} {mid ch : Nat} {v : W32} (hw : s.mayWrite mid (blockOf 0xD80000) = true)
include hw

/-- A write of a compatibility channel, and one that breaks the rules on a channel that is not enabled, is refused. -/
theorem exec_mbxChannelCfg_refused (h : (s.mchan ch).compat = true ∨ (s.mchan ch).compat = false ∧ (s.mchan ch).en = false ∧ ¬mbxCfgOk mid v) :
    exec (.mbxChannelCfg mid ch v) s = .next (({ s with mbx := { s.mbx with cfgErr := true } } : State).sets 0xD80004 1) := by
  change execMbxChannelCfg mid ch v s = _
  rw [execMbxChannelCfg, occurs_true hw]
  refine congrArg _ (if_pos ?_)
  rcases h with hc | ⟨hc, he, bad⟩
  · rw [hc, Bool.true_or]
  · rw [hc, he, Bool.false_or, Bool.not_false, Bool.true_and]
    exact eq_true_of_ne_false (mt (mbxCfgOk_iff mid v).mp bad)

/-- A write that keeps the rules opens a channel that is not enabled. -/
theorem exec_mbxChannelCfg_opens (hc : (s.mchan ch).compat = false) (he : (s.mchan ch).en = false) (ok : mbxCfgOk mid v) :
    exec (.mbxChannelCfg mid ch v) s = .next (s.updMchan ch (MChan.opened v s.tick)) := by
  change execMbxChannelCfg mid ch v s = _
  rw [execMbxChannelCfg, occurs_true hw]
  refine congrArg _ ((if_neg ?_).trans (if_neg (ne_true_of_eq_false he)))
  rw [hc, he, Bool.false_or, Bool.not_false, Bool.true_and, (mbxCfgOk_iff mid v).mpr ok]
  exact Bool.false_ne_true

/-- An enabled channel keeps its fields, and is closed by a write without EN. -/
theorem exec_mbxChannelCfg_enabled (hc : (s.mchan ch).compat = false) (he : (s.mchan ch).en = true) :
    exec (.mbxChannelCfg mid ch v) s = .next (if v.getLsbD 31 then s
      else (((s.mbxClear ch).mbxAbort ch false false).mbxAbort ch true false).updMchan ch (fun c => { c with en := false })) := by
  change execMbxChannelCfg mid ch v s = _
  rw [execMbxChannelCfg, occurs_true hw]
  refine congrArg _ ((if_neg ?_).trans (if_pos he))
  rw [hc, he]
  exact Bool.false_ne_true

end

/-- A full direction that has waited RX_TIMEOUT_MS is flushed. -/
theorem exec_mbxRxTimeout {s : State} {ch : Nat} {dir : Bool} (he : (s.mchan ch).en = true) (hm : fld s.mbx.cfg 0 16 ≠ 0)
    (full : ((s.mchan ch).outq dir).length = mbxDepth) (ht : s.passedMs ((s.mchan ch).outAt dir) (fld s.mbx.cfg 0 16) = true) :
    exec (.mbxRxTimeout ch dir) s
      = .next ((s.updMchan ch (fun c => { c.setOut dir [] s.tick with cleared := mbxDepth })).mbxAbort ch dir true) := by
  change execMbxRxTimeout ch dir s = _
  rw [execMbxRxTimeout]
  exact occurs_true (by rw [he, decide_eq_true hm, decide_eq_true full, ht]; rfl) _

/-- Settles O31: the windows of the mailboxes, the configuration of their channels, the timeout, and the place of a queued word. -/
theorem mailboxesDeliver : Obligations.MailboxesDeliver := by
  refine ⟨fun mid ch v a s => ⟨exec_mbx_noEnd, fun fn => exec_mbx_fenced, fun i hi h => exec_mbxTxCommit_closed hi h⟩,
    fun mid ch fn v s i hf live hi => ⟨fun he hk => ⟨fun room => ?_, fun full => ⟨_, (exec_mbxTxCommit hf live hi he hk).trans (congrArg _ (if_pos full)), ?_⟩, ?_⟩,
      exec_mbxRxRead_empty hf live hi, fun hk w rest hw => ⟨?_, exec_mbxRxRead_word hf live hi hk hw⟩⟩,
    fun mid ch v s hw => ⟨fun hc => exec_mbxChannelCfg_refused hw (.inl hc), fun hc he bad => exec_mbxChannelCfg_refused hw (.inr ⟨hc, he, bad⟩),
      fun hc he ok => ⟨_, exec_mbxChannelCfg_opens hw hc he ok, ?_⟩, fun hc he => ⟨fun hv => ?_, fun hv => ?_⟩⟩,
    fun mid ch v dir s => ⟨fun hw => ?_, exec_mbxRxTimeout⟩, fun ch i x s => State.mbxQueue_outq⟩
  · exact (exec_mbxTxCommit hf live hi he hk).trans (congrArg _ (if_neg (Nat.not_le.mpr room)))
  · have own : (((s.updMchan ch (MChan.overran i)).sets (windowReg mid (0x40 * ch + 0x14)) 9).mchan ch) = (s.mchan ch).overran i :=
      State.updMchan_mchan_same ..
    obtain ⟨out, overrun, drops⟩ := MChan.overran_spec i (s.mchan ch)
    exact ⟨by rw [own, out], by rw [own, overrun], by rw [own, drops], fun k hk => State.updMchan_mchan_other _ _ _ _ hk⟩
  · refine ⟨exec_mbxTxCommit hf live hi he hk, fun hc => ?_, fun hc => ?_⟩
    · rw [State.mbxForeign_eq, if_neg (ne_true_of_eq_false hc)]
    · rw [State.mbxForeign_eq, if_pos hc]
  · rw [State.updMchan_mchan_same]
    exact MChan.inq_setOut ..
  · rw [State.updMchan_mchan_same]
    exact ⟨rfl, by simp [MChan.opened, MChan.config, MChan.sameConfig], rfl, rfl, fun k hk => State.updMchan_mchan_other _ _ _ _ hk, rfl⟩
  · rw [exec_mbxChannelCfg_enabled hw hc he, if_pos hv]
  · rw [exec_mbxChannelCfg_enabled hw hc he, if_neg (ne_true_of_eq_false hv)]
  · change execMbxChannelCfg mid ch v s = _
    rw [execMbxChannelCfg, occurs_false hw]

end Sys2Proof.Machine

/-! SUPPORT. Timers, captures and discipline. -/
namespace Sys2Proof.Machine

/-! ## Timers (R433, R435) -/

/-- The part once a match that is due in this tick has been taken. -/
def State.tmrTaken (s : State) (t : Nat) : State := if s.tmrDue t then s.tmrFire t else s

section
variable {s : State} {mid t : Nat} {v : W32} (hw : s.mayWrite mid tmrBlock = true)
include hw

/-- The compare value is committed after a match of the same tick. -/
theorem exec_tmrCmpCommit :
    exec (.tmrCmpCommit mid t v) s = .next (((s.tmrTaken t).commitHeld mid (tmrRec t + 8)).updTimer t (fun x => { x with
      cmp := pair (s.held mid (tmrRec t + 8) (s.timer t).cmp) v, armed := true, missed := 0, behind := false, matchTick := some (s.tmrTaken t).tick })) := by
  change execTmrCmpCommit mid t v s = _
  rw [execTmrCmpCommit, occurs_true hw]
  rfl

/-- The interval is committed after a match of the same tick. -/
theorem exec_tmrIntCommit :
    exec (.tmrIntCommit mid t v) s = .next (((s.tmrTaken t).commitHeld mid (tmrRec t + 0x10)).updTimer t
      (fun x => { x with int := pair (s.held mid (tmrRec t + 0x10) (s.timer t).int) v })) := by
  change execTmrIntCommit mid t v s = _
  rw [execTmrIntCommit, occurs_true hw]
  rfl

end

/-- A commit changes its timer alone. -/
theorem State.commit_timer (s : State) (mid off t : Nat) (f : Timer → Timer) :
    ((s.commitHeld mid off).updTimer t f).timer t = f (s.timer t) ∧ (∀ k, k ≠ t → ((s.commitHeld mid off).updTimer t f).timer k = s.timer k) :=
  ⟨State.updTimer_timer_same .., fun _ hk => State.updTimer_timer_other _ _ _ _ hk⟩

/-! ## Captures and discipline (R432, R438) -/

/-- An update of one capture channel changes that channel alone. -/
theorem State.updCapture_capture (s : State) (k j : Nat) (f : Capture → Capture) :
    (s.updCapture k f).capture j = if j = k then f (s.capture k) else s.capture j := by
  simp only [State.capture, State.updCapture, Tbl.get_mod]

section
variable {s : State} {k : Nat}

theorem exec_captureEdge (h : (s.capture k).ctrl.getLsbD 0 = true) :
    exec (.captureEdge k) s = .next (if (s.capture k).lastTick = some s.tick then
        ({ s with tmr := { s.tmr with capLost := s.tmr.capLost ||| BitVec.ofNat 32 (2 ^ (k % 16)) } } : State).sets 0xC80028 (k % 16)
      else
        let t := s.updCapture k (fun c => { c with value := s.tmr.time, seq := wrapAdd 16 c.seq 1, lastTick := some s.tick })
        if (s.capture k).ctrl.getLsbD 1 then t.sendMsix (fld (s.capture k).ctrl 16 3) (fld (s.capture k).ctrl 8 8) else t) := by
  change execCaptureEdge k s = _
  rw [execCaptureEdge, occurs_true h]

theorem exec_disciplineSample_pps {port : Nat} {off : W64} (h : s.tmr.discSrc = 2) :
    exec (.disciplineSample 2 port off) s = .next (s.discSample (ppsOffset s.tmr.time)) := by
  change execDisciplineSample 2 port off s = _
  rw [execDisciplineSample, h]
  exact occurs_true (by simp) _

theorem exec_disciplineSample_sync {port : Nat} {off : W64} (h : s.tmr.discSrc = 1) (hp : s.tmr.discPort = port)
    (he : (s.fport port).cfg.getLsbD 2 = true) (hg : (s.fport port).gptp = gptpSlave) :
    exec (.disciplineSample 1 port off) s = .next (s.discSample off.toInt) := by
  change execDisciplineSample 1 port off s = _
  rw [execDisciplineSample, h, hp, he, hg]
  exact occurs_true (by simp) _

/-- A sample of another source is not taken. -/
theorem exec_disciplineSample_other {src port : Nat} {off : W64} (h : s.tmr.discSrc ≠ src) : exec (.disciplineSample src port off) s = .next s := by
  change execDisciplineSample src port off s = _
  rw [execDisciplineSample, decide_eq_false h, Bool.false_and, occurs_false rfl]

end

/-- Settles O32: a match, the commits of a timer, an edge of a capture channel, and the samples of the discipline. -/
theorem timersAndCaptures : Obligations.TimersAndCaptures := by
  refine ⟨fun mid t v s => ⟨fun hd => ?_, fun hd => ?_, fun hw => ⟨?_, ?_⟩,
      fun hw hd => ⟨⟨_, exec_tmrCmpCommit hw, ?_⟩, ⟨_, exec_tmrIntCommit hw, ?_⟩⟩, fun hw hd => ⟨⟨_, exec_tmrCmpCommit hw, ?_⟩, ⟨_, exec_tmrIntCommit hw, ?_⟩⟩⟩,
    fun k s => ⟨fun h => ?_, fun h ht => ?_, fun h ht => ?_⟩,
    fun port off s => ⟨exec_disciplineSample_pps, exec_disciplineSample_sync, fun src => exec_disciplineSample_other⟩,
    fun s => ⟨fun hd ht => ?_, fun ht => ?_⟩⟩
  · change execTmrMatch t s = _
    rw [execTmrMatch, occurs_true hd]
  · change execTmrMatch t s = _
    rw [execTmrMatch, occurs_false hd]
  · change execTmrCmpCommit mid t v s = _
    rw [execTmrCmpCommit, occurs_false hw]
  · change execTmrIntCommit mid t v s = _
    rw [execTmrIntCommit, occurs_false hw]
  · rw [State.tmrTaken, if_pos hd]
    obtain ⟨own, others⟩ := State.commit_timer (s.tmrFire t) mid (tmrRec t + 8) t (fun x => { x with
      cmp := pair (s.held mid (tmrRec t + 8) (s.timer t).cmp) v, armed := true, missed := 0, behind := false, matchTick := some (s.tmrFire t).tick })
    rw [own]
    exact ⟨rfl, rfl, rfl, others⟩
  · rw [State.tmrTaken, if_pos hd]
    exact State.commit_timer ..
  · rw [State.tmrTaken, if_neg (ne_true_of_eq_false hd)]
    obtain ⟨own, others⟩ := State.commit_timer s mid (tmrRec t + 8) t (fun x => { x with
      cmp := pair (s.held mid (tmrRec t + 8) (s.timer t).cmp) v, armed := true, missed := 0, behind := false, matchTick := some s.tick })
    exact ⟨others, own, rfl⟩
  · rw [State.tmrTaken, if_neg (ne_true_of_eq_false hd)]
    obtain ⟨own, others⟩ := State.commit_timer s mid (tmrRec t + 0x10) t (fun x =>
      { x with int := pair (s.held mid (tmrRec t + 0x10) (s.timer t).int) v })
    exact ⟨others, own, rfl⟩
  · change execCaptureEdge k s = _
    rw [execCaptureEdge, occurs_false h]
  · exact ⟨_, (exec_captureEdge h).trans (congrArg _ (if_pos ht)), fun _ => rfl, rfl⟩
  · have edge (j : Nat) := State.updCapture_capture s k j (fun c => { c with value := s.tmr.time, seq := wrapAdd 16 c.seq 1, lastTick := some s.tick })
    exact ⟨_, fun j hj => (edge j).trans (if_neg hj), (edge k).trans (if_pos rfl), rfl, (exec_captureEdge h).trans (congrArg _ (if_neg ht))⟩
  · change execHoldoverEntry s = _
    rw [execHoldoverEntry, ht]
    refine occurs_true ?_ _
    rcases hd with h | h <;> simp [h]
  · change execHoldoverEntry s = _
    rw [execHoldoverEntry, ht, Bool.and_false, occurs_false rfl]

end Sys2Proof.Machine

/-! SUPPORT. The ends of NAND operations. -/
namespace Sys2Proof.Machine

/-- An update of a LUN that leaves an absent one as it is, as seen on that LUN. -/
theorem State.updLun_lun (s : State) (l : Nat) (f : Lun → Lun) (h : f Lun.absent = Lun.absent) : (s.updLun l f).lun l = f (s.lun l) := by
  simp only [State.lun, State.updLun, Tbl.get, Tbl.find_upd, if_true]
  cases s.fc.luns.find l with
  | none => exact h.symm
  | some x => rfl

section
variable {s : State} {l id : Nat} {pass : Bool} {j : PageJob}

/-- A LUN with no class-0 page waiting is idle after its program. -/
theorem State.releaseLun_idle (h : (s.lun l).above = none) : (s.releaseLun l id).lun l = { s.lun l with op := .idle, suspends := 0 } := by
  have released : s.releaseLun l id = s.updLun l (fun u => { u with op := .idle, suspends := 0 }) := by
    rw [State.releaseLun, if_neg (by rw [h]; exact Option.some_ne_none id ∘ Eq.symm), State.underDone, h]
  rw [released, State.updLun_lun _ _ _ rfl]

/-- The LUN of a page over a suspended operation keeps the operation. -/
theorem State.releaseLun_above (h : (s.lun l).above = some id) : (s.releaseLun l id).lun l = { s.lun l with above := none } := by
  rw [State.releaseLun, if_pos h, State.updLun_lun _ _ _ rfl]

theorem exec_pageReadComplete (ho : (s.lun l).op = .read id) (hj : s.mm.jobs.find id = some j) (hi : j.issued = true) (hr : j.ready = false) :
    exec (.pageReadComplete l) s
      = .next { s with mm := { s.mm with jobs := s.mm.jobs.upd id (fun j => { j with ready := true, askedAt := s.tick, units := s.bursts l }) } } := by
  change execPageReadComplete l s = _
  simp only [execPageReadComplete, ho, hj]
  exact occurs_true (by rw [hi, hr]; rfl) _

/-- An operation beyond its limit has its LUN reset, is reported, and is lost. -/
theorem exec_nandOpTimeout {us : Nat} (hl : s.opLimitUs l = some us) (ht : s.passedUs (s.lun l).opAt us = true) :
    exec (.nandOpTimeout l) s =
      let u := (s.drive (.nandReset l)).report 0x1A 0 kindLun l 0
      .next (match u.progJob l with
        | some (id, j) => (u.releaseLun l id).jobFailed id j
        | none => match (u.lun l).op with
          | .erase b p => (u.underDone l).eraseDone l b p false
          | .read id => (u.updLun l (fun x => { x with op := .idle })).dropJob id
          | _ => u) := by
  change execNandOpTimeout l s = _
  simp only [execNandOpTimeout, hl]
  exact occurs_true ht _

end

/-- Settles O33: the end of a program, an erase, a read and of an operation that takes too long. -/
theorem nandOperationsEnd : Obligations.NandOperationsEnd := by
  refine fun l pass s => ⟨fun h => ?_, fun id j h => ?_, fun id => ⟨State.releaseLun_idle, State.releaseLun_above⟩, fun b p h => ?_,
    fun b p id j ho ha hj => ?_, fun h => ?_, fun id j ho hj hi hr => ⟨_, exec_pageReadComplete ho hj hi hr, rfl, ?_, fun k hk => ?_⟩, fun h => ?_, fun h => ?_,
    fun us hl ht => ?_, fun us hl ht => ⟨fun id j h => ?_, fun b p h ho => ?_, fun id h ho => ?_⟩⟩
  · change execPageProgramComplete l pass s = _
    rw [execPageProgramComplete, h]
  · change execPageProgramComplete l pass s = _
    rw [execPageProgramComplete, h]
  · change execBlockEraseComplete l pass s = _
    simp only [execBlockEraseComplete, h]
  · change execBlockEraseComplete l pass s = _
    simp only [execBlockEraseComplete, ho, ha, hj]
    cases j.issued <;> rfl
  · change execBlockEraseComplete l pass s = _
    unfold execBlockEraseComplete
    dsimp only
    split
    · exact absurd ‹_› (h _ _).1
    · exact absurd ‹_› (h _ _).2
    · rfl
  · simp only [Tbl.find_upd, if_true, hj, Option.map_some]
  · simp only [Tbl.find_upd, hk, if_false]
  · change execPageReadComplete l s = _
    unfold execPageReadComplete
    split
    · exact absurd ‹_› (h _)
    · rfl
  · change execNandOpTimeout l s = _
    rw [execNandOpTimeout, h]
  · change execNandOpTimeout l s = _
    simp only [execNandOpTimeout, hl]
    exact occurs_false ht _
  · exact (exec_nandOpTimeout hl ht).trans (by simp only [h])
  · exact (exec_nandOpTimeout hl ht).trans (by simp only [h, ho])
  · exact (exec_nandOpTimeout hl ht).trans (by simp only [h, ho])

end Sys2Proof.Machine

/-! SUPPORT. Media upkeep and retention. -/
namespace Sys2Proof.Machine

/-! ## Media upkeep (R50, R238 to R261) -/

section
variable {s : State} {n : Nat}

/-- The row of a segment whose oldest page is old enough is padded. -/
theorem exec_rowCloseTimeout_segment {g : Segment} (hn : n < segKeys) (hg : s.mm.segs.find n = some g) :
    exec (.rowCloseTimeout n) s = occurs s (g.rowAt.any (s.passedMs · (fld s.mm.rowCfg 0 16))) (State.padRow · n) := by
  change execRowCloseTimeout n s = _
  unfold execRowCloseTimeout
  refine (if_pos hn).trans ?_
  rw [hg]
  dsimp only
  cases g.rowAt with
  | none => rfl
  | some t => rw [Option.any_some]

/-- The row of a fast-lane set whose oldest page is old enough is closed. -/
theorem exec_rowCloseTimeout_fastLane {k : Nat} {x : StripeSet} (hn : segKeys ≤ n)
    (hk : s.flSets.find? (fun p => decide ((s.flRow p.1).seg = n)) = some (k, x)) :
    exec (.rowCloseTimeout n) s = occurs s ((s.flRow k).openAt.any (s.passedMs · (fld s.mm.rowCfg 0 16))) (State.closeFlRow · k x) := by
  change execRowCloseTimeout n s = _
  unfold execRowCloseTimeout
  refine (if_neg (Nat.not_lt.mpr hn)).trans ?_
  rw [hk]
  dsimp only
  cases (s.flRow k).openAt with
  | none => rfl
  | some t => rw [Option.any_some]

theorem exec_scrubPeriod {g : Segment} (hg : s.mm.segs.find n = some g) :
    exec (.scrubPeriod n) s
      = .next (if fld s.mm.retCfg 12 8 * dayNs ≤ s.mm.retClock - g.scrubAt then s.queueTask (Task.fresh 8 n 0 0) else s) := by
  change execScrubPeriod n s = _
  simp only [execScrubPeriod, hg, occurs_next, decide_eq_true_eq]

theorem exec_retentionRefreshDue {g : Segment} (hg : s.mm.segs.find n = some g) :
    exec (.retentionRefreshDue n) s = .next (if s.retDays g * dayNs ≤ s.retAge g then s.queueTask (Task.fresh 4 n 0 0) else s) := by
  change execRetentionRefreshDue n s = _
  simp only [execRetentionRefreshDue, hg, occurs_next, decide_eq_true_eq]

/-- A task is queued once. -/
theorem State.queueTask_queued {t : Task} (h : s.mm.tasks.contains t = true) : s.queueTask t = s := if_pos h

theorem State.queueTask_new {t : Task} (h : s.mm.tasks.contains t = false) : s.queueTask t = { s with mm := { s.mm with tasks := s.mm.tasks ++ [t] } } :=
  if_neg (ne_true_of_eq_false h)

/-- The turn of Anneal where it may run. -/
def State.annealTurn (s : State) : State :=
  match s.mm.running, s.nextTask with
  | none, some t => s.startTask t
  | none, none => s
  | some r, some t =>
    if t.rank < r.rank then ({ s with mm := { s.mm with tasks := r :: s.mm.tasks } } : State).startTask t
    else if r.jobs = [] then (s.taskUnit r).flEval else s
  | some r, none => if r.jobs = [] then (s.taskUnit r).flEval else s

theorem exec_annealTask (h : s.annealOn = true) : exec .annealTask s = .next s.annealTurn := by
  change execAnnealTask s = _
  rw [execAnnealTask, occurs_true h, State.annealTurn]
  cases s.mm.running with
  | none => cases s.nextTask <;> rfl
  | some r =>
    cases s.nextTask with
    | none => simp only [List.isEmpty_iff]
    | some t => simp only [List.isEmpty_iff, decide_eq_true_eq]

/-- Anneal goes on with the running task where none ranks above it. -/
theorem State.annealTurn_continues {r : Task} (hr : s.mm.running = some r) (h : ∀ t, s.nextTask = some t → r.rank ≤ t.rank) :
    s.annealTurn = if r.jobs = [] then (s.taskUnit r).flEval else s := by
  rw [State.annealTurn, hr]
  cases hn : s.nextTask with
  | none => rfl
  | some t => exact if_neg (Nat.not_lt.mpr (h t hn))

end

/-- Settles O34: rows close, tasks are queued, Anneal takes its turn, checkpoints are written, and retention releases, each when it is due. -/
theorem mediaUpkeep : Obligations.MediaUpkeep := by
  refine ⟨fun n s hn => ⟨fun h => ?_, fun g hg => ⟨fun ht => ?_, fun t ht => ?_⟩⟩,
    fun n k x s hn hk => ⟨fun ht => ?_, fun t ht => ?_⟩, fun n s hn => ⟨?_, ?_⟩,
    fun n s g hg => ⟨fun early => ?_, fun due => ⟨fun hq => ?_, fun hq => ?_⟩, fun early => ?_, fun due => ⟨fun hq => ?_, fun hq => ?_⟩⟩,
    fun s => ⟨fun off => ?_, fun on => ⟨fun t hr hn => ?_, fun hr hn => ?_, fun r t hr hn hlt => ?_, fun r hr h => ?_⟩, fun hw hd => ?_, fun h => ?_⟩,
    fun st s => ⟨fun hx => ?_, fun x hx => ?_⟩, fun st fuel s x hx => ⟨fun g hg => ⟨fun beyond => ?_, fun within => ?_⟩, fun hg => ?_⟩⟩
  · change execRowCloseTimeout n s = _
    unfold execRowCloseTimeout
    refine (if_pos hn).trans ?_
    rw [h]
  · rw [exec_rowCloseTimeout_segment hn hg, ht, Option.any_none, occurs_false rfl]
  · rw [exec_rowCloseTimeout_segment hn hg, ht, Option.any_some, occurs_next]
  · rw [exec_rowCloseTimeout_fastLane hn hk, ht, Option.any_none, occurs_false rfl]
  · rw [exec_rowCloseTimeout_fastLane hn hk, ht, Option.any_some, occurs_next]
  · change execScrubPeriod n s = _
    simp only [execScrubPeriod, hn]
  · change execRetentionRefreshDue n s = _
    simp only [execRetentionRefreshDue, hn]
  · rw [exec_scrubPeriod hg, if_neg (Nat.not_le.mpr early)]
  · rw [exec_scrubPeriod hg, if_pos due, State.queueTask_queued hq]
  · rw [exec_scrubPeriod hg, if_pos due, State.queueTask_new hq]
  · rw [exec_retentionRefreshDue hg, if_neg (Nat.not_le.mpr early)]
  · rw [exec_retentionRefreshDue hg, if_pos due, State.queueTask_queued hq]
  · rw [exec_retentionRefreshDue hg, if_pos due, State.queueTask_new hq]
  · change execAnnealTask s = _
    rw [execAnnealTask, occurs_false off]
  · rw [exec_annealTask on, State.annealTurn, hr, hn]
  · rw [exec_annealTask on, State.annealTurn, hr, hn]
  · rw [exec_annealTask on, State.annealTurn, hr, hn]
    exact congrArg _ (if_pos hlt)
  · rw [exec_annealTask on, State.annealTurn_continues hr h]
  · change execCheckpointWrite s = _
    rw [execCheckpointWrite, hw, hd, Bool.and_self, occurs_true rfl]
  · change execCheckpointWrite s = _
    rw [execCheckpointWrite, occurs_false]
    rcases h with h | h <;> simp [h]
  · change execRetentionRelease st s = _
    rw [execRetentionRelease, hx]
  · change execRetentionRelease st s = _
    rw [execRetentionRelease, hx]
  · simp only [State.retainLoop, hx, hg, beyond, if_true]
  · simp only [State.retainLoop, hx, hg, within, Bool.false_eq_true, if_false]
  · simp only [State.retainLoop, hx, hg]

end Sys2Proof.Machine

/-! SUPPORT. The bank and arming. -/
namespace Sys2Proof.Machine

/-! ## The bank (R41, R42, R268 to R272) -/

/-- Where no charge waits, the limit is the one of R41, computed now. -/
theorem State.relimit_idle {s : State} (h0 : s.lq.c0Queue = []) (hs : s.lq.shQueue = []) :
    let ok := s.psv.provisioned && decide (s.psv.cPub ≠ 0)
    s.relimit.lq.limitValid = ok ∧ s.relimit.lq.limitMib = (if ok then limitMibAt s.psv s.lq.capMib s.flLive.length s.psv.vbankMv else 0)
      ∧ s.relimit.lq.lastCalc = s.tick := by
  simp only [State.relimit, State.judgeCharges, State.setsIf_lq, h0, hs, List.append_nil, List.foldl_nil, and_self]

/-- The bank has fallen, or the time of the pulse is over. -/
def Pulse.over (x : Pulse) (l : List Nat) : Prop := 250 ≤ x.startMv - l.getLastD x.startMv ∨ 20000 ≤ l.length

/-- The end of a pulse. -/
def State.pulseEnded (s : State) (x : Pulse) (l : List Nat) : State :=
  let u := (s.sampleBank (l.getLastD x.startMv)).pulseLine false
  if x.startMv - l.getLastD x.startMv < 50 then u.failPulse 1
  else match fitCap (fld s.psv.pulseCfg 16 16) l with
    | none => u.failPulse 2
    | some c =>
      let w := ({ u with psv := { u.psv with pulse := some { x with fitted := some c, endTick := s.tick } } } : State)
      if 4 * c < s.psv.nom then w.failPulse 2 else w

/-- The Power Supervisor after it has published the lesser of the fitted and the nominal capacitance. -/
def Psv.published (p : Psv) (x : Pulse) (c t : Nat) : Psv :=
  { p with
    cap := BitVec.ofNat 32 (min c p.nom), capMeas := BitVec.ofNat 32 (c % 2 ^ 24), lastCap := min c p.nom, pulse := none, lastOk := some t
    retryAt := none, stale := false, degraded := p.degraded || decide (min c p.nom * 10 < p.lastCap * 9)
    testResult := if x.test then some (c, 0) else p.testResult }

section
variable {s : State} {v : Nat}

/-- The start of a pulse, where one may run and is due. -/
theorem exec_pulseStart (hr : s.pulseReady = true) (hd : (s.sampleBank v).pulseDue = true) :
    exec (.pulseStart v) s =
      .next (if decide ((s.sampleBank v).psv.cPub ≠ 0) && !(s.sampleBank v).pulseCovered v then
          { s.sampleBank v with psv := { (s.sampleBank v).psv with retryAt := some (s.tick + ticksOfMs 1000) } }
        else (s.sampleBank v).beginPulse v false) := by
  change execPulseStart v s = _
  rw [execPulseStart, hr, hd]
  exact (apply_ite Host.Outcome.next _ _ _).symm

theorem exec_pulseStart_notYet (h : s.pulseReady = false ∨ (s.sampleBank v).pulseDue = false) : exec (.pulseStart v) s = .next s := by
  change execPulseStart v s = _
  rw [execPulseStart]
  refine if_pos ?_
  rcases h with h | h <;> simp [h]

section
variable {x : Pulse} (hx : s.psv.pulse = some x)
include hx

theorem exec_pulseEnd {l : List Nat} (hf : x.fitted = none) (h : x.over l) (ht : s.passedUs x.startTick l.length = true) :
    exec (.pulseEnd l) s = .next (s.pulseEnded x l) := by
  change execPulseEnd l s = _
  simp only [execPulseEnd, hx]
  refine occurs_true ?_ _
  have ended : (decide (250 ≤ x.startMv - l.getLastD x.startMv) || decide (20000 ≤ l.length)) = true := by
    rwa [← Bool.decide_or, decide_eq_true_eq]
  rw [hf, ht, ended]
  rfl

theorem exec_pulseEnd_notYet {l : List Nat}
    (h : x.fitted.isSome = true ∨ x.startMv - l.getLastD x.startMv < 250 ∧ l.length < 20000 ∨ s.passedUs x.startTick l.length = false) :
    exec (.pulseEnd l) s = .next s := by
  change execPulseEnd l s = _
  simp only [execPulseEnd, hx]
  refine occurs_false ?_ _
  rcases h with h | ⟨hv, hl⟩ | ht
  · rw [Option.isNone_eq_false_iff.mpr h]; rfl
  · rw [decide_eq_false (Nat.not_le.mpr hv), decide_eq_false (Nat.not_le.mpr hl), Bool.or_self, Bool.and_false, Bool.false_and]
  · rw [ht, Bool.and_false]

theorem exec_capPublish {c : Nat} (hc : x.fitted = some c) (hp : s.psv.provisioned = true) (hv : x.startMv ≤ v)
    (ht : s.sinceNs x.endTick ≤ 1000 * msNs) {worse : Bool} (hw : decide (min c s.psv.nom * 10 < s.psv.lastCap * 9) = worse) :
    exec (.capPublish v) s =
      let t := ({ s with psv := s.psv.published x c s.tick } : State).setsIf worse 0xC00000 9
      .next (((if worse then t.postEventAll psvBlock 0x0040 0xFFFF (BitVec.ofNat 64 (min c s.psv.nom + s.psv.lastCap * 2 ^ 32)) else t).sampleBank v).relimit) := by
  subst hw
  change execCapPublish v s = _
  simp only [execCapPublish, hx, hc]
  exact occurs_true (by rw [hp, decide_eq_true hv, decide_eq_true ht]; rfl) _

theorem exec_capPublish_notYet {c : Nat} (hc : x.fitted = some c)
    (h : s.psv.provisioned = false ∨ v < x.startMv ∨ 1000 * msNs < s.sinceNs x.endTick) : exec (.capPublish v) s = .next s := by
  change execCapPublish v s = _
  simp only [execCapPublish, hx, hc]
  refine occurs_false ?_ _
  rcases h with h | h | h
  · rw [h]; rfl
  · rw [decide_eq_false (Nat.not_le.mpr h), Bool.and_false, Bool.false_and]
  · rw [decide_eq_false (Nat.not_le.mpr h), Bool.and_false]

theorem exec_pulseRecoveryTimeout :
    exec (.pulseRecoveryTimeout v) s
      = occurs s (x.fitted.isSome && decide (v < x.startMv) && s.passedMs x.endTick 1000) (fun s => (s.sampleBank v).failPulse 3) := by
  change execPulseRecoveryTimeout v s = _
  simp only [execPulseRecoveryTimeout, hx]

end

/-- Where no pulse runs, none ends. -/
theorem exec_pulse_none {l : List Nat} (h : s.psv.pulse = none) :
    exec (.pulseEnd l) s = .next s ∧ exec (.capPublish v) s = .next s ∧ exec (.pulseRecoveryTimeout v) s = .next s := by
  change execPulseEnd l s = _ ∧ execCapPublish v s = _ ∧ execPulseRecoveryTimeout v s = _
  simp only [execPulseEnd, execCapPublish, execPulseRecoveryTimeout, h, and_self]

theorem exec_bankStale {t : Nat} (ht : s.psv.lastOk = some t) :
    exec .bankStale s = occurs s (s.measures && !s.psv.stale && s.passedMs t (48 * 3600 * 1000))
      (fun s => ({ s with psv := { s.psv with stale := true } } : State).report 0x2A 0 0 0 0) := by
  change execBankStale s = _
  rw [execBankStale, ht]

end

/-! ## Arming (R280) -/

/-- What a run of updates of single movers does to one mover, where repeating its update changes nothing. -/
theorem foldl_mover (l : List Nat) (f : State → Nat → State) (g : Mover → Mover) (m : Nat) (idem : ∀ x, g (g x) = g x)
    (step : ∀ s k, (f s k).mover m = if m = k then g (s.mover m) else s.mover m) (s : State) :
    (l.foldl f s).mover m = if m ∈ l then g (s.mover m) else s.mover m := by
  induction l generalizing s with
  | nil => rfl
  | cons k l ih =>
    rw [List.foldl_cons, ih, step]
    by_cases hk : m = k
    · simp [hk, idem]
    · simp [hk]

/-- A check disarms the movers that it names, and no other. -/
theorem State.disarm_mover (s : State) (bad : List Nat) {m : Nat} (hm : m < 64) :
    (s.disarm bad).mover m = if bad.contains m then { s.mover m with armed := false } else s.mover m := by
  have step (s : State) (k : Nat) : (if k < 64 then s.updMover k (fun x => { x with armed := false }) else s).mover m
      = if m = k then { s.mover m with armed := false } else s.mover m := by
    by_cases hk : m = k
    · rw [if_pos hk, ← hk, if_pos hm, State.updMover_mover_same]
    · rw [if_neg hk]
      split
      · exact State.updMover_mover_other _ _ _ _ hk
      · rfl
  have fold := foldl_mover bad _ (fun x => { x with armed := false }) m (fun _ => rfl) step s
  exact fold.trans (ite_congr (propext List.contains_iff_mem.symm) (fun _ => rfl) fun _ => rfl)

/-- The movers that are neither fenced nor armed take the Quench program. -/
def Mover.loadUnarmed (x : Mover) : Mover := if x.fenced || x.armed then x else x.loadQuench

theorem Mover.loadUnarmed_idem (x : Mover) : x.loadUnarmed.loadUnarmed = x.loadUnarmed := by
  by_cases h : (x.fenced || x.armed) = true
  · simp only [Mover.loadUnarmed, h, if_true]
  · rw [Mover.loadUnarmed, Mover.loadUnarmed, if_neg h]
    exact if_pos (Bool.or_true _)

theorem State.loadMovers_mover (s : State) {m : Nat} (hm : m < 64) : (s.loadMovers false).mover m = (s.mover m).loadUnarmed := by
  have step (s : State) (k : Nat) : (if (s.mover k).fenced || (!false && (s.mover k).armed) then s else s.updMover k Mover.loadQuench).mover m
      = if m = k then (s.mover m).loadUnarmed else s.mover m := by
    rw [Bool.not_false, Bool.true_and]
    by_cases hk : m = k
    · rw [if_pos hk, ← hk, Mover.loadUnarmed]
      split
      · rfl
      · exact State.updMover_mover_same ..
    · rw [if_neg hk]
      split
      · rfl
      · exact State.updMover_mover_other _ _ _ _ hk
  exact (foldl_mover (List.range 64) _ Mover.loadUnarmed m Mover.loadUnarmed_idem step s).trans (if_pos (List.mem_range.mpr hm))

theorem exec_armingTimeout {s : State} {t : Nat} (ht : s.lq.unarmedAt = some t) :
    exec .armingTimeout s = occurs s (s.evaluates && !s.fcs.causes.testBit 4 && !s.lq.armed && s.passedUs t 2000)
      (fun s => (({ s with fcs := { s.fcs with causes := s.fcs.causes + 16 } } : State).report 0x2B 0 0 0 0).evalGuarantee) := by
  change execArmingTimeout s = _
  rw [execArmingTimeout, ht]

/-- Settles O37: the limit and the trip level, the life of a load pulse, and the check of the Quench programs. -/
theorem bankIsMeasuredAndArmed : Obligations.BankIsMeasuredAndArmed := by
  refine ⟨fun v s => ⟨fun hm ht => ?_, fun h => ?_, State.relimit_idle, fun hm => ?_, fun hm => ?_⟩,
    fun v s => ⟨exec_pulseStart_notYet, fun hr hd => ⟨fun hc => ?_, fun hc hn => ?_⟩,
      fun x l hx hf => ⟨fun hv hl => ?_, fun ht => ?_, fun h ht => ⟨fun hv => ?_, fun hv hc => ?_, fun c hv hc => ?_⟩⟩,
      fun x c hx hc hp hv ht => ⟨{ s with psv := s.psv.published x c s.tick }, rfl, rfl, rfl, rfl, rfl, rfl, fun same => ?_, fun worse => ⟨?_, ?_⟩⟩,
      fun x c hx hc => exec_capPublish_notYet hx hc, fun x c hx hc => ⟨fun hv ht => ?_, fun h => ?_⟩, fun l => exec_pulse_none,
      fun x l hx => ⟨fun hf => ?_, fun hf => ⟨?_, ?_⟩⟩, fun t ht => ⟨fun hm hs hl => ?_, fun h => ?_⟩⟩,
    fun bad reloaded s => ⟨fun h => ?_, fun hm hr => ?_, fun m hm => ⟨State.disarm_mover s bad hm, State.loadMovers_mover s hm⟩⟩,
    fun t s ht => ⟨fun he hc ha hl => ?_, fun h => ?_⟩⟩
  · change execLandingLimitRecompute v s = _
    rw [execLandingLimitRecompute, hm, ht, Bool.and_self, occurs_true rfl]
  · change execLandingLimitRecompute v s = _
    rw [execLandingLimitRecompute, occurs_false]
    rcases h with h | h <;> simp [h]
  · change execTripRecompute s = _
    rw [execTripRecompute, occurs_true hm]
  · change execTripRecompute s = _
    rw [execTripRecompute, occurs_false hm]
  · rw [exec_pulseStart hr hd, if_neg]
    rcases hc with h | h <;> simp [h]
  · rw [exec_pulseStart hr hd, if_pos (by rw [decide_eq_true hc, hn]; rfl)]
  · exact exec_pulseEnd_notYet hx (.inr (.inl ⟨hv, hl⟩))
  · exact exec_pulseEnd_notYet hx (.inr (.inr ht))
  · exact (exec_pulseEnd hx hf h ht).trans (congrArg _ (if_pos hv))
  · refine (exec_pulseEnd hx hf h ht).trans (congrArg _ ((if_neg (Nat.not_lt.mpr hv)).trans ?_))
    rw [hc]
  · refine (exec_pulseEnd hx hf h ht).trans (congrArg _ ((if_neg (Nat.not_lt.mpr hv)).trans ?_))
    rw [hc]
  · rw [exec_capPublish hx hc hp hv ht (decide_eq_false (Nat.not_lt.mpr same))]
    rfl
  · exact Bool.or_eq_true _ _ |>.mpr (.inr (decide_eq_true worse))
  · rw [exec_capPublish hx hc hp hv ht (decide_eq_true worse)]
    rfl
  · rw [exec_pulseRecoveryTimeout hx, occurs_true (by rw [hc, ht, decide_eq_true hv]; rfl)]
  · rw [exec_pulseRecoveryTimeout hx, occurs_false]
    rcases h with h | h
    · rw [decide_eq_false (Nat.not_lt.mpr h), Bool.and_false, Bool.false_and]
    · rw [h, Bool.and_false]
  · exact exec_pulseEnd_notYet hx (.inl hf)
  · change execCapPublish v s = _
    simp only [execCapPublish, hx, hf]
  · rw [exec_pulseRecoveryTimeout hx, hf, Option.isSome_none, Bool.false_and, Bool.false_and, occurs_false rfl]
  · rw [exec_bankStale ht, occurs_true (by rw [hm, hs, hl]; rfl)]
  · rw [exec_bankStale ht, occurs_false]
    rcases h with h | h | h <;> simp [h]
  · change execQuenchArmCheck bad reloaded s = _
    rw [execQuenchArmCheck, occurs_false]
    rcases h with h | h <;> simp [h]
  · change execQuenchArmCheck bad reloaded s = _
    rw [execQuenchArmCheck, hm, hr, Bool.and_self, occurs_true rfl]
  · rw [exec_armingTimeout ht, occurs_true (by rw [he, hc, ha, hl]; rfl)]
  · rw [exec_armingTimeout ht, occurs_false]
    rcases h with h | h | h <;> simp [h]

end Sys2Proof.Machine

/-! SUPPORT. Changes of mode, Boot, Load and Rebuild. -/
namespace Sys2Proof.Machine

/-! ## What the posting of events leaves alone -/

/-- `t` is `s` but for the events of the admin queues. -/
def State.EventsOnly (s t : State) : Prop := t = { s with qe := t.qe }

theorem State.EventsOnly.trans {s t u : State} (h : s.EventsOnly t) (h' : t.EventsOnly u) : s.EventsOnly u := by
  unfold State.EventsOnly at *
  rw [h'.trans (by rw [h])]

/-- A run of steps that each post events posts events alone. -/
theorem foldl_eventsOnly {α : Type} {f : State → α → State} (h : ∀ (s : State) a, s.EventsOnly (f s a)) (l : List α) (s : State) : s.EventsOnly (l.foldl f s) := by
  induction l generalizing s with
  | nil => rfl
  | cons a l ih => exact (h s a).trans (ih _)

theorem State.postEvent_only (s : State) (fn code num : Nat) (info : W64) : s.EventsOnly (s.postEvent fn code num info) := rfl

theorem State.postEventAll_only (s : State) (blk code num : Nat) (info : W64) : s.EventsOnly (s.postEventAll blk code num info) := by
  refine foldl_eventsOnly (fun s fn => ?_) _ s
  split
  · exact State.postEvent_only ..
  · rfl

theorem State.trustEvent_only (s : State) (code num : Nat) (info : W64) : s.EventsOnly (s.trustEvent code num info) := by
  refine foldl_eventsOnly (fun s m => ?_) _ s
  split
  · exact State.postEvent_only ..
  · rfl

/-- The proposals that are ended are gone, and events tell of them. -/
theorem State.endProps_only (s : State) (p : Proposal → Bool) (outcome mid : Nat) :
    ({ s with tru := { s.tru with props := s.tru.props.filter (fun x => !p x) } } : State).EventsOnly (s.endProps p outcome mid) :=
  foldl_eventsOnly (fun _ _ => State.trustEvent_only ..) _ _

/-! ## A change of mode -/

/-- The part in mode `m`, before what the mode brings: the proposals that wait are ended. -/
def State.inNewMode (s : State) (m : Mode) : State :=
  let s := if m = .provision then s.redoTests else s
  ({ s with top := { s.top with prev := s.top.mode.code, mode := m, changes := wrapAdd 16 s.top.changes 1, modeTime := s.tmr.time } } : State).endProps
    (fun _ => true) 6 0x3F

/-- What a mode brings changes neither the mode registers nor the Management Processor. -/
theorem State.setMode_inNewMode (s : State) (m : Mode) :
    (s.setMode m).top = (s.inNewMode m).top ∧ (s.setMode m).mgp = (s.inNewMode m).mgp := by
  unfold State.setMode State.inNewMode
  dsimp only
  generalize State.endProps _ (fun _ => true) 6 0x3F = u
  repeat' split
  all_goals exact ⟨rfl, rfl⟩

/-- The mode registers after the part has entered mode `m`. -/
theorem State.setMode_top (s : State) (m : Mode) :
    (s.setMode m).top = { s.top with prev := s.top.mode.code, mode := m, changes := wrapAdd 16 s.top.changes 1, modeTime := s.tmr.time } := by
  rw [(s.setMode_inNewMode m).1, State.inNewMode, State.endProps_only]
  dsimp only
  split <;> rfl

/-- The Management Processor goes on through a change of mode, but into Provision. -/
theorem State.setMode_mgp (s : State) {m : Mode} (h : m ≠ .provision) : (s.setMode m).mgp = s.mgp := by
  rw [(s.setMode_inNewMode m).2, State.inNewMode, State.endProps_only, if_neg h]

/-! ## Boot (R443, R444) -/

theorem State.setsIf_mgp (s : State) (b : Bool) (reg bit : Nat) : (s.setsIf b reg bit).mgp = s.mgp := by cases b <;> rfl

theorem State.bootFrom_top (s : State) (h : Bool) (x : NorImage) :
    (s.bootFrom h x).top.mode = .load ∧ (s.bootFrom h x).top.bootNor = h ∧ (s.bootFrom h x).top.bootArea = x.area := by
  rw [State.bootFrom, State.setMode_top]
  cases h <;> exact ⟨rfl, rfl, rfl⟩

theorem State.bootFrom_mgp (s : State) (h : Bool) (x : NorImage) :
    (s.bootFrom h x).mgp = { s.mgp with running := true, bootRom := false, servedAt := s.tick, fwVersion := leAt x.img.config 20 4 } :=
  (State.setMode_mgp _ (by decide)).trans (State.setsIf_mgp ..)

theorem State.noteVerify_top (s : State) (kind code pair : Nat) : (s.noteVerify kind code pair).top = s.top := rfl

theorem State.tryImage_mode (s : State) (x : Option NorImage) : (s.tryImage x).2.top.mode = s.top.mode := by
  cases x with
  | none => rfl
  | some x =>
    unfold State.tryImage
    dsimp only
    split
    · rw [State.noteVerify_top]
    · rw [State.noteVerify_top]

theorem State.tryImage_some (s : State) (x : NorImage) :
    ((s.tryImage (some x)).1 = true ↔ s.imageCode x = (0, 0)) ∧ (s.tryImage (some x)).2.top.image = x.img := by
  simp only [State.tryImage]
  split
  case isTrue h => simp [Prod.ext_iff, h, State.noteVerify]
  case isFalse h => simp [Prod.ext_iff, Classical.not_not.mp h, State.noteVerify]

section
variable {s : State} {a b : Option NorImage}

theorem exec_bootComplete (hm : s.inMode [.boot] = true) (hf : s.top.bootFail = false) :
    exec (.bootComplete a b) s =
      let v := (s.noteNors a b).tryImage a
      let w := v.2.tryImage b
      .next (match v.1, a with
        | true, some x => v.2.bootFrom false x
        | _, _ => match w.1, b with
          | true, some x => w.2.bootFrom true x
          | _, _ => { w.2 with top := { w.2.top with bootFail := true } }) := by
  change execBootComplete a b s = _
  rw [execBootComplete]
  exact occurs_true (by rw [hm, hf]; rfl) _

theorem exec_bootComplete_over (h : s.inMode [.boot] = false ∨ s.top.bootFail = true) : exec (.bootComplete a b) s = .next s := by
  change execBootComplete a b s = _
  rw [execBootComplete, occurs_false]
  rcases h with h | h <;> simp [h]

end

/-! ## Load (R445 to R448) -/

section
variable {s : State} {luns : List (Nat × List Byte)} {failed : List Nat}

theorem exec_loadComplete (hm : s.inMode [.load] = true) (ready : ∀ c, c < 16 → (s.cluster c).ready = true) :
    exec (.loadComplete luns failed) s =
      ((if s.loadImage.otp.locked then some s.loadImage else s.loadImage.writeRwl (rwlEntries s.top.image.config)).elim (.fault .reservedValue)
        fun v => .next ((v.finishLoad luns failed).setMode (v.finishLoad luns failed).afterLoad)) := by
  have all : (List.range 16).all (fun c => (s.cluster c).ready) = true := List.all_eq_true.mpr fun c hc => ready c (List.mem_range.mp hc)
  change execLoadComplete luns failed s = _
  simp only [execLoadComplete, hm, all, Bool.and_self, Bool.not_true, Bool.false_eq_true, if_false]
  cases (if s.loadImage.otp.locked then some s.loadImage else s.loadImage.writeRwl (rwlEntries s.top.image.config)) <;> rfl

theorem exec_loadComplete_notYet (h : s.inMode [.load] = false ∨ ∃ c, c < 16 ∧ (s.cluster c).ready = false) :
    exec (.loadComplete luns failed) s = .next s := by
  have waits : (s.inMode [.load] && (List.range 16).all (fun c => (s.cluster c).ready)) = false := by
    rcases h with h | ⟨c, hc, hr⟩
    · rw [h, Bool.false_and]
    · rw [Bool.and_eq_false_iff]
      exact .inr (List.all_eq_false.mpr ⟨c, List.mem_range.mpr hc, ne_true_of_eq_false hr⟩)
  change execLoadComplete luns failed s = _
  rw [execLoadComplete, waits]
  rfl

end

/-! ## Rebuild (R287 to R291) -/

/-- Every record of a Rebuild counts as posted. -/
theorem State.noteLoss_posted {s before : State} {lost : List (Nat × Nat)} {man : Bool} {id : Nat} {x : Stream}
    (h : (s.noteLoss before lost man).stream id = some x) : ∀ r ∈ x.recs, r.posted = true := by
  have kept : (s.noteLoss before lost man).stream id
      = (s.mm.streams.find id).map fun x => { x with recs := x.recs.map (fun (r : Rec) => { r with posted := true }) } := by
    simp only [State.noteLoss, State.stream, Tbl.find_all]
  obtain ⟨y, -, rfl⟩ := Option.map_eq_some_iff.mp (kept.symm.trans h)
  intro r hr
  obtain ⟨r', -, rfl⟩ := List.mem_map.mp hr
  rfl

theorem exec_rebuildComplete {s : State} {lost : List (Nat × Nat)} {man : Bool} {weak : List Nat} (hm : s.inMode [.rebuild] = true) :
    exec (.rebuildComplete lost man weak) s
      = .next ((((s.takeLoss lost weak).noteLoss s lost man).closeRebuild s.usedGen).endUpdateAtReset.enterService) := by
  change execRebuildComplete lost man weak s = _
  rw [execRebuildComplete, occurs_true hm]

/-- Settles O39: Boot boots the first image that verifies, Load leads on by the media's metadata, and Rebuild closes into Service. -/
theorem bootLoadRebuild : Obligations.BootLoadRebuild := by
  refine ⟨fun a b s hm hf => ⟨fun x ha ok => ?_, fun bad => ⟨fun x hb ok => ?_, fun worse => ⟨_, exec_bootComplete hm hf, ?_, ?_⟩⟩⟩,
    fun x s => ⟨rfl, s.tryImage_some x⟩, fun a b s => exec_bootComplete_over,
    fun h x s => ?_, fun luns failed s hm ready v hv => ?_, fun luns failed s hm ready unlocked hv => ?_,
    fun luns failed s => exec_loadComplete_notYet,
    fun lost man weak s => ⟨fun hm => ⟨exec_rebuildComplete hm, rfl, rfl, fun id x => State.noteLoss_posted, fun hc hl => ?_⟩, fun hm => ?_⟩,
    fun m s => by rw [State.setMode_top]⟩
  · subst ha
    exact (exec_bootComplete hm hf).trans (by simp only [ok])
  · subst hb
    exact (exec_bootComplete hm hf).trans (by simp only [bad, ok])
  · simp only [bad, worse]
  · simp only [bad, worse, State.tryImage_mode]
    rfl
  · obtain ⟨mode, nor, area⟩ := s.bootFrom_top h x
    exact ⟨mode, nor, area, by rw [State.bootFrom_mgp], by rw [State.bootFrom_mgp]⟩
  · rw [exec_loadComplete hm ready, hv]
    rfl
  · rw [exec_loadComplete hm ready, if_neg (ne_true_of_eq_false unlocked), hv]
    rfl
  · simp only [State.takeLoss, if_neg hc, hl, Bool.false_eq_true, if_false]
  · change execRebuildComplete lost man weak s = _
    rw [execRebuildComplete, occurs_false hm]

end Sys2Proof.Machine

/-! SUPPORT. The collector. -/
namespace Sys2Proof.Machine

/-! ## The collector (R367 to R373, R394) -/

/-- A line beyond the engines, and one of a fenced engine or cluster, is not collected. -/
theorem exec_engineErrorLine_dead {s : State} {e : Nat} (h : 1152 ≤ e ∨ s.lineDead e = true) : exec (.engineErrorLine e) s = .next s := by
  change execEngineErrorLine e s = _
  rw [execEngineErrorLine, occurs_false]
  rcases h with h | h
  · rw [show decide (e < engCount) = false from decide_eq_false (Nat.not_lt.mpr h), Bool.false_and, Bool.false_and]
  · rw [h, Bool.not_true, Bool.and_false]

section
variable {s : State} (on : s.powered = true)
include on

theorem exec_engineErrorLine {e : Nat} (he : e < 1152) (live : s.lineDead e = false) :
    exec (.engineErrorLine e) s =
      let r : Report := { cls := 0x08, detail := 0, kind := kindEng, unit := e, info := 0 }
      .next (if s.fcs.window then s.reportHeld r else (s.latchLine e).reportHeld r) := by
  change execEngineErrorLine e s = _
  rw [execEngineErrorLine, occurs_true]
  rw [on, live, show decide (e < engCount) = true from decide_eq_true he]
  rfl

theorem exec_heartbeatRequest {es : List Nat} :
    exec (.heartbeatRequest es) s = occurs s (s.passedUs s.fcs.hbAt 100) fun s =>
      let u := ({ s with fcs := { s.fcs with hbAt := s.tick } } : State)
      if u.fcs.window then u else (es.filter u.asked).foldl State.silent u := by
  change execHeartbeatRequest es s = _
  rw [execHeartbeatRequest, on, Bool.true_and]

theorem exec_landingScrub {good bad : List Nat} :
    exec (.landingScrub good bad) s = occurs s (s.passedUs s.fcs.scrubAt 1000) fun s =>
      let u := ({ s with fcs := { s.fcs with scrubAt := s.tick } } : State)
      (bad.filter fun a => u.meetsPart 0 a 1).foldl State.scrubBad ((good.filter fun a => u.meetsPart 0 a 1).foldl State.scrubFixed u) := by
  change execLandingScrub good bad s = _
  rw [execLandingScrub, on, Bool.true_and]

theorem exec_vaultPinScrub {x : Nat} {bad : Bool} :
    exec (.vaultPinScrub x bad) s = occurs s ((s.xt x).win.isSome && (s.xt x).loaded && s.passedMs (s.fcs.pinScrubAt.get x 0) 8) fun s =>
      let u := ({ s with fcs := { s.fcs with pinScrubAt := s.fcs.pinScrubAt.put x s.tick } } : State)
      if bad then u.pinError x else u := by
  change execVaultPinScrub x bad s = _
  rw [execVaultPinScrub, on, Bool.true_and]

end

/-- The partition map is no concern of the collector's own state. -/
theorem State.meetsPart_fcs (s : State) (f : Fcs) (k lo len : Nat) : ({ s with fcs := f } : State).meetsPart k lo len = s.meetsPart k lo len := by
  have base : ({ s with fcs := f } : State).partBase k = s.partBase k := rfl
  have size : ({ s with fcs := f } : State).partSize k = s.partSize k := rfl
  simp only [State.meetsPart, base, size]

/-- A report that is held in a window already is held once. -/
theorem State.reportHeld_again {s : State} {r : Report} (hw : s.fcs.window = true) (hc : s.fcs.asserted.contains r = true) : s.reportHeld r = s := by
  rw [State.reportHeld, if_pos hw, if_pos hc]

/-- An engine that has not answered is noted, and reported. -/
theorem State.silent_fcs {s : State} {e : Nat} (hw : s.fcs.window = false) (hb : s.fcs.hbFail.contains e = false) :
    (s.silent e).fcs.hbFail = e :: s.fcs.hbFail
      ∧ (s.silent e).fcs.inbox = s.fcs.inbox ++ [{ cls := 0x09, detail := 0, kind := kindEng, unit := e, info := 0 }] := by
  simp only [State.silent, State.report, State.sets, hw, hb, Bool.false_eq_true, if_false, and_self]

theorem State.markBad_bad (s : State) (a : Nat) : (s.markBad a).yard.bad.contains (a / 8 * 8) = true := by
  unfold State.markBad
  dsimp only
  split
  · assumption
  · simp

/-- Settles O40: the sources of the part are collected, held through a window, and reported as their class. -/
theorem sourcesAreCollected : Obligations.SourcesAreCollected := by
  refine ⟨fun s on => ⟨fun ext => ?_, rfl, fun e he live => ⟨fun hw => ?_, fun hw => ?_⟩, fun e => exec_engineErrorLine_dead,
      fun r => ⟨fun hw => ?_, fun hw hc => ?_, fun hw hc => ?_⟩, fun es ht => ?_, fun es ht => ?_, fun e hw hb => ⟨_, rfl, State.silent_fcs hw hb⟩,
      fun cls kind unit => ?_, fun rail h1 h2 => ?_, fun clk hc => ?_, fun good bad ht => ?_, fun good bad ht => ?_, s.markBad_bad,
      fun x bad hw hl ht => ?_, fun x bad h => ?_⟩,
    fun s ext l a b c x off => ⟨?_, ?_, ?_, ?_, ?_, ?_, ?_, ?_⟩⟩
  · change execSourceCollected ext s = _
    rw [execSourceCollected, occurs_true on]
  · exact (exec_engineErrorLine on he live).trans (congrArg _ (if_pos hw))
  · exact (exec_engineErrorLine on he live).trans (congrArg _ (if_neg (ne_true_of_eq_false hw)))
  · exact if_neg (ne_true_of_eq_false hw)
  · simp only [State.reportHeld, hw, hc, if_true, Bool.false_eq_true, if_false]
  · exact State.reportHeld_again hw hc
  · exact (exec_heartbeatRequest on).trans (occurs_true ht _)
  · exact (exec_heartbeatRequest on).trans (occurs_false ht _)
  · change execPairFault cls kind unit s = _
    rw [execPairFault, on, Bool.true_and, occurs_next]
  · change execRailOutOfRange rail s = _
    rw [execRailOutOfRange, on, decide_eq_true h1, decide_eq_true h2]
    exact occurs_true rfl _
  · change execClockFault clk s = _
    rw [execClockFault, on, decide_eq_true hc]
    exact occurs_true rfl _
  · rw [exec_landingScrub on, occurs_true ht]
    simp only [State.meetsPart_fcs]
  · exact (exec_landingScrub on).trans (occurs_false ht _)
  · rw [exec_vaultPinScrub on, occurs_true]
    rw [hw, hl, ht]
    rfl
  · refine (exec_vaultPinScrub on).trans (occurs_false ?_ _)
    rcases h with h | h | h <;> simp [h]
  · change execSourceCollected ext s = _
    rw [execSourceCollected, occurs_false off]
  · change execEngineErrorLine a s = _
    rw [execEngineErrorLine, off, Bool.and_false, Bool.false_and, occurs_false rfl]
  · change execHeartbeatRequest l s = _
    rw [execHeartbeatRequest, off, Bool.false_and, occurs_false rfl]
  · change execPairFault a b c s = _
    rw [execPairFault, off, Bool.false_and, occurs_false rfl]
  · change execRailOutOfRange a s = _
    rw [execRailOutOfRange, off, Bool.false_and, Bool.false_and, occurs_false rfl]
  · change execClockFault a s = _
    rw [execClockFault, off, Bool.false_and, occurs_false rfl]
  · change execLandingScrub l l s = _
    rw [execLandingScrub, off, Bool.false_and, occurs_false rfl]
  · change execVaultPinScrub a x s = _
    rw [execVaultPinScrub, off, Bool.false_and, Bool.false_and, Bool.false_and, occurs_false rfl]

end Sys2Proof.Machine

/-! SUPPORT. Windows and watchdogs. -/
namespace Sys2Proof.Machine

/-! ## What a snapshot leaves of the collector -/

theorem State.report_ovf (s : State) (cls detail kind unit : Nat) (info : W64) : (s.report cls detail kind unit info).fcs.ovf = s.fcs.ovf := by
  unfold State.report
  split <;> rfl

theorem State.reportBad_ovf (s : State) (lo len : Nat) : (s.reportBad lo len).fcs.ovf = s.fcs.ovf :=
  foldl_keeps (fun s => s.fcs.ovf) (fun _ _ => State.report_ovf ..) _ s

theorem State.reportPart_ovf (s : State) (lo len : Nat) : (s.reportPart lo len).fcs.ovf = s.fcs.ovf := by
  unfold State.reportPart
  dsimp only
  split
  · rw [State.reportBad_ovf]
    split
    · exact State.reportBad_ovf ..
    · rfl
  · split
    · exact State.reportBad_ovf ..
    · rfl

theorem State.yardWrite_ovf (s : State) (lo : Nat) (bs : List Byte) : (s.yardWrite lo bs).fcs.ovf = s.fcs.ovf := by
  unfold State.yardWrite
  dsimp only
  split
  · rfl
  · exact State.reportPart_ovf ..

theorem State.snapshot_ovf (s : State) (m : BitVec 16) : (s.snapshot m).fcs.ovf = s.fcs.ovf := by
  unfold State.snapshot
  split
  · rfl
  · exact foldl_keeps (fun s => s.fcs.ovf) (fun _ _ => State.yardWrite_ovf ..) _ _

/-- Where no source stands as the first, the next one does, and FCS_OVF is as it was. -/
theorem State.latchFirst_first {s : State} (h : s.fcs.first = none) (r : Report) (k : Nat) :
    (s.latchFirst r k).fcs.first = some (r.code, k) ∧ (s.latchFirst r k).fcs.ovf = s.fcs.ovf := by
  simp only [State.latchFirst, h, State.snapshot_ovf, and_self]

/-! ## The Management Processor and the watchdogs (R391, R392) -/

section
variable {s : State} (on : s.powered = true)
include on

theorem exec_mgpWatchdogExpiry : exec .mgpWatchdogExpiry s
    = occurs s (s.mgp.running && s.passedMs s.mgp.servedAt (fld s.fcs.mgpWd 0 16)) (fun s => s.mgpSource 0x31) := by
  change execMgpWatchdogExpiry s = _
  rw [execMgpWatchdogExpiry, on, Bool.true_and]

theorem exec_lockstepMismatch : exec .lockstepMismatch s = occurs s s.mgp.running (fun s => s.mgpSource 0x30) := by
  change execLockstepMismatch s = _
  rw [execLockstepMismatch, on, Bool.true_and]

theorem exec_wdogService {b : Bool} : exec (.wdogService b) s = occurs s (b && !s.fcs.iwdgHalted && s.passedUs s.fcs.iwdgServed 1000)
    (fun s => { s with fcs := { s.fcs with iwdgServed := s.tick, kick := !s.fcs.kick } }) := by
  change execWdogService b s = _
  rw [execWdogService, on, Bool.true_and]

theorem exec_iwdgExpiry : exec .iwdgExpiry s = occurs s (!s.fcs.iwdgHalted && !s.fcs.iwdgExpired && s.passedUs s.fcs.iwdgServed 2000)
    (fun s => ({ s with fcs := { s.fcs with iwdgExpired := true } } : State).evalGuarantee) := by
  change execIwdgExpiry s = _
  rw [execIwdgExpiry, on, Bool.true_and]

end

theorem exec_mgpRestartTimeout {s : State} {t : Nat} (h : s.fcs.mgpRestart = some t) : exec .mgpRestartTimeout s
    = occurs s (s.passedMs t 500 && s.mgp.restartAt.isSome) (fun s => ({ s with mgp := { s.mgp with restartAt := none } } : State).mgpSource 0x32) := by
  change execMgpRestartTimeout s = _
  rw [execMgpRestartTimeout, h]

theorem exec_mgpRestartTimeout_none {s : State} (h : s.fcs.mgpRestart = none ∨ s.mgp.restartAt = none) : exec .mgpRestartTimeout s = .next s := by
  cases hr : s.fcs.mgpRestart with
  | none =>
    change execMgpRestartTimeout s = _
    rw [execMgpRestartTimeout, hr]
  | some t =>
    have no := h.resolve_left (by rw [hr]; exact Option.some_ne_none t)
    rw [exec_mgpRestartTimeout hr, no, Option.isSome_none, Bool.and_false, occurs_false rfl]

theorem exec_fcsClearFirst {s : State} {mid : Nat} {v : W32} (hw : s.mayWrite mid fcsBlock = true) (hv : v.getLsbD 0 = true) :
    exec (.fcsClearFirst mid v) s =
      let u := ({ s with fcs := { s.fcs with first := none, firstUnit := (0, 0), firstTime := 0, ovf := false } } : State)
      .next (s.fcs.fresh.elim u fun x => u.latchFirst x.1 x.2) := by
  change execFcsClearFirst mid v s = _
  rw [execFcsClearFirst, hw, hv, Bool.and_self, occurs_true rfl]
  dsimp only
  cases s.fcs.fresh <;> rfl

/-- Settles O41: a window closes, a quiet period ends, the first fault is cleared, and the watchdogs are watched. -/
theorem windowsAndWatchdogs : Obligations.WindowsAndWatchdogs := by
  refine ⟨fun s => ⟨fun hw => ?_, fun hw => ?_, ⟨_, rfl, rfl, rfl, rfl, rfl, rfl, rfl⟩, ⟨fun hq => ?_, fun hq => ?_⟩, fun mid v h => ?_,
      fun mid v hw hv => ⟨fun hf => ?_, fun r k hf => ⟨?_, State.latchFirst_first rfl r k⟩⟩⟩,
    fun s on => ⟨fun hr => ⟨?_, ?_⟩, fun hr => ⟨?_, ?_⟩, fun t ht hr => ?_, exec_mgpRestartTimeout_none, fun hh ht => ?_, ?_, fun b h => ?_,
      fun hh he ht => ?_, fun h => ?_⟩⟩
  · change execWindowClose s = _
    rw [execWindowClose, occurs_true hw]
  · change execWindowClose s = _
    rw [execWindowClose, occurs_false hw]
  · change execQuietPeriodEnd s = _
    rw [execQuietPeriodEnd]
    exact occurs_true hq _
  · change execQuietPeriodEnd s = _
    rw [execQuietPeriodEnd]
    exact occurs_false hq _
  · change execFcsClearFirst mid v s = _
    rw [execFcsClearFirst, occurs_false]
    rcases h with h | h
    · rw [h, Bool.false_and]
    · rw [h, Bool.and_false]
  · exact (exec_fcsClearFirst hw hv).trans (by rw [hf]; rfl)
  · exact (exec_fcsClearFirst hw hv).trans (by rw [hf]; rfl)
  · rw [exec_mgpWatchdogExpiry on, hr, Bool.true_and, occurs_next]
  · rw [exec_lockstepMismatch on, occurs_true hr]
  · rw [exec_mgpWatchdogExpiry on, hr, Bool.false_and, occurs_false rfl]
  · rw [exec_lockstepMismatch on, occurs_false hr]
  · rw [exec_mgpRestartTimeout ht, hr, Bool.and_true, occurs_next]
  · rw [exec_wdogService on, occurs_true (by rw [hh, ht]; rfl)]
  · rw [exec_wdogService on, Bool.false_and, Bool.false_and, occurs_false rfl]
  · rw [exec_wdogService on, occurs_false]
    rcases h with h | h <;> simp [h]
  · rw [exec_iwdgExpiry on, occurs_true (by rw [hh, he, ht]; rfl)]
  · rw [exec_iwdgExpiry on, occurs_false]
    rcases h with h | h | h <;> simp [h]

end Sys2Proof.Machine

/-! SUPPORT. Consent and debug challenges. -/
namespace Sys2Proof.Machine

/-! ## What the guarantee and the debug events leave of the trust unit -/

theorem State.evalGuarantee_tru (s : State) : s.evalGuarantee.tru = s.tru := by
  unfold State.evalGuarantee
  dsimp only
  split
  · rfl
  · split
    · rfl
    · rw [State.postEventAll_only]

theorem State.endChallenge_tru (s : State) : s.endChallenge.tru = { s.tru with challenge := none } := by
  rw [State.endChallenge, State.debugEvent, State.trustEvent_only]

theorem State.unlockDebug_level (s : State) (level : Nat) : (s.unlockDebug level).tru.debugLevel = max level s.tru.debugLevel := by
  rw [State.unlockDebug, State.evalGuarantee_tru]
  dsimp only
  split <;> rfl

/-! ## Debug challenges (R417) -/

section
variable {s : State} {slot level t : Nat} {valid : Bool} {ch : List Byte}

theorem exec_debugChallenge_none (h : s.tru.challenge = none) : exec .debugChallengeExpiry s = .next s ∧ exec (.debugUnlockSignature slot valid) s = .next s := by
  change execDebugChallengeExpiry s = _ ∧ execDebugUnlockSignature slot valid s = _
  simp only [execDebugChallengeExpiry, execDebugUnlockSignature, h, and_self]

section
variable (h : s.tru.challenge = some (level, ch, t))
include h

theorem exec_debugChallengeExpiry : exec .debugChallengeExpiry s = occurs s (s.passedMs t 60000) State.endChallenge := by
  change execDebugChallengeExpiry s = _
  rw [execDebugChallengeExpiry, h]

theorem exec_debugUnlockSignature_late (ht : s.passedMs t 60000 = true) : exec (.debugUnlockSignature slot valid) s = .next s := by
  change execDebugUnlockSignature slot valid s = _
  rw [execDebugUnlockSignature, h]
  dsimp only
  rw [ht]
  exact if_neg Bool.false_ne_true

/-- A signature before the end of the challenge ends it; one by a programmed owner slot that is not revoked unlocks the level. -/
theorem exec_debugUnlockSignature (ht : s.passedMs t 60000 = false) :
    exec (.debugUnlockSignature slot valid) s =
      let r := s.rootAt (rootKey 0 slot)
      .next (if valid && decide (slot = 2 ∨ slot = 3) && r.programmed && !r.revoked then s.unlockDebug level else s).endChallenge := by
  change execDebugUnlockSignature slot valid s = _
  rw [execDebugUnlockSignature, h]
  dsimp only
  rw [ht]
  exact if_pos rfl

end

end

theorem exec_commandLimitExpiry {s : State} {fn : Nat} {tag : W32} (h : s.mgpActs = true) :
    exec (.commandLimitExpiry fn tag) s =
      .next ((s.mgp.staged.find? (fun p => decide (p.fn = fn) && decide (leAt p.bytes 4 4 = tag.toNat) && s.overdue p)).elim s
        fun p => (s.undoCmd p).replyTo p Status.busy [] []) := by
  change execCommandLimitExpiry fn tag s = _
  rw [execCommandLimitExpiry, if_pos h]
  cases s.mgp.staged.find? (fun p => decide (p.fn = fn) && decide (leAt p.bytes 4 4 = tag.toNat) && s.overdue p) with
  | none => rw [Option.elim_none]
  | some p => rw [Option.elim_some]

/-- Settles O44: proposals, commands and debug challenges end when their time has passed, and a valid signature unlocks. -/
theorem consentAndDebugEnd : Obligations.ConsentAndDebugEnd := by
  refine ⟨fun id s => ⟨fun h => ⟨?_, ?_⟩, fun h => ?_⟩, fun fn tag s => ⟨fun p hm hp => ?_, fun h => ?_⟩,
    fun slot valid s h => exec_debugChallenge_none h,
    fun slot level t valid ch s h => ⟨fun ht => ⟨exec_debugUnlockSignature_late h ht, _, (exec_debugChallengeExpiry h).trans (occurs_true ht _), ?_, ?_⟩,
      fun ht => ⟨(exec_debugChallengeExpiry h).trans (occurs_false ht _),
        fun ⟨hv, hslot, hp, hr⟩ => ⟨_, (exec_debugUnlockSignature h ht).trans (congrArg _ (congrArg _ (if_pos ?_))), rfl, ?_, ?_⟩,
        fun bad => ⟨_, (exec_debugUnlockSignature h ht).trans (congrArg _ (congrArg _ (if_neg ?_))), rfl, ?_, ?_⟩⟩⟩⟩
  · change execConsentExpiry id s = _
    rw [execConsentExpiry, occurs_true h]
  · rw [State.endProps_only]
    simp only [decide_not]
  · change execConsentExpiry id s = _
    rw [execConsentExpiry, occurs_false h]
  · rw [exec_commandLimitExpiry hm, show s.mgp.staged.find? _ = some p from hp, Option.elim_some]
  · rcases h with h | h
    · change execCommandLimitExpiry fn tag s = _
      rw [execCommandLimitExpiry, if_neg (ne_true_of_eq_false h)]
    · cases hm : s.mgpActs with
      | true => rw [exec_commandLimitExpiry hm, show s.mgp.staged.find? _ = none from h, Option.elim_none]
      | false =>
        change execCommandLimitExpiry fn tag s = _
        rw [execCommandLimitExpiry, if_neg (ne_true_of_eq_false hm)]
  · rw [State.endChallenge_tru]
  · rw [State.endChallenge_tru]
  · rw [hv, decide_eq_true hslot, hp, hr]
    rfl
  · rw [State.endChallenge_tru]
  · rw [State.endChallenge_tru]
    exact State.unlockDebug_level ..
  · simpa only [Bool.and_eq_true, decide_eq_true_eq, Bool.not_eq_true', and_assoc] using bad
  · rw [State.endChallenge_tru]
  · rw [State.endChallenge_tru]

end Sys2Proof.Machine

/-! SUPPORT. Proposals and their ratification. -/
namespace Sys2Proof.Machine

theorem State.trustEvent_tru (s : State) (code num : Nat) (info : W64) : (s.trustEvent code num info).tru = s.tru := by
  rw [State.trustEvent_only]

/-! ## Proposals and their ratification (R409 to R413) -/

section
variable {s : State} {fn : Nat} {d : Rd} {p : Packet} {data : List Byte} {c : Cmd}

/-- A command with input data that runs at once and is not protected, whose packet is in turn and passes its checks. -/
theorem State.command_passes (ht : s.turn = some p) (hf : p.fn = fn) (hc : c.is p = true) (hi : c.data = .input) (hl : c.long = false)
    (hd : dataOf d p.len = some data) (hv : (p.req data).version = 1) (hm : c.malformed (p.req data) = false)
    (hs : (s.afterTurn p).verdict c (p.req data) true = none) (hp : c.prot (s.afterTurn p) (p.req data) = false) :
    s.command c fn d = .next (if (p.req data).dry && !c.verifies then (s.afterTurn p).replyTo p Status.success [] []
      else State.finish p (c.apply (p.req data) true [] (s.afterTurn p))) := by
  have read : c.dataAt p d = some data := by rw [Cmd.dataAt, if_pos ⟨hi, hl⟩, hd]
  have idle : (s.afterTurn p).longBusy c p = false := by rw [State.longBusy, hl, Bool.false_and]
  rw [State.command_turn ht hf hc, State.takeUp_passes (by rwa [read]) (by rwa [read]) (by rwa [read])]
  simp only [read, Option.getD_some, idle, hl, hp, Bool.and_false, Bool.false_eq_true, if_false]
  exact (apply_ite Host.Outcome.next _ _ _).symm

theorem exec_propose (ht : s.turn = some p) (hf : p.fn = fn) (hc : cmdPropose.is p = true) :
    exec (.propose fn d) s = if s.proposeUndef p d then .fault .reservedPacket else s.command cmdPropose fn d := by
  change execPropose fn d s = _
  simp only [execPropose, ht, hf, hc, true_and]

/-- A proposal is stored under the next number, and answered CONSENT_PENDING. -/
theorem State.propose_stores (s : State) (r : Req) :
    let x : Proposal := { id := s.tru.propNext, mid := r.mid, packet := (proposed r).pkt, data := (proposed r).data
                          digest := sha384 ((proposed r).pkt ++ (proposed r).data), tick := s.tick }
    (s.propose r).status = Status.consentPending ∧ (s.propose r).st.tru.props = s.tru.props ++ [x] ∧ (s.propose r).st.tru.propNext = s.tru.propNext + 1 := by
  exact ⟨rfl, congrArg Tru.props (State.trustEvent_tru ..), congrArg Tru.propNext (State.trustEvent_tru ..)⟩

/-- What RATIFY answers where it refuses, and the proposal that it ends. -/
theorem State.ratify_refuses {r : Req} {st : BitVec 16} {ends : Option (Proposal × Nat)} (h : s.ratified r = .refuse st ends) :
    s.ratify r = Res.fail (ends.elim s fun x => if r.dry then s else s.endProps (fun y => decide (y.id = x.1.id)) x.2 r.mid) st := by
  rw [State.ratify, h]
  cases ends with
  | none => cases r.dry <;> rfl
  | some x => cases r.dry <;> rfl

end

/-- Settles O45: a proposal waits, and the RATIFY of a second keyholder refuses it or carries it out. -/
theorem proposalsAreRatified : Obligations.ProposalsAreRatified := by
  refine ⟨fun fn d s p ht hf hc => ⟨fun undef => ?_, fun sound data hd hv hm hs => ⟨fun dry => ?_, fun dry => ?_⟩⟩,
    fun r s => s.propose_stores r,
    fun r s => ⟨fun hx => ?_, fun x hx self => ?_, fun x hx other wrong => ?_, fun x c hx other same hc => ⟨fun st hv => ?_, fun hv hl => ?_⟩⟩,
    fun fn d data s p ht hf hc hd hv hm hs => ?_, fun fn d pass result s p x hx => ?_, fun fn d pass result s hn => ?_, fun fn d s ht => ⟨?_, ?_⟩⟩
  · rw [exec_propose ht hf hc, if_pos undef]
  · rw [exec_propose ht hf hc, if_neg (ne_true_of_eq_false sound), State.command_passes ht hf hc rfl rfl hd hv hm hs rfl, dry]
    rfl
  · rw [exec_propose ht hf hc, if_neg (ne_true_of_eq_false sound), State.command_passes ht hf hc rfl rfl hd hv hm hs rfl, dry]
    rfl
  · rw [State.ratify_refuses (by rw [State.ratified, hx])]
    rfl
  · rw [State.ratify_refuses (by rw [State.ratified, hx]; exact if_pos self)]
    rfl
  · rw [State.ratify_refuses (by rw [State.ratified, hx]; exact (if_neg other).trans (if_pos wrong))]
    rfl
  · have refused : s.ratified r = .refuse st (some (x, 2)) := by
      simp only [State.ratified, hx, other, same, hc, hv, if_false, ne_eq, not_true_eq_false]
    rw [State.ratify_refuses refused]
    rfl
  · have goes : s.ratified r = .go x c := by
      simp only [State.ratified, hx, other, same, hc, hv, State.longBusy, hl, if_false, ne_eq, not_true_eq_false, Bool.false_and, Bool.false_eq_true]
    rw [State.ratify, goes]
    simp only [State.carryOut, hl, Bool.false_eq_true, if_false]
  · exact (State.command_passes ht hf hc rfl rfl hd hv hm hs rfl).trans (congrArg _ (if_neg (by rw [show cmdRatify.verifies = true from rfl]; simp)))
  · change execRatify fn d (.commit pass result) s = _
    simp only [execRatify, hx]
  · change execRatify fn d (.commit pass result) s = _
    simp only [execRatify, hn]
  · change execPropose fn d s = _
    simp only [execPropose, ht]
  · exact State.command_noTurn ht

end Sys2Proof.Machine

/-! SUPPORT. Queues, crews and the keyholders' OTP. -/
namespace Sys2Proof.Machine

/-! ## What the guarantee leaves of the engines and the queues -/

theorem State.postEventAll_sqs (s : State) (blk code num : Nat) (info : W64) : (s.postEventAll blk code num info).qe.sqs = s.qe.sqs := by
  refine foldl_keeps (fun s => s.qe.sqs) (fun s fn => ?_) _ s
  split <;> rfl

/-- The guarantee is no concern of the engines and the submission queues. -/
theorem State.evalGuarantee_eng_sqs (s : State) : s.evalGuarantee.eng = s.eng ∧ s.evalGuarantee.qe.sqs = s.qe.sqs := by
  unfold State.evalGuarantee
  dsimp only
  split
  · exact ⟨rfl, rfl⟩
  · split
    · exact ⟨rfl, rfl⟩
    · rw [State.postEventAll_sqs, State.postEventAll_only]
      exact ⟨rfl, rfl⟩

theorem State.evalGuarantee_crew (s : State) (k : Nat) : s.evalGuarantee.crew k = s.crew k := by
  rw [State.crew, s.evalGuarantee_eng_sqs.1]
  rfl

theorem State.evalGuarantee_sq (s : State) (n : Nat) : s.evalGuarantee.sq n = s.sq n := by
  rw [State.sq, s.evalGuarantee_eng_sqs.2]
  rfl

/-- A table after a put, at its key and at every other one. -/
theorem Tbl.find_put_only {α : Type} (t : Tbl α) (k : Nat) (a : α) : (t.put k a).find k = some a ∧ ∀ j, j ≠ k → (t.put k a).find j = t.find j :=
  ⟨(Tbl.find_put ..).trans (if_pos rfl), fun _ hj => (Tbl.find_put ..).trans (if_neg hj)⟩

/-- A table after a deletion, at its key and at every other one. -/
theorem Tbl.find_del_only {α : Type} (t : Tbl α) (k : Nat) : (t.del k).find k = none ∧ ∀ j, j ≠ k → (t.del k).find j = t.find j :=
  ⟨(Tbl.find_del ..).trans (if_pos rfl), fun _ hj => (Tbl.find_del ..).trans (if_neg hj)⟩

/-- Settles O46: what creates, deletes and binds puts its queue or crew at its number, and changes no other. -/
theorem queuesAreCreatedAndDeleted : Obligations.QueuesAreCreatedAndDeleted := by
  intro r s
  obtain ⟨sqNew, sqOthers⟩ := Tbl.find_put_only s.qe.sqs (r.h 8) (newSq r)
  obtain ⟨cqNew, cqOthers⟩ := Tbl.find_put_only s.qe.cqs (r.h 8) (newCq r)
  obtain ⟨sqGone, sqLeft⟩ := Tbl.find_del_only s.qe.sqs (r.h 8)
  obtain ⟨cqGone, cqLeft⟩ := Tbl.find_del_only s.qe.cqs (r.h 8)
  obtain ⟨crewNew, crewOthers⟩ := Tbl.find_put_only s.eng.crews (r.b 8) (newCrew (s.clearWeights (r.b 8)) r)
  refine ⟨⟨_, rfl, rfl, sqOthers, sqNew, rfl, rfl, rfl, rfl, rfl, rfl⟩, ⟨_, rfl, rfl, cqOthers, cqNew, rfl, rfl, rfl, rfl, rfl⟩,
    ⟨_, rfl, rfl, sqLeft, sqGone⟩, ⟨_, rfl, rfl, cqLeft, cqGone⟩, ⟨_, rfl, ?_, fun k hk => ?_⟩, fun q hq => ⟨_, rfl, ?_, fun n hn => ?_⟩⟩
  · rw [State.evalGuarantee_crew]
    exact crewNew
  · rw [State.evalGuarantee_crew]
    exact crewOthers k hk
  · rw [State.evalGuarantee_sq, State.updSq_sq_same, hq]
    rfl
  · rw [State.evalGuarantee_sq, State.updSq_sq_other _ _ _ _ hn]

/-! ## The one-time programmable memory (R403 to R407) -/

/-- What the own checks of a command find where all its checks find nothing. -/
theorem State.verdict_none {s : State} {c : Cmd} {r : Req} {readable : Bool} (h : s.verdict c r readable = none) :
    c.inRange r readable = true ∧ c.check s r = none := by
  unfold State.verdict at h
  split at h
  · cases h
  · split at h
    · cases h
    · split at h
      · cases h
      · exact ⟨by simpa using ‹¬(!c.inRange r readable) = true›, h⟩

theorem failIf_none {b : Bool} {st : BitVec 16} (h : failIf b st = none) : b = false := by
  cases b
  · rfl
  · cases h

/-- A root slot after its entry is put, and every other one. -/
theorem State.rootAt_put (s : State) (k : Nat) (x : Root) (j : Nat) :
    ({ s with otp := { s.otp with roots := s.otp.roots.put k x } } : State).rootAt j = if j = k then x else s.rootAt j := Tbl.get_put ..

/-- Settles O47: the keyholders' commands write their slot, their floor, and nothing else. -/
theorem keyholdersWriteOtp : Obligations.KeyholdersWriteOtp := by
  refine fun r s => ⟨fun h => ?_, ⟨_, rfl, rfl, ?_, fun k hk => ?_⟩, fun h => ?_, fun hf ht => if_pos ⟨hf, ht⟩, fun h => if_neg ?_, fun h => ?_⟩
  · obtain ⟨range, check⟩ := State.verdict_none h
    have slot : (decide (r.b 9 ≤ 1) && decide (2 ≤ r.b 10) && decide (r.b 10 ≤ 3)) = true := (Bool.and_eq_true_iff.1 (Bool.and_eq_true_iff.1 range).1).2
    simp only [Bool.and_eq_true, decide_eq_true_eq] at slot
    obtain ⟨⟨-, low⟩, high⟩ := slot
    refine ⟨_, rfl, rfl, failIf_none check, low, high, ?_, ?_, fun k hk => (State.rootAt_put ..).trans (if_neg hk)⟩ <;>
      rw [State.rootAt_put, if_pos rfl]
  · exact (State.rootAt_put ..).trans (if_pos rfl)
  · exact (State.rootAt_put ..).trans (if_neg hk)
  · have check : (decide (64 < r.w 12) || decide (r.w 12 < s.rollbackFloor)) = false := failIf_none (State.verdict_none h).2
    simp only [Bool.or_eq_false_iff, decide_eq_false_iff_not, Nat.not_lt] at check
    obtain ⟨high, low⟩ := check
    have floor : (s.raiseFloor (r.w 12)).psv.mc.get 0 0 = r.w 12 := (Tbl.get_put ..).trans (if_pos rfl)
    have fuses : s.otp.fuses ≤ r.w 12 := Nat.le_trans (Nat.le_max_left _ _) low
    refine ⟨_, rfl, low, high, ?_, floor, fun k hk => (Tbl.find_put ..).trans (if_neg hk), rfl, rfl⟩
    rw [State.rollbackFloor, floor, Nat.min_eq_left high]
    exact Nat.max_eq_right fuses
  · rintro ⟨hf, ht⟩
    rcases h with h | h
    · omega
    · exact Bool.false_ne_true (h.symm.trans ht)
  · have low : decide (r.w 12 < s.otp.vaultFloors.get (r.b 9) 0) = false := failIf_none (State.verdict_none h).2
    simp only [decide_eq_false_iff_not, Nat.not_lt] at low
    have floor : (s.otp.vaultFloors.put (r.b 9) (r.w 12)).get (r.b 9) 0 = r.w 12 := (Tbl.get_put ..).trans (if_pos rfl)
    exact ⟨_, rfl, Nat.le_trans low (Nat.le_of_eq floor.symm), floor, fun k hk => (Tbl.find_put ..).trans (if_neg hk), rfl⟩

end Sys2Proof.Machine

/-! SUPPORT. The state at reset. -/
namespace Sys2Proof.Machine

/-! ## The state at reset -/

/-- No root slot is revoked at reset: a slot in the table is made unrevoked, and one that is not has the default. -/
theorem reset_rootAt_revoked (k : Nat) : (State.reset.rootAt k).revoked = false := by
  change (Tbl.get (([0, 1, 4, 5] : List Nat).map fun k => (k, ({ hash := Config.vendorRoot k, programmed := true, revoked := false } : Root))) k _).revoked = false
  simp only [List.map, Tbl.get, Tbl.find]
  repeat' split
  all_goals rfl

/-- Settles O56: the tables of the reset state are empty but for the vendor's root slots. -/
theorem resetState : Obligations.ResetState := by
  refine ⟨rfl, rfl, fun _ => rfl, fun _ => rfl, fun _ => rfl, fun _ => rfl, fun _ => rfl, fun _ => rfl, rfl, reset_rootAt_revoked, fun k hk => ?_⟩
  simp only [List.mem_cons, List.not_mem_nil, or_false] at hk
  rcases hk with rfl | rfl | rfl | rfl <;> exact ⟨rfl, rfl⟩
end Sys2Proof.Machine

/-! SUPPORT. Events of the local ports. -/
namespace Sys2Proof.Machine

/-! ## Events of the local ports -/

theorem State.updDreq_same (s : State) (n : Nat) (f : Dreq → Dreq) : (s.updDreq n f).dreq n = f (s.dreq n) := (Tbl.get_mod ..).trans (if_pos rfl)

theorem State.updDreq_other (s : State) {n j : Nat} (f : Dreq → Dreq) (h : j ≠ n) : (s.updDreq n f).dreq j = s.dreq j := (Tbl.get_mod ..).trans (if_neg h)

theorem State.updUart_same (s : State) (n : Nat) (f : Uart → Uart) : (s.updUart n f).uart n = f (s.uart n) := (Tbl.get_mod ..).trans (if_pos rfl)

theorem State.updUart_other (s : State) {n j : Nat} (f : Uart → Uart) (h : j ≠ n) : (s.updUart n f).uart j = s.uart j := (Tbl.get_mod ..).trans (if_neg h)

/-- An update of a mover channel is what it makes of the channel as it stands. -/
theorem State.updMvCh_congr (s : State) (m c : Nat) {f g : MvCh → MvCh} (h : f (s.mvCh m c) = g (s.mvCh m c)) : s.updMvCh m c f = s.updMvCh m c g := by
  have chan : (s.mover m).updChan c f = (s.mover m).updChan c g := congrArg (fun x => { s.mover m with chans := (s.mover m).chans.put c x }) h
  exact congrArg (fun x => { s with mv := { s.mv with movers := s.mv.movers.put m x } }) chan

/-- A channel that a request has reached: one more is pending, and beyond 15 it is dropped and counted. -/
def MvCh.requested (c : MvCh) : MvCh :=
  if 15 ≤ c.pending then { c with reqOvr := true, drops := satAdd 32 c.drops 1 } else { c with pending := c.pending + 1 }

/-- A request on a bound line reaches its channel, and a burst may start. -/
theorem dreqRequest_bound {n : Nat} {s : State} (h : (s.dreq n).bound = true) :
    let u := s.updDreq n (fun d => { d with level := true })
    let m := (s.dreq n).mover
    let c := (s.dreq n).channel
    exec (.dreqRequest n) s = .next (((u.setsIf (decide (15 ≤ (u.mvCh m c).pending)) (0x500100 + 0x2000 * m + 0x80 * c) 20).updMvCh m c
      MvCh.requested).startBurst m c) := by
  change execDreqRequest n s = _
  simp only [execDreqRequest, h, if_true]
  rfl

/-- A request on an unbound line completes the WAIT that began first. -/
theorem dreqRequest_wakes {n e : Nat} {s : State} (h : (s.dreq n).bound = false)
    (he : (s.updDreq n (fun d => { d with level := true })).firstWaiter (fun k => decide (k = .dreq n)) = some e) :
    exec (.dreqRequest n) s = .next ((s.updDreq n (fun d => { d with level := true })).finishWait e true) := by
  change execDreqRequest n s = _
  simp only [execDreqRequest, h, Bool.false_eq_true, if_false, he]

/-- A request on an unbound line that no WAIT waits for is kept. -/
theorem dreqRequest_kept {n : Nat} {s : State} (h : (s.dreq n).bound = false)
    (hn : (s.updDreq n (fun d => { d with level := true })).firstWaiter (fun k => decide (k = .dreq n)) = none) :
    exec (.dreqRequest n) s = .next ((s.updDreq n (fun d => { d with level := true })).updDreq n (fun d => { d with pending := min 15 (d.pending + 1) })) := by
  change execDreqRequest n s = _
  simp only [execDreqRequest, h, Bool.false_eq_true, if_false, hn]

/-- A byte that a UART receives, where its port is no sideband. -/
theorem uartRxByte_takes {n : Nat} (b : Byte) {s : State} (h : s.lpc.sbCfg.getLsbD n = false) :
    exec (.uartRxByte n b) s = .next (s.updUart n (fun u =>
      if 256 ≤ u.rx.length then { u with overrun := true, attention := true, lastAt := s.tick }
      else { u with rx := u.rx ++ [b], lastAt := s.tick })) := by
  change execUartRxByte n b s = _
  rw [execUartRxByte, occurs_true (by rw [h]; rfl)]

/-- A GPIO line that changes is seen; an enabled, selected edge of an input is noted and raises its vector. -/
theorem gpioEdge_changes {line : Nat} {high : Bool} {s : State} (h : s.lpc.gpioIn.getLsbD (line % 32) ≠ high) :
    let k := line % 32
    let bit : W32 := BitVec.ofNat 32 (2 ^ k)
    let u := { s with lpc := { s.lpc with gpioIn := if high then s.lpc.gpioIn ||| bit else s.lpc.gpioIn &&& ~~~ bit } }
    exec (.gpioEdge line high) s = .next (if s.lpc.gpioDir.getLsbD k = false ∧ s.lpc.gpioIrqEn.getLsbD k = true ∧ edgeSelected (fld s.lpc.gpioCfg 16 2) high = true then
        (({ u with lpc := { u.lpc with gpioStatus := s.lpc.gpioStatus ||| bit, gpioAttention := true } } : State).sets 0xF82014 k).sendMsix
          (fld s.lpc.gpioCfg 8 3) (fld s.lpc.gpioCfg 0 8)
      else u) := by
  intro k bit u
  change execGpioEdge line high s = _
  simp only [execGpioEdge]
  rw [occurs_true (decide_eq_true h)]
  simp only [Bool.and_eq_true, Bool.not_eq_true', and_assoc]
  rfl

theorem ppsOutPulse_rises {s : State} (h : s.lpc.ppsCfg.getLsbD 16 = true ∧ s.now % 1000000000 < 11 ∧ s.lpc.ppsAt ≠ some (s.now / 1000000000)) :
    exec .ppsOutPulse s = .next (({ s with lpc := { s.lpc with ppsAt := some (s.now / 1000000000), ppsUp := some s.tick } } : State).drive (.pps true)) := by
  change execPpsOutPulse s = _
  obtain ⟨on, second, once⟩ := h
  simp only [execPpsOutPulse, on, second, once, decide_true, Bool.and_true, if_true, ne_eq, not_false_eq_true]

/-- Between the seconds the PPS output falls after its width, where it is up. -/
theorem ppsOutPulse_falls {s : State} {t : Nat} (h : ¬ (s.lpc.ppsCfg.getLsbD 16 = true ∧ s.now % 1000000000 < 11 ∧ s.lpc.ppsAt ≠ some (s.now / 1000000000)))
    (ht : s.lpc.ppsUp = some t) :
    exec .ppsOutPulse s = occurs s (s.passedMs t (fld s.lpc.ppsCfg 0 16)) (fun s => ({ s with lpc := { s.lpc with ppsUp := none } } : State).drive (.pps false)) := by
  change execPpsOutPulse s = _
  simp only [execPpsOutPulse]
  rw [if_neg (by simpa only [Bool.and_eq_true, decide_eq_true_eq, and_assoc] using h), ht]

theorem ppsOutPulse_low {s : State} (h : ¬ (s.lpc.ppsCfg.getLsbD 16 = true ∧ s.now % 1000000000 < 11 ∧ s.lpc.ppsAt ≠ some (s.now / 1000000000)))
    (hn : s.lpc.ppsUp = none) : exec .ppsOutPulse s = .next s := by
  change execPpsOutPulse s = _
  simp only [execPpsOutPulse]
  rw [if_neg (by simpa only [Bool.and_eq_true, decide_eq_true_eq, and_assoc] using h), hn]

/-- Settles O53: each event of a request line, a UART, the GPIO port and the PPS output. -/
theorem localPortEvents : Obligations.LocalPortEvents := by
  refine ⟨fun n s => ⟨fun h => ⟨fun room => ?_, fun full => ?_⟩, fun h => ⟨fun e he => ?_, fun hn => ?_⟩, ?_⟩, fun n b s => ⟨fun h => ?_, fun h => ?_⟩,
    fun line high s => ⟨fun h => ?_, fun h => ⟨fun noted => ?_, fun noted => ?_⟩⟩, fun s => ⟨ppsOutPulse_rises, fun h => ⟨fun hn => ?_, fun t ht => ⟨fun hp => ?_, fun hp => ?_⟩⟩⟩⟩
  · refine (dreqRequest_bound h).trans ?_
    rw [decide_eq_false (Nat.not_le.2 room), State.setsIf, if_neg Bool.false_ne_true]
    exact congrArg (fun t : State => Host.Outcome.next (t.startBurst _ _)) (State.updMvCh_congr _ _ _ (if_neg (Nat.not_le.2 room)))
  · refine (dreqRequest_bound h).trans ?_
    rw [decide_eq_true full, State.setsIf, if_pos rfl]
    exact congrArg (fun t : State => Host.Outcome.next (t.startBurst _ _)) (State.updMvCh_congr _ _ _ (if_pos full))
  · exact dreqRequest_wakes h he
  · refine ⟨_, dreqRequest_kept h hn, ?_, fun j hj => ?_, rfl⟩
    · rw [State.updDreq_same, State.updDreq_same]
    · rw [State.updDreq_other _ _ hj, State.updDreq_other _ _ hj]
  · exact ⟨_, rfl, State.updDreq_same .., fun j hj => State.updDreq_other _ _ hj, rfl⟩
  · change execUartRxByte n b s = _
    rw [execUartRxByte, occurs_false (by rw [h]; rfl)]
  · refine ⟨_, uartRxByte_takes b h, fun j hj => State.updUart_other _ _ hj, rfl, fun room => ?_, fun full => ?_⟩
    · exact (State.updUart_same ..).trans (if_neg (by omega))
    · exact (State.updUart_same ..).trans (if_pos full)
  · change execGpioEdge line high s = _
    rw [execGpioEdge, occurs_false (decide_eq_false (Classical.not_not.2 h))]
  · exact (gpioEdge_changes h).trans (congrArg Host.Outcome.next (if_neg noted))
  · exact (gpioEdge_changes h).trans (congrArg Host.Outcome.next (if_pos noted))
  · exact ppsOutPulse_low h hn
  · exact (ppsOutPulse_falls h ht).trans (occurs_true hp _)
  · exact (ppsOutPulse_falls h ht).trans (occurs_false hp _)

end Sys2Proof.Machine

/-! SUPPORT. CONTROL orders. -/
namespace Sys2Proof.Machine

/-! ## CONTROL orders -/

/-- The bit of DEVSTAT that shows a port's attention (R99). -/
def State.attentionBit (s : State) (port : Nat) : Byte := if s.attention port then 0x08 else 0

section
variable {e n k : Nat} {x : Xfer} {s : State} {p : Prog} {w : Ccw} {port : Nat → Option Nat} {operand : Bool}
  {busy : Nat → State → Bool} {act : Nat → Ccw → State → Byte × State}

/-- A delivered CONTROL word of the order, of a port of the kind, whose checks find nothing. -/
structure Ordered (s : State) (e k n : Nat) (port : Nat → Option Nat) (operand : Bool) (p : Prog) (w : Ccw) : Prop where
  delivered : Delivered s e p [w]
  opc : w.opc = 0x40
  space : w.space.toNat = spPort
  port : port w.port = some n
  sub : w.sub.toNat = k
  checks : s.orderChecks p w operand = none

/-- A CONTROL word whose checks find nothing has its effect on its port. -/
theorem Ordered.orderWord (o : Ordered s e k n port operand p w) :
    s.orderWord e k port operand x busy act = .next (s.orderEffect e x busy act w n) := by
  obtain ⟨run, ph, ho, -, -⟩ := o.delivered
  have taken : (decide (w.opc = 0x40) && decide (w.space.toNat = spPort) && (port w.port).isSome && decide (w.sub.toNat = k)) = true := by
    simp only [o.opc, o.space, o.port, o.sub, decide_true, Option.isSome_some, Bool.and_true]
  refine (State.atWord_taken (p := p) (w := w) (ws := []) run (.inl ph) ho taken _).trans ?_
  simp only [o.port]
  exact State.checked_none o.delivered _ _ o.checks

/-- A busy port shows BUSY, and the order has no effect. -/
theorem Ordered.showsBusy (o : Ordered s e k n port operand p w) (h : (x.busy || busy n s) = true) :
    s.orderWord e k port operand x busy act = .next (s.orderDone e (0x10 ||| s.attentionBit w.port)) := by
  rw [o.orderWord, State.orderEffect, if_pos h, BitVec.or_assoc]
  rfl

/-- A port that is not busy takes the order, and shows the device end that it makes. -/
theorem Ordered.acts (o : Ordered s e k n port operand p w) (h : (x.busy || busy n s) = false) :
    s.orderWord e k port operand x busy act = .next ((act n w s).2.orderDone e ((act n w s).1 ||| s.attentionBit w.port)) := by
  rw [o.orderWord, State.orderEffect, if_neg (by rw [h]; exact Bool.false_ne_true), BitVec.or_assoc]
  rfl

/-- An order that shows nothing of its own. -/
theorem Ordered.done (o : Ordered s e k n port operand p w) (h : (x.busy || busy n s) = false) {t : State} (ht : act n w s = (0, t)) :
    s.orderWord e k port operand x busy act = .next (t.orderDone e (s.attentionBit w.port)) := by
  rw [o.acts h, ht]
  exact congrArg (fun b => Host.Outcome.next (t.orderDone e b)) BitVec.zero_or

/-- An order of a port that only a transfer keeps busy. -/
theorem Ordered.unlessBusy (o : Ordered s e k n port operand p w) {t : State} (ht : act n w s = (0, t)) :
    s.orderWord e k port operand x notBusy act = if x.busy then .next (s.orderDone e (0x10 ||| s.attentionBit w.port))
      else .next (t.orderDone e (s.attentionBit w.port)) := by
  cases hb : x.busy
  · exact o.done (by rw [hb]; rfl) ht
  · exact o.showsBusy (by rw [hb]; rfl)

end

/-- Settles O54: each order of Table 11.9 on a port that takes it, and on a busy one. -/
theorem controlOrdersAct : Obligations.ControlOrdersAct := by
  intro e n x s p w d opc space plain att busy
  have sub : ∀ k : Nat, k < 256 → w.sub = BitVec.ofNat _ k → w.sub.toNat = k := fun k hk h => by
    rw [h, BitVec.toNat_ofNat, Nat.mod_eq_of_lt hk]
  have xt : xtOf w.port = some n → plain → ∀ k < 256, w.sub = BitVec.ofNat _ k → Ordered s e k n xtOf false p w :=
    fun hp hc k hk hs => ⟨d, opc, space, hp, sub k hk hs, hc⟩
  have gpio : w.port = 0x40 → s.orderChecks p w true = none → ∀ k < 256, w.sub = BitVec.ofNat _ k → Ordered s e k 0 gpioPort true p w :=
    fun hp hc k hk hs => ⟨d, opc, space, if_pos hp, sub k hk hs, hc⟩
  have fp : fpOf w.port = some n → plain → ∀ k < 256, w.sub = BitVec.ofNat _ k → Ordered s e k n fpOf false p w :=
    fun hp hc k hk hs => ⟨d, opc, space, hp, sub k hk hs, hc⟩
  refine ⟨fun hp hc => ⟨fun hs hb free => ?_, fun hs hb => ?_, fun hs => ?_, fun hs => ?_⟩, fun hp hc hs => ?_,
    fun hp hc hb still => ⟨fun hs => ?_, fun hs hv => ?_, fun hs hv => ?_, fun hs => ?_⟩, fun hp hc hb => ?_,
    fun hp hc hs => ?_, fun hp hc hs => ?_, fun hp hc => ⟨fun hs => ?_, fun hs => ?_, fun hs => ?_⟩⟩
  · exact (fp hp hc 1 (by decide) hs).done (by rw [hb, free]; rfl) rfl
  · exact (fp hp hc 1 (by decide) hs).showsBusy (Bool.or_eq_true_iff.2 hb)
  · exact (fp hp hc 2 (by decide) hs).unlessBusy rfl
  · exact (fp hp hc 3 (by decide) hs).unlessBusy rfl
  · refine (Ordered.unlessBusy ⟨d, opc, space, hp, sub 1 (by decide) hs, hc⟩ rfl).trans ?_
    rw [apply_ite (fun t : State => t.orderDone e (s.attentionBit w.port))]
    rfl
  · exact (xt hp hc 1 (by decide) hs).done (by rw [hb, xtBusy, still]; rfl) rfl
  · exact (xt hp hc 2 (by decide) hs).done (by rw [hb, xtBusy, still]; rfl) (if_pos hv)
  · refine ((xt hp hc 2 (by decide) hs).acts (by rw [hb, xtBusy, still]; rfl)).trans ?_
    rw [if_neg (by rw [hv]; exact Bool.false_ne_true)]
    rfl
  · exact (xt hp hc 3 (by decide) hs).done (by rw [hb, xtBusy, still]; rfl) rfl
  · have shows : (x.busy || xtBusy n s) = true := Bool.or_eq_true_iff.2 hb
    exact ⟨fun hs => (xt hp hc 1 (by decide) hs).showsBusy shows, fun hs => (xt hp hc 2 (by decide) hs).showsBusy shows,
      fun hs => (xt hp hc 3 (by decide) hs).showsBusy shows⟩
  · exact Ordered.unlessBusy ⟨d, opc, space, hp, sub 1 (by decide) hs, hc⟩ rfl
  · exact Ordered.unlessBusy ⟨d, opc, space, hp, sub 1 (by decide) hs, hc⟩ rfl
  · exact (gpio hp hc 0x10 (by decide) hs).unlessBusy rfl
  · exact (gpio hp hc 0x11 (by decide) hs).unlessBusy rfl
  · exact (gpio hp hc 0x12 (by decide) hs).unlessBusy rfl

end Sys2Proof.Machine

/-! SUPPORT. Resets, links and the debug halt. -/
namespace Sys2Proof.Machine

/-! ## Resets and links of the host ports -/

theorem State.updHport_same (s : State) (k : Nat) (f : HPort → HPort) : (s.updHport k f).hport k = f (s.hport k) := (Tbl.get_mod ..).trans (if_pos rfl)

theorem State.updHport_other (s : State) {k j : Nat} (f : HPort → HPort) (h : j ≠ k) : (s.updHport k f).hport j = s.hport j := (Tbl.get_mod ..).trans (if_neg h)

theorem State.updHfn_same (s : State) (k : Nat) (f : Fn → Fn) : (s.updHfn k f).hfn k = f (s.hfn k) := (Tbl.get_mod ..).trans (if_pos rfl)

theorem State.updHfn_other (s : State) {k j : Nat} (f : Fn → Fn) (h : j ≠ k) : (s.updHfn k f).hfn j = s.hfn j := (Tbl.get_mod ..).trans (if_neg h)

/-- A part that is unpowered, or in Quench or Hold, resets no function. -/
theorem State.functionReset_not {s : State} {k : Nat} (h : s.powered = false ∨ s.inMode [.quench, .hold] = true) : s.functionReset k = s := by
  refine if_pos ?_
  rcases h with h | h <;> simp only [h, Bool.not_false, Bool.true_or, Bool.or_true]

theorem State.functionReset_does {s : State} (k : Nat) (power : s.powered = true) (mode : s.inMode [.quench, .hold] = false) :
    s.functionReset k = if s.fcs.fencedFns.contains k then s.updHfn k (fun f => { f with resetting := true }) else s.resetFunction k :=
  if_neg (by rw [power, mode]; exact Bool.false_ne_true)

theorem flr_runs {k : Nat} (s : State) (h : k < 8) : exec (.flr k) s = .next (s.functionReset k) := by
  change execFlr k s = _
  rw [execFlr, occurs_true (decide_eq_true h)]

theorem flr_not {k : Nat} {s : State} (h : 8 ≤ k ∨ s.powered = false ∨ s.inMode [.quench, .hold] = true) : exec (.flr k) s = .next s := by
  change execFlr k s = _
  by_cases hk : k < 8
  · rw [execFlr, occurs_true (decide_eq_true hk), State.functionReset_not (h.resolve_left (by omega))]
  · rw [execFlr, occurs_false (decide_eq_false hk)]

theorem portReset_runs {k : Nat} {s : State} (h : k < 2) (power : s.powered = true) :
    exec (.portReset k) s = .next (((((s.updHport k (fun p => { HPort.reset with linkCfg := p.linkCfg, perst := true })).functionReset
      (4 * k)).functionReset (4 * k + 1)).functionReset (4 * k + 2)).functionReset (4 * k + 3)) := by
  change execPortReset k s = _
  rw [execPortReset, occurs_true (by rw [decide_eq_true h, power]; rfl)]
  rfl

theorem portReset_not {k : Nat} {s : State} (h : 2 ≤ k ∨ s.powered = false) : exec (.portReset k) s = .next s := by
  change execPortReset k s = _
  rw [execPortReset, occurs_false]
  rcases h with h | h
  · rw [decide_eq_false (Nat.not_lt.2 h), Bool.false_and]
  · rw [h, Bool.and_false]

/-- With no request in flight over the link, its loss is all. -/
theorem State.linkLost_idle {s : State} {k : Nat} (h : s.onLink k = [])
    (bar : s.engsWith (fun p => decide (p.phase = .bar) && decide (portOf p.fn = k)) = []) : s.linkLost k = s := by
  simp only [State.linkLost, h, List.foldl_nil, bar]

/-- A link that comes up is up within what its configuration allows, and no other port changes. -/
theorem dlUp_comes (k : Nat) (s : State) : ∃ t, exec (.dlUp k) s = .next t ∧ (t.hport k).dlUp = true ∧ (t.hport k).perst = false
    ∧ (t.hport k).gen ≤ fld (s.hport k).linkCfg 0 4 ∧ (t.hport k).width ≤ fld (s.hport k).linkCfg 8 4 ∧ (∀ j, j ≠ k → t.hport j = s.hport j)
    ∧ t = { s with hpc := { s.hpc with ports := t.hpc.ports }, free := t.free } := by
  refine ⟨_, rfl, ?_, ?_, ?_, ?_, fun j hj => State.updHport_other _ _ hj, rfl⟩
  all_goals rw [State.updHport_same]
  · exact Nat.min_le_right ..
  · exact Nat.min_le_right ..

/-! ## The masks of the message vectors -/

/-- A function with the mask of one vector changed. -/
def Fn.mask (f : Fn) (v : Nat) (m : Bool) : Fn := { f with vecs := f.vecs.mod v (0, 0, true) (fun x => (x.1, x.2.1, m)) }

theorem Fn.mask_same (f : Fn) (v : Nat) (m : Bool) : (f.mask v m).masked v = m := by
  rw [Fn.masked, Fn.mask, Tbl.get_mod, if_pos rfl]

theorem Fn.mask_other (f : Fn) {v j : Nat} (m : Bool) (h : j ≠ v) : (f.mask v m).masked j = f.masked j := by
  rw [Fn.masked, Fn.mask, Tbl.get_mod, if_neg h, Fn.masked]

/-- A vector that has no pending bit is unmasked, and that is all. -/
theorem msixUnmask_quiet {k v : Nat} {s : State} (h : (s.hfn k).pba.contains v = false) : exec (.msixUnmask k v) s = .next (s.updHfn k (·.mask v false)) := by
  change Host.Outcome.next (s.maskVec k v false) = _
  have pba : ((s.updHfn k (·.mask v false)).hfn k).pba.contains v = false := by rw [State.updHfn_same]; exact h
  exact congrArg Host.Outcome.next (if_neg (fun hp => Bool.false_ne_true (pba.symm.trans hp)))

/-- A message that nothing holds goes out. -/
theorem State.sendMsix_sends {s : State} {k v : Nat} (en : (s.hfn k).msixEn = true) (free : (s.hfn k).fmask = false) (unmasked : (s.hfn k).masked v = false)
    (issue : s.canIssue k = true) : s.sendMsix k v = s.drive (.msix k v) :=
  if_pos (by simp only [en, free, unmasked, issue, Bool.not_false, Bool.and_true])

/-- The part with a vector unmasked and its pending bit taken away. -/
def State.unmask (s : State) (k v : Nat) : State := (s.updHfn k (·.mask v false)).updHfn k (fun f => { f with pba := f.pba.erase v })

theorem State.unmask_same (s : State) (k v : Nat) : (s.unmask k v).hfn k = { (s.hfn k).mask v false with pba := (s.hfn k).pba.erase v } := by
  rw [State.unmask, State.updHfn_same, State.updHfn_same]
  rfl

theorem State.unmask_other (s : State) {k j : Nat} (v : Nat) (h : j ≠ k) : (s.unmask k v).hfn j = s.hfn j :=
  (State.updHfn_other _ _ h).trans (State.updHfn_other _ _ h)

theorem State.unmask_canIssue (s : State) (k v : Nat) : (s.unmask k v).canIssue k = s.canIssue k := by
  rw [State.canIssue, State.unmask_same]
  rfl

/-- One that has a pending bit and may send sends its message, and has the bit no more. -/
theorem msixUnmask_sends {k v : Nat} {s : State} (h : (s.hfn k).pba.contains v = true) (en : (s.hfn k).msixEn = true) (free : (s.hfn k).fmask = false)
    (issue : s.canIssue k = true) : exec (.msixUnmask k v) s = .next ((s.unmask k v).drive (.msix k v)) := by
  have pba : ((s.updHfn k (·.mask v false)).hfn k).pba.contains v = true := by rw [State.updHfn_same]; exact h
  have sends : (s.unmask k v).sendMsix k v = (s.unmask k v).drive (.msix k v) := by
    refine State.sendMsix_sends ?_ ?_ ?_ ((s.unmask_canIssue k v).trans issue)
    all_goals rw [State.unmask_same]
    · exact en
    · exact free
    · exact Fn.mask_same ..
  exact congrArg Host.Outcome.next ((if_pos pba).trans sends)

/-! ## The debug halt -/

theorem State.updTimer_same (s : State) (k : Nat) (f : Timer → Timer) : (s.updTimer k f).timer k = f (s.timer k) := (Tbl.get_mod ..).trans (if_pos rfl)

theorem State.updTimer_other (s : State) {k j : Nat} (f : Timer → Timer) (h : j ≠ k) : (s.updTimer k f).timer j = s.timer j := (Tbl.get_mod ..).trans (if_neg h)

/-- One timer after a halt of `ns`: the compare value of a frozen one has moved by it. -/
def State.unfreezeTimer (ns : Nat) (s : State) (k : Nat) : State :=
  if (s.timer k).ctrl.getLsbD 2 then s else s.updTimer k (fun x => { x with cmp := x.cmp + BitVec.ofNat 64 ns })

/-- A timer whose compare value has moved by `ns`, where it freezes in a halt. -/
def Timer.moved (x : Timer) (ns : Nat) : Timer := if x.ctrl.getLsbD 2 then x else { x with cmp := x.cmp + BitVec.ofNat 64 ns }

theorem State.unfreezeTimer_timer (ns : Nat) (s : State) (k j : Nat) : (s.unfreezeTimer ns k).timer j = if j = k then (s.timer j).moved ns else s.timer j := by
  unfold State.unfreezeTimer Timer.moved
  by_cases hj : j = k
  · subst hj
    split
    · exact (if_pos rfl).symm
    · exact (State.updTimer_same ..).trans (if_pos rfl).symm
  · rw [if_neg hj]
    split
    · rfl
    · exact State.updTimer_other _ _ hj

/-- The first `n` timers have moved, where they freeze in a halt. -/
theorem unfreezeTimers_timer (ns : Nat) (s : State) (n k : Nat) :
    ((List.range n).foldl (State.unfreezeTimer ns) s).timer k = if k < n then (s.timer k).moved ns else s.timer k := by
  induction n with
  | zero => rfl
  | succ n ih =>
    rw [List.range_succ, List.foldl_append, List.foldl_cons, List.foldl_nil, State.unfreezeTimer_timer, ih]
    by_cases hk : k = n
    · subst hk
      rw [if_pos rfl, if_neg (Nat.lt_irrefl k), if_pos (Nat.lt_succ_self k)]
    · rw [if_neg hk]
      exact ite_congr (propext (by omega)) (fun _ => rfl) fun _ => rfl

theorem State.tmrUnfreeze_timer (s : State) (ns k : Nat) : (s.tmrUnfreeze ns).timer k = if k < 64 then (s.timer k).moved ns else s.timer k :=
  unfreezeTimers_timer ns s 64 k

/-- The end of a halt moves timers and nothing else of theirs. -/
theorem State.tmrUnfreeze_mgp_halt (s : State) (ns : Nat) : (s.tmrUnfreeze ns).mgp = s.mgp ∧ (s.tmrUnfreeze ns).tmr.haltAt = s.tmr.haltAt := by
  constructor
  · refine foldl_keeps (fun s => s.mgp) (fun s t => ?_) _ s
    split <;> rfl
  · refine foldl_keeps (fun s => s.tmr.haltAt) (fun s t => ?_) _ s
    split <;> rfl

theorem debugHalt_halts {s : State} (full : s.tru.debugLevel = 2) (power : s.powered = true) (running : s.mgp.halted = false) :
    exec .debugHalt s = .next (({ s with mgp := { s.mgp with halted := true }, tmr := { s.tmr with haltAt := some s.tick } } : State).sendOrder .debugHalt 0xFFFF) := by
  change execDebugHalt s = _
  rw [execDebugHalt, occurs_true (by rw [decide_eq_true full, power, running]; rfl)]

theorem debugHalt_not {s : State} (h : s.tru.debugLevel ≠ 2 ∨ s.powered = false ∨ s.mgp.halted = true) : exec .debugHalt s = .next s := by
  change execDebugHalt s = _
  rw [execDebugHalt, occurs_false]
  rcases h with h | h | h
  · rw [decide_eq_false h, Bool.false_and, Bool.false_and]
  · rw [h, Bool.and_false, Bool.false_and]
  · rw [h, Bool.not_true, Bool.and_false]

theorem debugHaltEnd_none {s : State} (h : s.tmr.haltAt = none) : exec .debugHaltEnd s = .next s := by
  change execDebugHaltEnd s = _
  rw [execDebugHaltEnd, h]

/-- The part with no debug-halt order left (R151). -/
def State.dropHalt (s : State) : State :=
  { s with eng := { s.eng with
    clusters := s.eng.clusters.all (fun _ c => { c with stop := false, orders := c.orders.filter (fun o => !decide (o = Order.debugHalt)) }),
    bcast := s.eng.bcast.filter (fun b => !decide (b.order = Order.debugHalt)) } }

theorem State.dropHalt_keeps (s : State) : s.dropHalt.mgp = s.mgp ∧ s.dropHalt.tmr = s.tmr := ⟨rfl, rfl⟩

theorem State.dropHalt_bcast {s : State} {b : Bcast} (h : b ∈ s.dropHalt.eng.bcast) : b.order ≠ Order.debugHalt := by
  have kept := (List.mem_filter.1 h).2
  simpa only [Bool.not_eq_true', decide_eq_false_iff_not] using kept

/-- The end of a debug halt that began at `t0`. -/
def State.endHalt (s : State) (t0 : Nat) : State :=
  ((({ s with mgp := { s.mgp with halted := false }, tmr := { s.tmr with haltAt := none } } : State)).tmrUnfreeze (s.sinceNs t0)).dropHalt

theorem debugHaltEnd_ends {s : State} {t0 : Nat} (h : s.tmr.haltAt = some t0) : exec .debugHaltEnd s = .next (s.endHalt t0) := by
  change execDebugHaltEnd s = _
  rw [execDebugHaltEnd, h]
  rfl

theorem State.endHalt_cmp (s : State) (t0 k : Nat) : ((s.endHalt t0).timer k).cmp
    = if k < 64 ∧ (s.timer k).ctrl.getLsbD 2 = false then (s.timer k).cmp + BitVec.ofNat 64 (s.sinceNs t0) else (s.timer k).cmp := by
  have timer : (s.endHalt t0).timer k = _ := (congrArg (fun t : Tmr => t.timers.get k Timer.reset) (State.dropHalt_keeps _).2).trans (State.tmrUnfreeze_timer _ _ k)
  refine (congrArg Timer.cmp timer).trans ?_
  change (if k < 64 then (s.timer k).moved (s.sinceNs t0) else s.timer k).cmp = _
  by_cases hk : k < 64
  · rw [if_pos hk, Timer.moved]
    cases hc : (s.timer k).ctrl.getLsbD 2
    · rw [if_neg Bool.false_ne_true, if_pos ⟨hk, rfl⟩]
    · rw [if_pos rfl, if_neg (fun h => Bool.false_ne_true h.2.symm)]
  · rw [if_neg hk, if_neg (fun h => hk h.1)]

/-- Settles O48: the resets and links of the host ports, and the debug halt. -/
theorem hostPortsResetAndHalt : Obligations.HostPortsResetAndHalt := by
  refine ⟨fun k s => ⟨fun hk power mode => ⟨fun free => ?_, fun fenced => ?_⟩, flr_not, portReset_runs, portReset_not, rfl, State.linkLost_idle, dlUp_comes k s,
    fun v hv => ?_, fun v hv en free issue => ?_⟩, fun s => ⟨debugHalt_halts, debugHalt_not, debugHaltEnd_none, fun t0 ht => ?_⟩⟩
  · rw [flr_runs s hk, State.functionReset_does k power mode, if_neg (by rw [free]; exact Bool.false_ne_true)]
  · rw [flr_runs s hk, State.functionReset_does k power mode, if_pos fenced]
  · refine ⟨_, msixUnmask_quiet hv, ?_, fun j hj => State.updHfn_other _ _ hj, fun j hj => ?_, rfl⟩
    · rw [State.updHfn_same, Fn.mask_same]
    · rw [State.updHfn_same, Fn.mask_other _ _ hj]
  · refine ⟨_, msixUnmask_sends hv en free issue, rfl, ?_, fun j hj => ?_⟩
    · exact congrArg Fn.pba (s.unmask_same k v)
    · exact s.unmask_other v hj
  · refine ⟨_, debugHaltEnd_ends ht, ?_, ?_, s.endHalt_cmp t0, fun b hb => State.dropHalt_bcast hb⟩
    · exact (congrArg Mgp.halted (State.dropHalt_keeps _).1).trans (congrArg Mgp.halted (State.tmrUnfreeze_mgp_halt _ _).1)
    · exact (congrArg Tmr.haltAt (State.dropHalt_keeps _).2).trans (State.tmrUnfreeze_mgp_halt _ _).2

end Sys2Proof.Machine

/-! SUPPORT. The sideband. -/
namespace Sys2Proof.Machine

/-! ## The sideband -/

theorem sidebandPacket_deaf {port : Nat} {wire : List Byte} {s : State} (h : s.isSideband port = false ∨ s.powered = false) :
    exec (.sidebandPacket port wire) s = .next s := by
  change execSidebandPacket port wire s = _
  rw [execSidebandPacket, if_pos]
  rcases h with h | h <;> simp only [h, Bool.not_false, Bool.true_or, Bool.or_true]

section
variable {port : Nat} {wire pkt : List Byte} {s : State} (side : s.isSideband port = true) (power : s.powered = true)
include side power

/-- What carries no packet reads a reply or data. -/
theorem sidebandPacket_reads (hw : sidebandPkt port wire = none) : exec (.sidebandPacket port wire) s = .next (s.sidebandRead port wire) := by
  change execSidebandPacket port wire s = _
  simp only [execSidebandPacket, side, power, Bool.not_true, Bool.or_false, Bool.false_eq_true, if_false, hw]

variable (hw : sidebandPkt port wire = some pkt)
include hw

theorem sidebandPacket_inBoot (boot : s.inMode [.boot] = true) :
    exec (.sidebandPacket port wire) s = if s.top.bootFail then s.romRun port pkt else .next s := by
  change execSidebandPacket port wire s = _
  simp only [execSidebandPacket, side, power, Bool.not_true, Bool.or_false, Bool.false_eq_true, if_false, hw, boot, if_true]

theorem sidebandPacket_second (boot : s.inMode [.boot] = false) (held : (s.mgp.sideband.find port).isSome = true) :
    exec (.sidebandPacket port wire) s = .next (s.sidebandReply port (sidebandReq port pkt) Status.busy [] []) := by
  change execSidebandPacket port wire s = _
  simp only [execSidebandPacket, side, power, Bool.not_true, Bool.or_false, Bool.false_eq_true, if_false, hw, boot, held, if_true]

theorem sidebandPacket_free (boot : s.inMode [.boot] = false) (held : s.mgp.sideband.find port = none) (free : s.sidebandFree = true) :
    exec (.sidebandPacket port wire) s = s.sidebandRun port pkt := by
  change execSidebandPacket port wire s = _
  simp only [execSidebandPacket, side, power, Bool.not_true, Bool.or_false, Bool.false_eq_true, if_false, hw, boot, held, Option.isSome_none, free, if_true]

theorem sidebandPacket_held {t : State} (boot : s.inMode [.boot] = false) (held : s.mgp.sideband.find port = none) (free : s.sidebandFree = false)
    (alive : s.mgp.running = true ∨ s.mgp.restartAt.isSome = true) (runs : s.sidebandRun port pkt = .next t) :
    exec (.sidebandPacket port wire) s = .next { s with mgp := { s.mgp with sideband := s.mgp.sideband.put port (heldPacket s pkt) } } := by
  change execSidebandPacket port wire s = _
  simp only [execSidebandPacket, side, power, Bool.not_true, Bool.or_false, Bool.false_eq_true, if_false, hw, boot, held, Option.isSome_none, free]
  rw [if_pos (Bool.or_eq_true_iff.2 alive), runs]

theorem sidebandPacket_lost (boot : s.inMode [.boot] = false) (held : s.mgp.sideband.find port = none) (stopped : s.mgp.running = false)
    (restart : s.mgp.restartAt = none) : exec (.sidebandPacket port wire) s = .next s := by
  change execSidebandPacket port wire s = _
  have free : s.sidebandFree = false := by rw [State.sidebandFree, stopped]; rfl
  simp only [execSidebandPacket, side, power, Bool.not_true, Bool.or_false, Bool.false_eq_true, if_false, hw, boot, held, Option.isSome_none, free, stopped, restart]

end

theorem State.sidebandRun_unlisted {s : State} {port : Nat} {pkt : List Byte} (h : sidebandRow (sidebandReq port pkt) = none) :
    s.sidebandRun port pkt = .next (s.sidebandReply port (sidebandReq port pkt) Status.notPermitted [] []) := by
  simp only [State.sidebandRun, h]

section
variable {port : Nat} {pkt : List Byte} {s : State} {c : Cmd} (h : sidebandRow (sidebandReq port pkt) = some c)
include h

theorem State.sidebandRun_version (v : (sidebandReq port pkt).version ≠ 1) :
    s.sidebandRun port pkt = .next (s.sidebandReply port (sidebandReq port pkt) Status.badParam [] []) := by
  simp only [State.sidebandRun, h]
  rw [if_pos v]

variable (v : (sidebandReq port pkt).version = 1)
include v

theorem State.sidebandRun_malformed (m : c.malformed (sidebandReq port pkt) = true) : s.sidebandRun port pkt = .fault .reservedPacket := by
  simp only [State.sidebandRun, h]
  rw [if_neg (Classical.not_not.2 v), if_pos m]

variable (m : c.malformed (sidebandReq port pkt) = false)
include m

theorem State.sidebandRun_fails {st : BitVec 16} (hv : s.sidebandVerdict c (sidebandReq port pkt) = some st) :
    s.sidebandRun port pkt = .next (s.sidebandReply port (sidebandReq port pkt) st [] []) := by
  simp only [State.sidebandRun, h, m, hv, Bool.false_eq_true, if_false]
  rw [if_neg (Classical.not_not.2 v)]

variable (hv : s.sidebandVerdict c (sidebandReq port pkt) = none)
include hv

theorem State.sidebandRun_dry (d : (sidebandReq port pkt).dry = true) :
    s.sidebandRun port pkt = .next (s.sidebandReply port (sidebandReq port pkt) Status.success [] []) := by
  simp only [State.sidebandRun, h, m, hv, d, Bool.false_eq_true, if_false, if_true]
  rw [if_neg (Classical.not_not.2 v)]

theorem State.sidebandRun_acts (d : (sidebandReq port pkt).dry = false) :
    s.sidebandRun port pkt = .next ((c.apply (sidebandReq port pkt) true [] s).st.sidebandReply port (sidebandReq port pkt)
      (c.apply (sidebandReq port pkt) true [] s).status (c.apply (sidebandReq port pkt) true [] s).body (c.apply (sidebandReq port pkt) true [] s).out) := by
  simp only [State.sidebandRun, h, m, hv, d, Bool.false_eq_true, if_false]
  rw [if_neg (Classical.not_not.2 v)]

end

/-- Settles O49: what a frame on a sideband port does, and what its packet is answered. -/
theorem sidebandAnswers : Obligations.SidebandAnswers := by
  refine ⟨fun _ _ _ => sidebandPacket_deaf, fun _ _ _ => sidebandPacket_reads, fun port wire pkt s side power hw =>
    ⟨fun boot fail other => ?_, fun boot fail ident => ?_, fun boot goes => ?_, sidebandPacket_second side power hw, fun boot held =>
      ⟨sidebandPacket_free side power hw boot held, fun busy alive ⟨t, runs⟩ => sidebandPacket_held side power hw boot held busy alive runs,
        sidebandPacket_lost side power hw boot held⟩⟩,
    fun port pkt s => ⟨State.sidebandRun_unlisted, fun c hc => ⟨State.sidebandRun_version hc, State.sidebandRun_malformed hc, fun v m =>
      ⟨fun st => State.sidebandRun_fails hc v m, State.sidebandRun_dry hc v m, State.sidebandRun_acts hc v m⟩⟩⟩⟩
  · rw [sidebandPacket_inBoot side power hw boot, if_pos fail]
    exact if_neg other
  · rw [sidebandPacket_inBoot side power hw boot, if_pos fail]
    exact if_pos ident
  · rw [sidebandPacket_inBoot side power hw boot, if_neg (by rw [goes]; exact Bool.false_ne_true)]

end Sys2Proof.Machine

/-! SUPPORT. Frames and time of the Field Ports. -/
namespace Sys2Proof.Machine

/-! ## Frames of the Field Ports -/

theorem State.updFport_same (s : State) (k : Nat) (f : FPort → FPort) : (s.updFport k f).fport k = f (s.fport k) := (Tbl.get_mod ..).trans (if_pos rfl)

theorem State.updFport_other (s : State) {k j : Nat} (f : FPort → FPort) (h : j ≠ k) : (s.updFport k f).fport j = s.fport j := (Tbl.get_mod ..).trans (if_neg h)

/-- A frame of a right length with a good FCS passes the check of the port. -/
theorem frame_whole {bs : List Byte} (whole : 64 ≤ bs.length ∧ bs.length ≤ 9216 ∧ fcsOk bs = true) :
    ¬ (bs.length < 64 || decide (9216 < bs.length) || !fcsOk bs) = true := by
  obtain ⟨low, high, fcs⟩ := whole
  rw [decide_eq_false (Nat.not_lt.2 low), decide_eq_false (Nat.not_lt.2 high), fcs]
  exact Bool.false_ne_true

section
variable {k : Nat} {bs : List Byte} {s : State} (up : s.fpUp k = true)
include up

/-- A frame of a wrong length or with a bad FCS is counted. -/
theorem frameReceive_bad (h : bs.length < 64 ∨ 9216 < bs.length ∨ fcsOk bs = false) :
    exec (.frameReceive k bs) s = .next (s.updFport k (fun x => { x with fcsDrops := wrapAdd 32 x.fcsDrops 1 })) := by
  change execFrameReceive k bs s = _
  have bad : (bs.length < 64 || decide (9216 < bs.length) || !fcsOk bs) = true := by
    simpa only [Bool.or_eq_true, decide_eq_true_eq, Bool.not_eq_true', or_assoc] using h
  rw [execFrameReceive, occurs_true up, if_pos bad]

variable (whole : 64 ≤ bs.length ∧ bs.length ≤ 9216 ∧ fcsOk bs = true)
include whole

/-- A frame that the filter does not accept is dropped. -/
theorem frameReceive_filtered (h : s.fpAccepts k (bs.take (bs.length - 4)) = false) : exec (.frameReceive k bs) s = .next s := by
  change execFrameReceive k bs s = _
  rw [execFrameReceive, occurs_true up, if_neg (frame_whole whole)]
  simp only [h, Bool.not_false, if_true]

variable (accepts : s.fpAccepts k (bs.take (bs.length - 4)) = true)
include accepts

/-- A frame that no rule takes is counted. -/
theorem frameReceive_unrouted (h : (s.fport k).route (bs.take (bs.length - 4)) = none) :
    exec (.frameReceive k bs) s = .next (s.updFport k (fun x => { x with noruleDrops := wrapAdd 32 x.noruleDrops 1 })) := by
  change execFrameReceive k bs s = _
  rw [execFrameReceive, occurs_true up, if_neg (frame_whole whole)]
  simp only [accepts, Bool.not_true, Bool.false_eq_true, if_false, h]

/-- A frame that a rule takes is counted, its words enter the queue of the rule, and one not taken whole is a drop. -/
theorem frameReceive_routed {q r : Nat} (h : (s.fport k).route (bs.take (bs.length - 4)) = some (q, r)) :
    let body := bs.take (bs.length - 4)
    let all := ((frameHead k r s.tmr.time body).map (fun w => leBytes 4 w)).flatten ++ body
    let u := State.cpPushBytes q (all.length + 1) true all (s.updFport k (fun x => { x with rxFrames := wrapAdd 32 x.rxFrames 1 }))
    exec (.frameReceive k bs) s = .next (if (u.cpq q).en = false ∨ (u.cpq q).words.length = (s.cpq q).words.length + (all.length + 3) / 4 then u
      else u.updFport k (fun x => { x with cplDrops := wrapAdd 32 x.cplDrops 1 })) := by
  change execFrameReceive k bs s = _
  rw [execFrameReceive, occurs_true up, if_neg (frame_whole whole)]
  simp only [accepts, Bool.not_true, Bool.false_eq_true, if_false, h, Bool.not_eq_true']
  rfl

end

/-- The next frame leaves the wire. -/
theorem frameTransmit_sends {k : Nat} {s : State} {f : TxFrame} (h : s.nextFrame k = some f) (up : s.fpUp k = true) :
    exec (.frameTransmit k) s = .next ((s.updFport k (fun x => { x with
      tx := x.tx.erase f, txFrames := wrapAdd 32 x.txFrames 1, txTs := if f.stamp then s.tmr.time else x.txTs })).drive (.frame k (f.bytes ++ leBytes 4 (fcs32 f.bytes).toNat))) := by
  change execFrameTransmit k s = _
  simp only [execFrameTransmit, h]
  rw [occurs_true up]

theorem frameTransmit_none {k : Nat} {s : State} (h : s.nextFrame k = none) : exec (.frameTransmit k) s = .next s := by
  change execFrameTransmit k s = _
  simp only [execFrameTransmit, h]

theorem frameTransmit_down {k : Nat} {s : State} (down : s.fpUp k = false) : exec (.frameTransmit k) s = .next s := by
  cases h : s.nextFrame k with
  | none => exact frameTransmit_none h
  | some f =>
    change execFrameTransmit k s = _
    simp only [execFrameTransmit, h]
    rw [occurs_false down]

theorem frameReceive_down {k : Nat} {bs : List Byte} {s : State} (down : s.fpUp k = false) : exec (.frameReceive k bs) s = .next s := by
  change execFrameReceive k bs s = _
  rw [execFrameReceive, occurs_false down]

/-! ## Gate lists -/

theorem gateListTakeEffect_committed {k : Nat} {s : State} {g : Gcl} (h : (s.fport k).committed = some g) :
    exec (.gateListTakeEffect k) s = occurs s (decide (g.base.toNat ≤ s.now)) (fun s =>
      s.updFport k (fun x => { x with oper := g, committed := none, opIdx := 0, opAt := g.base.toNat, opCycle := g.base.toNat })) := by
  change execGateListTakeEffect k s = _
  simp only [execGateListTakeEffect, h]

theorem gateListTakeEffect_not {k : Nat} {s : State} (h : (s.fport k).committed = none ∨ ∃ g, (s.fport k).committed = some g ∧ s.now < g.base.toNat) :
    exec (.gateListTakeEffect k) s = .next s := by
  rcases h with h | ⟨g, h, early⟩
  · change execGateListTakeEffect k s = _
    simp only [execGateListTakeEffect, h]
  · exact (gateListTakeEffect_committed h).trans (occurs_false (decide_eq_false (Nat.not_le.2 early)) _)

/-- The next gate entry of a port, or the first of a new cycle. -/
def FPort.nextEntry (x : FPort) (t : Nat) : FPort :=
  if x.opIdx + 1 < x.oper.entries.length ∧ t < x.opCycle + x.oper.cycle then { x with opIdx := x.opIdx + 1, opAt := t }
  else { x with opIdx := 0, opAt := t, opCycle := t }

theorem gclIntervalEnd_not {k : Nat} {s : State} (h : (s.fport k).oper.entries = [] ∨ s.now < (s.fport k).entryEnd) : exec (.gclIntervalEnd k) s = .next s := by
  change execGclIntervalEnd k s = _
  rw [execGclIntervalEnd, occurs_false]
  rcases h with h | h
  · rw [h]
    rfl
  · rw [decide_eq_false (Nat.not_le.2 h), Bool.and_false]

theorem gclIntervalEnd_ends {k : Nat} {s : State} (some : (s.fport k).oper.entries ≠ []) (due : (s.fport k).entryEnd ≤ s.now) :
    exec (.gclIntervalEnd k) s = .next (s.updFport k (fun x => x.nextEntry (s.fport k).entryEnd)) := by
  change execGclIntervalEnd k s = _
  have listed : (s.fport k).oper.entries.isEmpty = false := List.isEmpty_eq_false_iff.2 some
  rw [execGclIntervalEnd, occurs_true (by rw [listed, decide_eq_true due]; rfl)]
  rfl

/-! ## gPTP -/

section
variable {k kind : Nat} {s : State} (up : s.fpUp k = true)
include up

theorem gptpMessage_up (v : W64) : exec (.gptpMessageReceive k kind v) s = .next (
    if kind = gptpAnnounce then (s.updFport k (fun x => { x with announce := some v })).gptpStates
    else if kind = gptpPdelayReq then (s.drive (.gptp k gptpPdelayResp)).drive (.gptp k gptpPdelayFollow)
    else if kind = gptpPdelayFollow then s.updFport k (fun x => { x with pdelay := v })
    else if (kind = gptpSync ∨ kind = gptpFollowUp) ∧ (s.fport k).gptp = 1 then s.gptpRelay k kind
    else s) := by
  change execGptpMessageReceive k kind v s = _
  rw [execGptpMessageReceive, occurs_true up]
  simp only [Bool.and_eq_true, Bool.or_eq_true, decide_eq_true_eq]

theorem gptpInterval_up : exec (.gptpIntervalTimeout k kind) s = .next (
    if kind = gptpPdelayReq then s.drive (.gptp k gptpPdelayReq)
    else if (s.fport k).gptp = 2 then
      (if kind = gptpSync then (s.drive (.gptp k gptpSync)).drive (.gptp k gptpFollowUp)
       else if kind = gptpAnnounce then s.drive (.gptp k gptpAnnounce) else s)
    else if kind = gptpAnnounce then (s.updFport k (fun x => { x with announce := none })).gptpStates
    else s) := by
  change execGptpIntervalTimeout k kind s = _
  rw [execGptpIntervalTimeout, occurs_true up]

/-- A Sync or Follow_Up is no other message. -/
theorem gptpMessage_time (v : W64) (h : kind = gptpSync ∨ kind = gptpFollowUp) :
    exec (.gptpMessageReceive k kind v) s = .next (if (s.fport k).gptp = 1 then s.gptpRelay k kind else s) := by
  rw [gptpMessage_up up v]
  rcases h with rfl | rfl <;> simp [gptpAnnounce, gptpPdelayReq, gptpPdelayFollow, gptpSync, gptpFollowUp]

/-- Messages of another kind change nothing. -/
theorem gptpMessage_other (v : W64) (h : kind = gptpPdelayResp ∨ 5 < kind) : exec (.gptpMessageReceive k kind v) s = .next s := by
  have kinds : kind ≠ gptpAnnounce ∧ kind ≠ gptpPdelayReq ∧ kind ≠ gptpPdelayFollow ∧ ¬ (kind = gptpSync ∨ kind = gptpFollowUp) := by
    simp only [gptpAnnounce, gptpPdelayReq, gptpPdelayFollow, gptpSync, gptpFollowUp, gptpPdelayResp] at *
    omega
  obtain ⟨announce, request, follow, time⟩ := kinds
  rw [gptpMessage_up up v, if_neg announce, if_neg request, if_neg follow, if_neg (fun h => time h.1)]

end

theorem gptpMessage_down {k kind : Nat} {v : W64} {s : State} (down : s.fpUp k = false) : exec (.gptpMessageReceive k kind v) s = .next s := by
  change execGptpMessageReceive k kind v s = _
  rw [execGptpMessageReceive, occurs_false down]

theorem gptpInterval_down {k kind : Nat} {s : State} (down : s.fpUp k = false) : exec (.gptpIntervalTimeout k kind) s = .next s := by
  change execGptpIntervalTimeout k kind s = _
  rw [execGptpIntervalTimeout, occurs_false down]

/-- Settles O51: frames, gate lists, links and time messages of the Field Ports. -/
theorem fieldPortsCarryFrames : Obligations.FieldPortsCarryFrames := by
  refine ⟨fun k bs s up => ⟨fun bad => ?_, fun whole => frameReceive_filtered up whole, fun whole accepts => ⟨fun none => ?_, fun q r hq => ⟨fun h => ?_, fun en h => ?_⟩⟩⟩,
    fun k s => ⟨frameTransmit_none, fun f hf up => ?_, gateListTakeEffect_not, fun g hg due => ?_, gclIntervalEnd_not, fun listed due => ?_, fun _ => rfl⟩,
    fun k kind v s up => ⟨fun h => ?_, fun h => ?_, fun h => ?_, fun h one => ?_, fun h one => ?_, gptpMessage_other up v⟩,
    fun k kind s up => ⟨fun h => ?_, fun two => ⟨fun h => ?_, fun h => ?_, fun h1 h2 h3 => ?_⟩, fun two => ⟨fun h => ?_, fun h1 h2 => ?_⟩⟩,
    fun k kind v bs s down => ?_⟩
  · exact ⟨_, frameReceive_bad up bad, State.updFport_same .., fun j hj => State.updFport_other _ _ hj, rfl⟩
  · exact ⟨_, frameReceive_unrouted up whole accepts none, State.updFport_same .., fun j hj => State.updFport_other _ _ hj, rfl⟩
  · exact (frameReceive_routed up whole accepts hq).trans (congrArg Host.Outcome.next (if_pos h))
  · refine (frameReceive_routed up whole accepts hq).trans (congrArg Host.Outcome.next (if_neg ?_))
    rintro (off | taken)
    · exact Bool.false_ne_true (off.symm.trans en)
    · exact h taken
  · refine ⟨_, frameTransmit_sends hf up, ?_, ?_, ?_, fun j hj => State.updFport_other s _ hj, rfl⟩
    · exact congrArg FPort.tx (State.updFport_same s _ _)
    · exact congrArg FPort.txFrames (State.updFport_same s _ _)
    · exact congrArg FPort.txTs (State.updFport_same s _ _)
  · exact ⟨_, (gateListTakeEffect_committed hg).trans (occurs_true (decide_eq_true due) _), State.updFport_same .., fun j hj => State.updFport_other _ _ hj, rfl⟩
  · refine ⟨_, gclIntervalEnd_ends listed due, fun j hj => State.updFport_other _ _ hj, rfl, fun inside => ?_, fun outside => ?_⟩
    · exact (State.updFport_same ..).trans (if_pos inside)
    · exact (State.updFport_same ..).trans (if_neg outside)
  · exact (gptpMessage_up up v).trans (congrArg Host.Outcome.next (if_pos h))
  · rw [gptpMessage_up up v, if_neg (by rw [h]; decide), if_pos h]
  · rw [gptpMessage_up up v, if_neg (by rw [h]; decide), if_neg (by rw [h]; decide), if_pos h]
  · rw [gptpMessage_time up v h, if_pos one]
  · rw [gptpMessage_time up v h, if_neg one]
  · rw [gptpInterval_up up, if_pos h]
  · rw [gptpInterval_up up, if_neg (by rw [h]; decide), if_pos two, if_pos h]
  · rw [gptpInterval_up up, if_neg (by rw [h]; decide), if_pos two, if_neg (by rw [h]; decide), if_pos h]
  · rw [gptpInterval_up up, if_neg h1, if_pos two, if_neg h2, if_neg h3]
  · rw [gptpInterval_up up, if_neg (by rw [h]; decide), if_neg two, if_pos h]
  · rw [gptpInterval_up up, if_neg h1, if_neg two, if_neg h2]
  · simp only [List.forall_mem_cons, List.not_mem_nil, false_imp_iff, implies_true, and_true]
    exact ⟨frameReceive_down down, frameTransmit_down down, gptpMessage_down down, gptpInterval_down down⟩

end Sys2Proof.Machine

/-! SUPPORT. XSPI clients. -/
namespace Sys2Proof.Machine

/-! ## What the load of a window leaves of the timers -/

theorem State.report_tmr (s : State) (cls detail kind unit : Nat) (info : W64) : (s.report cls detail kind unit info).tmr = s.tmr := by
  unfold State.report
  split <;> rfl

theorem State.reportBad_tmr (s : State) (lo len : Nat) : (s.reportBad lo len).tmr = s.tmr :=
  foldl_keeps (fun s => s.tmr) (fun _ _ => State.report_tmr ..) _ s

theorem State.reportPart_tmr (s : State) (lo len : Nat) : (s.reportPart lo len).tmr = s.tmr := by
  have first : (if decide (lo / 8 * 8 < lo) || decide (lo + len < lo / 8 * 8 + 8) then s.reportBad lo (min len (lo / 8 * 8 + 8 - lo)) else s).tmr = s.tmr := by
    split
    · exact State.reportBad_tmr ..
    · rfl
  unfold State.reportPart
  dsimp only
  split
  · exact (State.reportBad_tmr ..).trans first
  · exact first

theorem State.yardWrite_tmr (s : State) (lo : Nat) (bs : List Byte) : (s.yardWrite lo bs).tmr = s.tmr := by
  unfold State.yardWrite
  dsimp only
  split
  · rfl
  · exact State.reportPart_tmr ..

theorem State.writePages_tmr (s : State) (ps : List Nat) (bs : List Byte) : (s.writePages ps bs).tmr = s.tmr := by
  induction ps generalizing s bs with
  | nil => rfl
  | cons p ps ih => exact (ih ..).trans (State.yardWrite_tmr ..)

theorem State.loseRounds_tmr (s : State) (arb w : Nat) (rs : List Nat) : (s.loseRounds arb w rs).tmr = s.tmr := by
  refine foldl_keeps (fun s => s.tmr) (fun _ _ => ?_) _ s
  rfl

theorem State.moverGrant_tmr (s : State) (m c : Nat) (d : Desc) : (s.moverGrant m c d).tmr = s.tmr := by
  unfold State.moverGrant
  dsimp only
  split <;> exact State.loseRounds_tmr ..

theorem State.mgpTransfer_tmr (s : State) (ch n : Nat) : (s.mgpTransfer ch n).tmr = s.tmr := by
  unfold State.mgpTransfer
  split
  · rfl
  · exact State.moverGrant_tmr ..

theorem State.pinWindow_tmr (s : State) (n : Nat) (bs : List Byte) : (s.pinWindow n bs).tmr = s.tmr :=
  (State.writePages_tmr ..).trans (State.mgpTransfer_tmr ..)

/-! ## The commands of xSPI clients -/

theorem State.updXt_same (s : State) (n : Nat) (f : Xt → Xt) : (s.updXt n f).xt n = f (s.xt n) := (Tbl.get_mod ..).trans (if_pos rfl)

theorem State.updXt_other (s : State) {n j : Nat} (f : Xt → Xt) (h : j ≠ n) : (s.updXt n f).xt j = s.xt j := (Tbl.get_mod ..).trans (if_neg h)

/-- A byte of the window, or an open one. -/
theorem State.xtByte_cases (s : State) (n k : Nat) :
    ((s.xt n).inWrite k 1 = true ∨ (s.xt n).size ≤ k → s.xtByte n k = 0xFF)
    ∧ ((s.xt n).inWrite k 1 = false → k < (s.xt n).size → s.xtByte n k = s.yard.byte ((s.xt n).pinAt k)) := by
  refine ⟨fun h => if_pos ?_, fun hw hk => if_neg ?_⟩
  · simpa only [Bool.or_eq_true, decide_eq_true_eq] using h
  · rw [hw, decide_eq_false (Nat.not_le.2 hk)]
    exact Bool.false_ne_true

section
variable {n : Nat} {s : State}

theorem xtRead_not {addr len : Nat} (h : (s.xtClient n && (s.xt n).verified) = false) : exec (.xtRead n addr len) s = .next s := by
  change execXtRead n addr len s = _
  simp only [execXtRead]
  rw [occurs_false h]

theorem xtPageProgram_not {addr : Nat} {bs : List Byte} (h : (s.xtClient n && !(s.xt n).wip && (s.xt n).wel) = false) :
    exec (.xtPageProgram n addr bs) s = .next s := by
  change execXtPageProgram n addr bs s = _
  simp only [execXtPageProgram]
  rw [occurs_false h]

theorem xtReadId_occurs (n : Nat) (s : State) :
    exec (.xtReadId n) s = occurs s (s.xtClient n) (fun s => s.drive (.xspi n (leBytes 3 (fld (s.xt n).id 0 24)))) := rfl

theorem xtReadStatus_occurs (n : Nat) (s : State) : exec (.xtReadStatus n) s = occurs s (s.xtClient n) (fun s =>
    s.drive (.xspi n [BitVec.ofNat 8 (bitN (s.xt n).wip 0 + bitN (s.xt n).wel 1 + bitN (s.xt n).perr 5)])) := rfl

theorem xtReadSfdp_occurs (n addr len : Nat) (s : State) : exec (.xtReadSfdp n addr len) s = occurs s (s.xtClient n) (fun s =>
    s.drive (.xspi n ((List.range len).map (fun k => Config.sfdp (s.xt n).density (fld (s.xt n).cfg 8 6) (addr % 2 ^ 24 + k))))) := rfl

theorem xtWriteEnable_occurs (n : Nat) (s : State) :
    exec (.xtWriteEnable n) s = occurs s (s.xtClient n) (fun s => s.updXt n (fun x => { x with wel := true, perr := false })) := rfl

theorem xtWriteDisable_occurs (n : Nat) (s : State) :
    exec (.xtWriteDisable n) s = occurs s (s.xtClient n) (fun s => s.updXt n (fun x => { x with wel := false })) := rfl

theorem xtVolatileConfigWrite_occurs (n : Nat) (v : Byte) (s : State) :
    exec (.xtVolatileConfigWrite n v) s = occurs s (s.xtClient n) (fun s => s.updXt n (fun x => { x with octal := decide (v ≠ 0xFF) })) := rfl

/-- A command that only a client gives. -/
theorem xtCommand_not {i : Instr} {f : State → State} (h : exec i s = occurs s (s.xtClient n) f) (c : s.xtClient n = false) : exec i s = .next s :=
  h.trans (occurs_false c f)

theorem xtCommand_runs {i : Instr} {f : State → State} (h : exec i s = occurs s (s.xtClient n) f) (c : s.xtClient n = true) : exec i s = .next (f s) :=
  h.trans (occurs_true c f)

theorem xtErase_not (h : s.xtClient n = false) (addr : Nat) : exec (.xtErase n addr) s = .next s := by
  change execXtErase n addr s = _
  simp only [execXtErase]
  rw [occurs_false h]

/-- A command that no client gives changes nothing. -/
theorem xtCommands_noClient (h : s.xtClient n = false) (addr len : Nat) (bs : List Byte) (v : Byte) :
    ∀ i ∈ [.xtRead n addr len, .xtReadId n, .xtReadStatus n, .xtReadSfdp n addr len, .xtWriteEnable n, .xtWriteDisable n,
      .xtVolatileConfigWrite n v, .xtErase n addr, .xtPageProgram n addr bs], exec i s = .next s := by
  simp only [List.forall_mem_cons, List.not_mem_nil, false_imp_iff, implies_true, and_true]
  exact ⟨xtRead_not (by rw [h, Bool.false_and]), xtCommand_not (xtReadId_occurs ..) h, xtCommand_not (xtReadStatus_occurs ..) h,
    xtCommand_not (xtReadSfdp_occurs ..) h, xtCommand_not (xtWriteEnable_occurs ..) h, xtCommand_not (xtWriteDisable_occurs ..) h,
    xtCommand_not (xtVolatileConfigWrite_occurs ..) h,
    xtErase_not h addr,
    xtPageProgram_not (by rw [h, Bool.false_and, Bool.false_and])⟩

variable (client : s.xtClient n = true)
include client

section
variable {addr len : Nat} (verified : (s.xt n).verified = true)
include verified

/-- A word that cannot be read stops the port. -/
theorem xtRead_bad {b : Nat} (h : s.xtBad n ((s.xt n).at_ addr) len = some b) : exec (.xtRead n addr len) s = .next (s.xtFault n b) := by
  change execXtRead n addr len s = _
  simp only [execXtRead]
  rw [occurs_true (by rw [client, verified]; rfl)]
  simp only [h]

variable (good : s.xtBad n ((s.xt n).at_ addr) len = none)
include good

theorem xtRead_serves (h : Config.clientLate n s.tick = false) :
    exec (.xtRead n addr len) s = .next (s.drive (.xspi n ((List.range len).map (fun k => s.xtByte n ((s.xt n).at_ addr + k))))) := by
  change execXtRead n addr len s = _
  simp only [execXtRead]
  rw [occurs_true (by rw [client, verified]; rfl)]
  simp only [good, h, Bool.false_eq_true, if_false]

/-- A client that clocks too fast samples open bytes, and LATE is set. -/
theorem xtRead_late (h : Config.clientLate n s.tick = true) :
    exec (.xtRead n addr len) s = .next ((((s.takeFreeBytes len).2.updXt n (fun x => { x with late := true })).sets (0xF80004 + 0x100 * n) 8).drive
      (.xspi n (s.takeFreeBytes len).1)) := by
  change execXtRead n addr len s = _
  simp only [execXtRead]
  rw [occurs_true (by rw [client, verified]; rfl)]
  simp only [good, h, if_true]

end

theorem xtErase_client (addr : Nat) : exec (.xtErase n addr) s = .next (
    if (s.xt n).inWrite ((s.xt n).at_ addr / 4096 * 4096) 4096 then s
    else (s.updXt n (fun x => { x with perr := true, perrSeen := true })).sets (0xF80004 + 0x100 * n) 11) := by
  change execXtErase n addr s = _
  simp only [execXtErase]
  rw [occurs_true client]

/-- The conditions of a page program that makes a record. -/
def State.programFits (s : State) (n a len : Nat) : Prop :=
  1 ≤ len ∧ len ≤ 256 ∧ a / 256 = (a + len - 1) / 256 ∧ (s.xt n).inWrite a len = true
    ∧ (s.stream (fld (s.xt n).stream 0 16)).isSome = true ∧ s.holds (fld (s.xt n).stream 24 6) 3 (fld (s.xt n).stream 0 16) 1 = true

omit client in
theorem State.programFits_iff (s : State) (n a len : Nat) :
    (decide (1 ≤ len) && decide (len ≤ 256) && decide (a / 256 = (a + len - 1) / 256) && (s.xt n).inWrite a len
      && ((s.stream (fld (s.xt n).stream 0 16)).isSome && s.holds (fld (s.xt n).stream 24 6) 3 (fld (s.xt n).stream 0 16) 1)) = true ↔ s.programFits n a len := by
  simp only [State.programFits, Bool.and_eq_true, decide_eq_true_eq, and_assoc]

variable {addr : Nat} {bs : List Byte} (idle : (s.xt n).wip = false) (latch : (s.xt n).wel = true)
include idle latch

/-- A page program that fits keeps its record, and the client is busy. -/
theorem xtPageProgram_keeps (h : s.programFits n ((s.xt n).at_ addr) bs.length) :
    exec (.xtPageProgram n addr bs) s = .next (s.updXt n (fun y => { y with
      wel := false, wip := true,
      record := some (leBytes 4 ((s.xt n).at_ addr - (s.xt n).writeWindow.1) ++ leBytes 2 bs.length ++ leBytes 1 n ++ [0] ++ bs) })) := by
  change execXtPageProgram n addr bs s = _
  simp only [execXtPageProgram]
  rw [occurs_true (by rw [client, idle, latch]; rfl), if_pos ((s.programFits_iff ..).2 h)]

theorem xtPageProgram_error (h : ¬ s.programFits n ((s.xt n).at_ addr) bs.length) :
    exec (.xtPageProgram n addr bs) s = .next ((s.xtWriteError n).updXt n (fun y => { y with wel := false })) := by
  change execXtPageProgram n addr bs s = _
  simp only [execXtPageProgram]
  rw [occurs_true (by rw [client, idle, latch]; rfl), if_neg (mt (s.programFits_iff ..).1 h)]

end

/-! ## Reset cycles -/

theorem xtCycleDone_noWindow {n : Nat} {pass : Bool} {s : State} (h : (s.xt n).win = none) : exec (.xtCycleDone n pass) s = .next s := by
  change execXtCycleDone n pass s = _
  simp only [execXtCycleDone, h]

/-- A window that cannot be read or does not verify leaves the line low, with an attention. -/
def State.cycleFails (s : State) (n : Nat) : State :=
  ((s.updXt n (fun x => { x with cycling := false, loadFail := true, attention := true })).sets (0xF80004 + 0x100 * n) 9).lpcEvent 0x0052 n 1

/-- A window that is read and verified is in the partition and loaded. -/
def State.cycleLoads (s : State) (n : Nat) (w : Nat × Nat × Nat) (bs : List Byte) : State :=
  (s.pinWindow n bs).updXt n (fun x => { x with
    cycling := false, loaded := true, verified := true, attention := true, win := some (s.activeSlot w.1, w.2) })

section
variable {n : Nat} {pass : Bool} {s : State} {w : Nat × Nat × Nat} (hw : (s.xt n).win = some w)
include hw

theorem xtCycleDone_unread (h : pass = false ∨ s.windowBytes w = none) : exec (.xtCycleDone n pass) s = occurs s (s.xt n).cycling (fun s => s.cycleFails n) := by
  have got : (if pass then s.windowBytes w else none) = none := by
    rcases h with h | h
    · rw [h, if_neg Bool.false_ne_true]
    · rw [h, ite_self]
  change execXtCycleDone n pass s = _
  simp only [execXtCycleDone, hw, got]
  rfl

theorem xtCycleDone_read {bs : List Byte} (h : s.windowBytes w = some bs) :
    exec (.xtCycleDone n true) s = occurs s ((s.xt n).cycling && ((s.xt n).hold || s.xtMinPassed n)) (fun s =>
      ((s.cycleLoads n w bs).xtTryRelease n).lpcEvent 0x0051 n s.tmr.time) := by
  have time : ∀ u : State, (u.cycleLoads n w bs).tmr = u.tmr := fun u => u.pinWindow_tmr n bs
  change execXtCycleDone n true s = _
  simp only [execXtCycleDone, hw, h, if_true]
  exact congrArg (occurs s _) (funext fun u => congrArg (fun x : Tmr => ((u.cycleLoads n w bs).xtTryRelease n).lpcEvent 0x0051 n x.time) (time u))

theorem xtCycleDone_still (h : (s.xt n).cycling = false) : exec (.xtCycleDone n pass) s = .next s := by
  by_cases unread : pass = false ∨ s.windowBytes w = none
  · exact (xtCycleDone_unread hw unread).trans (occurs_false h _)
  · obtain ⟨passed, bytes⟩ := not_or.1 unread
    obtain ⟨bs, hbs⟩ := Option.ne_none_iff_exists'.1 bytes
    rw [eq_true_of_ne_false passed, xtCycleDone_read hw hbs, occurs_false (by rw [h, Bool.false_and])]

end

/-- The end of the least assertion releases a line that nothing withholds. -/
theorem clientRst_releases {n : Nat} {s : State} (low : (s.xt n).rst = true) (may : s.xtMayRelease n = true) :
    exec (.clientRstMinElapsed n) s = .next (s.updXt n (fun x => { x with rst := false, octal := x.cfg.getLsbD 1 })) := by
  change execClientRstMinElapsed n s = _
  rw [execClientRstMinElapsed, occurs_true (by rw [low, may]; rfl), State.xtTryRelease, if_pos may]

/-! ## Records of xSPI clients -/

/-- A charge of a class finds room now. -/
theorem roomFor_iff (s : State) (cls bytes : Nat) : (s.chargeOpen cls && !s.standsBehind cls && decide (bytes ≤ s.freeRoom cls)) = true ↔
    s.chargeOpen cls = true ∧ s.standsBehind cls = false ∧ bytes ≤ s.freeRoom cls := by
  simp only [Bool.and_eq_true, Bool.not_eq_true', decide_eq_true_eq, and_assoc]

theorem State.takeRecord_counts (s : State) (n : Nat) (st : Stream) (d : List Byte) :
    (s.takeRecord n st d).lq.nextGroup = s.lq.nextGroup + 1 ∧ (s.takeRecord n st d).lq.nextSeal = s.lq.nextSeal + 1 := ⟨rfl, rfl⟩

section
variable {n : Nat} {s : State} {d : List Byte} (record : (s.xt n).record = some d)
include record

theorem xtRecord_noStream (h : s.stream (fld (s.xt n).stream 0 16) = none) : exec (.xtRecordAccepted n) s = .next (s.xtWriteError n) := by
  change execXtRecordAccepted n s = _
  simp only [execXtRecordAccepted, record, h]

variable {st : Stream} (stream : s.stream (fld (s.xt n).stream 0 16) = some st)
include stream

theorem xtRecord_barred (h : (!s.holds (fld (s.xt n).stream 24 6) 3 (fld (s.xt n).stream 0 16) 1
    || s.neverFits (fld (s.xt n).stream 16 2) (chargeAppend d.length) none) = true) : exec (.xtRecordAccepted n) s = .next (s.xtWriteError n) := by
  change execXtRecordAccepted n s = _
  simp only [execXtRecordAccepted, record, stream]
  rw [if_pos h]

variable (may : s.holds (fld (s.xt n).stream 24 6) 3 (fld (s.xt n).stream 0 16) 1 = true)
  (fits : s.neverFits (fld (s.xt n).stream 16 2) (chargeAppend d.length) none = false)
include may fits

theorem xtRecord_full (h : (s.pinnedFull (.append (fld (s.xt n).stream 0 16)) d.length).isSome = true) :
    exec (.xtRecordAccepted n) s = .next ((s.updStream (fld (s.xt n).stream 0 16) (fun st => { st with full := true })).xtWriteError n) := by
  change execXtRecordAccepted n s = _
  simp only [execXtRecordAccepted, record, stream]
  rw [if_neg (by rw [may, fits]; exact Bool.false_ne_true), if_pos h]

theorem xtRecord_charges (h : s.pinnedFull (.append (fld (s.xt n).stream 0 16)) d.length = none) :
    exec (.xtRecordAccepted n) s = occurs s (s.chargeOpen (fld (s.xt n).stream 16 2) && !s.standsBehind (fld (s.xt n).stream 16 2)
      && decide (chargeAppend d.length ≤ s.freeRoom (fld (s.xt n).stream 16 2))) (fun s =>
        (s.takeRecord n st d).updXt n (fun x => { x with wip := false, record := none, records := wrapAdd 32 x.records 1 })) := by
  change execXtRecordAccepted n s = _
  simp only [execXtRecordAccepted, record, stream]
  rw [if_neg (by rw [may, fits]; exact Bool.false_ne_true), h, if_neg (by exact Bool.false_ne_true)]

end

/-- Settles O52: the commands of xSPI clients, the reset cycles of their ports, and their records. -/
theorem xspiTargetsServe : Obligations.XspiTargetsServe := by
  refine ⟨fun n addr len bs v s none => xtCommands_noClient none addr len bs v, fun n addr s client => ⟨fun unverified len => ?_, fun verified len =>
      ⟨fun b => xtRead_bad client verified, xtRead_serves client verified, fun good late => ?_⟩, s.xtByte_cases n, xtCommand_runs (xtReadId_occurs ..) client, xtCommand_runs (xtReadStatus_occurs ..) client,
      fun len => xtCommand_runs (xtReadSfdp_occurs ..) client, xtCommand_runs (xtWriteEnable_occurs ..) client, xtCommand_runs (xtWriteDisable_occurs ..) client, fun v => xtCommand_runs (xtVolatileConfigWrite_occurs ..) client, fun inside => ?_, fun outside => ?_,
      fun bs h => ?_, fun bs idle latch => ⟨xtPageProgram_keeps client idle latch, xtPageProgram_error client idle latch⟩⟩,
    fun n pass s => ⟨xtCycleDone_noWindow, fun still => ?_, fun w hw cycling => ⟨fun bs hbs may => ?_, fun bs hbs free early => ?_, fun unread => ?_⟩,
      fun loaded => ?_, fun unloaded => ?_, fun low may => ?_, fun h => ?_⟩,
    fun n s => ⟨fun none => ?_, fun d record => ⟨xtRecord_noStream record, fun barred => ?_, fun st stream may fits => ⟨xtRecord_full record stream may fits,
      fun unfull => ⟨fun closed => ?_, fun room => ⟨?_, s.takeRecord_counts n st d⟩⟩⟩⟩⟩⟩
  · exact xtRead_not (by rw [unverified, Bool.and_false])
  · exact ⟨_, xtRead_late client verified good late, State.updXt_same .., fun j hj => State.updXt_other _ _ hj, rfl⟩
  · rw [xtErase_client client, if_pos inside]
  · rw [xtErase_client client, if_neg (by rw [outside]; exact Bool.false_ne_true)]
  · refine xtPageProgram_not ?_
    rcases h with busy | unlatched
    · rw [busy, Bool.not_true, Bool.and_false, Bool.false_and]
    · rw [unlatched, Bool.and_false]
  · cases hw : (s.xt n).win with
    | none => exact xtCycleDone_noWindow hw
    | some w => exact xtCycleDone_still hw still
  · exact (xtCycleDone_read hw hbs).trans (occurs_true (by rw [cycling]; exact Bool.or_eq_true_iff.2 may) _)
  · exact (xtCycleDone_read hw hbs).trans (occurs_false (by rw [free, early, Bool.or_false, Bool.and_false]) _)
  · exact (xtCycleDone_unread hw unread).trans (occurs_true cycling _)
  · change execXtWindowFault n s = _
    rw [execXtWindowFault, occurs_true loaded]
  · change execXtWindowFault n s = _
    rw [execXtWindowFault, occurs_false unloaded]
  · refine ⟨_, clientRst_releases low may, State.updXt_same .., fun j hj => State.updXt_other _ _ hj, rfl⟩
  · change execClientRstMinElapsed n s = _
    rw [execClientRstMinElapsed, occurs_false]
    rcases h with h | h
    · rw [h, Bool.false_and]
    · rw [h, Bool.and_false]
  · change execXtRecordAccepted n s = _
    simp only [execXtRecordAccepted, none]
  · cases stream : s.stream (fld (s.xt n).stream 0 16) with
    | none => exact xtRecord_noStream record stream
    | some st =>
      refine xtRecord_barred record stream ?_
      rcases barred with h | h
      · rw [h]
        rfl
      · rw [h, Bool.or_true]
  · exact (xtRecord_charges record stream may fits unfull).trans (occurs_false (Bool.eq_false_iff.2 (mt (roomFor_iff ..).1 closed)) _)
  · exact (xtRecord_charges record stream may fits unfull).trans (occurs_true ((roomFor_iff ..).2 room) _)

end Sys2Proof.Machine

/-! SUPPORT. What the end of a word leaves of the Field Ports. -/
namespace Sys2Proof.Machine

/-! ## What the end of a word leaves of the Field Ports -/

@[simp] theorem State.field_ite (c : Prop) [Decidable c] (s t : State) : (if c then s else t).field = if c then s.field else t.field := by
  split <;> rfl

theorem field_foldl {α : Type} {f : State → α → State} (h : ∀ s a, (f s a).field = s.field) (l : List α) (s : State) : (l.foldl f s).field = s.field :=
  foldl_keeps State.field h l s

@[simp] theorem State.setsIf_field (s : State) (b : Bool) (reg bit : Nat) : (State.setsIf s b reg bit).field = s.field := by
  simp [State.setsIf]

@[simp] theorem State.report_field (s : State) (cls detail kind unit : Nat) (info : W64) : (State.report s cls detail kind unit info).field = s.field := by
  simp [State.report]

@[simp] theorem State.sendMsix_field (s : State) (fn v : Nat) : (State.sendMsix s fn v).field = s.field := by
  simp [State.sendMsix]

@[simp] theorem State.reportBad_field (s : State) (lo len : Nat) : (State.reportBad s lo len).field = s.field := by
  simp [State.reportBad, field_foldl]

@[simp] theorem State.reportPart_field (s : State) (lo len : Nat) : (State.reportPart s lo len).field = s.field := by
  simp [State.reportPart]

@[simp] theorem State.yardWrite_field (s : State) (lo : Nat) (bs : List Byte) : (s.yardWrite lo bs).field = s.field := by
  simp only [State.yardWrite]
  split
  · rfl
  · exact State.reportPart_field ..

@[simp] theorem State.countGrant_field (s : State) (arb w asked : Nat) : (State.countGrant s arb w asked).field = s.field := by rfl

@[simp] theorem State.loseRounds_field (s : State) (arb w : Nat) (rs : List Nat) : (s.loseRounds arb w rs).field = s.field := by
  refine field_foldl (fun s r => ?_) _ s
  rfl

@[simp] theorem State.creditGrant_field (s : State) (arb w units asked : Nat) (rs : List Nat) : (State.creditGrant s arb w units asked rs).field = s.field := by
  simp [State.creditGrant]

@[simp] theorem State.startJob_field (s : State) (arb : Nat) (j : CodecJob) : (State.startJob s arb j).field = s.field := by
  simp [State.startJob]

@[simp] theorem State.runLane_field (s : State) (arb : Nat) : (State.runLane s arb).field = s.field := by
  simp only [State.runLane]
  repeat' split
  all_goals simp

@[simp] theorem State.askLane_field (s : State) (arb : Nat) (j : CodecJob) : (State.askLane s arb j).field = s.field := by
  unfold State.askLane
  split <;> simp

@[simp] theorem State.askCodec_field (s : State) (m c : Nat) (d : Desc) : (State.askCodec s m c d).field = s.field := by
  simp [State.askCodec]

@[simp] theorem State.endCodec_field (s : State) (m c : Nat) : (State.endCodec s m c).field = s.field := by
  simp [State.endCodec, field_foldl]

@[simp] theorem State.moverGrant_field (s : State) (m c : Nat) (d : Desc) : (State.moverGrant s m c d).field = s.field := by
  simp [State.moverGrant]

@[simp] theorem State.runNext_field (s : State) (m : Nat) : (State.runNext s m).field = s.field := by
  simp only [State.runNext]
  repeat' split
  all_goals simp

@[simp] theorem State.preempt_field (s : State) (m : Nat) : (State.preempt s m).field = s.field := by
  simp only [State.preempt]
  split <;> simp

@[simp] theorem State.enter_field (s : State) (m c : Nat) : (State.enter s m c).field = s.field := by
  simp only [State.enter]
  split <;> simp

@[simp] theorem State.descEnd_field (s : State) (m c st : Nat) : (State.descEnd s m c st).field = s.field := by
  simp [State.descEnd]

@[simp] theorem State.dropChan_field (s : State) (e st : Nat) : (State.dropChan s e st).field = s.field := by
  unfold State.dropChan
  split <;> simp

@[simp] theorem State.dropCharge_field (s : State) (e : Nat) : (State.dropCharge s e).field = s.field := by
  simp [State.dropCharge]

@[simp] theorem State.settle_field (s : State) : (State.settle s).field = s.field := by rfl

@[simp] theorem State.addJob_field (s : State) (id : Nat) (j : PageJob) : (State.addJob s id j).field = s.field := by rfl

@[simp] theorem State.freshJob_field (s : State) : s.freshJob.2.field = s.field := by rfl

@[simp] theorem State.newJob_field (s : State) (j : PageJob) : (s.newJob j).2.field = s.field := by rfl

@[simp] theorem State.annealErase_field (s : State) (l b seg : Nat) : (s.annealErase l b seg).2.field = s.field := by rfl

@[simp] theorem State.dropSeg_field (s : State) (n : Nat) : (s.dropSeg n).field = s.field := by
  simp only [State.dropSeg]
  split
  · rfl
  · simp [field_foldl]

@[simp] theorem State.stopMoves_field (s : State) (g : Nat) : (State.stopMoves s g).field = s.field := by
  simp [State.stopMoves, field_foldl]

@[simp] theorem State.releaseSeg_field (s : State) (st g : Nat) : (State.releaseSeg s st g).field = s.field := by
  simp [State.releaseSeg]

@[simp] theorem State.releaseGone_field (s : State) (st : Nat) : (State.releaseGone s st).field = s.field := by
  simp only [State.releaseGone]
  split <;> simp [field_foldl]

@[simp] theorem State.acceptWrite_field (s : State) (g order : Nat) (k : WKind) : (State.acceptWrite s g order k).field = s.field := by
  unfold State.acceptWrite
  split <;> simp

@[simp] theorem State.sealGroup_field (s : State) (e g : Nat) : (State.sealGroup s e g).field = s.field := by
  simp only [State.sealGroup]
  split <;> simp [field_foldl]

@[simp] theorem State.sealOpen_field (s : State) (e : Nat) : (State.sealOpen s e).field = s.field := by
  unfold State.sealOpen
  split <;> simp

@[simp] theorem State.discardGroup_field (s : State) (g : Nat) : (State.discardGroup s g).field = s.field := by rfl

@[simp] theorem State.discardOpen_field (s : State) (e : Nat) : (State.discardOpen s e).field = s.field := by
  unfold State.discardOpen
  split <;> simp

@[simp] theorem State.pushReady_field (s : State) (cqid : Nat) (w : Waiting) : (State.pushReady s cqid w).field = s.field := by rfl

@[simp] theorem State.raiseNote_field (s : State) (e : Nat) (p : Prog) (c : Cqe) : (State.raiseNote s e p c).field = s.field := by rfl

@[simp] theorem State.raiseOwed_field (s : State) (e : Nat) : (State.raiseOwed s e).field = s.field := by
  simp only [State.raiseOwed]
  repeat' split
  all_goals simp

@[simp] theorem State.ack_field (s : State) (e : Nat) : (State.ack s e).field = s.field := by rfl

@[simp] theorem State.freeEngine_field (s : State) (e : Nat) : (State.freeEngine s e).field = s.field := by rfl

@[simp] theorem State.postFinal_field (s : State) (e : Nat) (p : Prog) (n : Ending) (ccw : W64) (bell : Option Nat) : (State.postFinal s e p n ccw bell).field = s.field := by
  simp only [State.postFinal]
  split <;> simp

@[simp] theorem State.endProg_field (s : State) (e : Nat) (n : Ending) (ccw : W64) : (State.endProg s e n ccw).field = s.field := by
  unfold State.endProg
  split <;> simp

@[simp] theorem State.endAtLast_field (s : State) (e : Nat) (n : Ending) : (State.endAtLast s e n).field = s.field := by
  unfold State.endAtLast
  split <;> simp

@[simp] theorem State.endNormal_field (s : State) (e : Nat) (unitException : Bool) : (State.endNormal s e unitException).field = s.field := by
  unfold State.endNormal
  split <;> simp

@[simp] theorem State.suspendProg_field (s : State) (e : Nat) (k : Susp) (ccw : W64) : (State.suspendProg s e k ccw).field = s.field := by
  unfold State.suspendProg
  split <;> simp

@[simp] theorem State.atBoundary_field (s : State) (e : Nat) : (State.atBoundary s e).field = s.field := by
  unfold State.atBoundary
  split <;> simp

@[simp] theorem State.completeWord_field (s : State) (e : Nat) (d : Dest) : (State.completeWord s e d).field = s.field := by
  simp only [State.completeWord]
  repeat' split
  all_goals simp

@[simp] theorem State.finishWait_field (s : State) (e : Nat) (z : Bool) : (State.finishWait s e z).field = s.field := by
  simp [State.finishWait]

@[simp] theorem State.finishWaits_field (s : State) (f : WaitKind → Bool) : (State.finishWaits s f).field = s.field := by
  simp [State.finishWaits, field_foldl]

@[simp] theorem State.cpNotice_field (s : State) (q : Nat) : (State.cpNotice s q).field = s.field := by
  simp [State.cpNotice]

@[simp] theorem State.cpWake_field (s : State) (q : Nat) : (State.cpWake s q).field = s.field := by
  simp [State.cpWake]

@[simp] theorem State.cpPush_field (s : State) (q : Nat) (w : CWord) : (State.cpPush s q w).field = s.field := by
  simp [State.cpPush]

@[simp] theorem State.cpPop_field (s : State) (q : Nat) : (s.cpPop q).2.field = s.field := by
  simp only [State.cpPop]
  repeat' split
  all_goals rfl

@[simp] theorem State.cpPushBytes_field (q fuel : Nat) (first : Bool) (bs : List Byte) (s : State) : (State.cpPushBytes q fuel first bs s).field = s.field := by
  induction fuel generalizing first bs s with
  | zero => rfl
  | succ fuel ih => simp [State.cpPushBytes, ih]

theorem field_of_eq {α : Type} {x : α × State} {a : α} {s t : State} (h : x = (a, t)) (k : x.2.field = s.field) : t.field = s.field := by
  rw [← k, h]

@[simp] theorem State.cpTake_field (q fuel n : Nat) (s : State) : (State.cpTake q fuel n s).2.field = s.field := by
  induction fuel generalizing n s with
  | zero => rfl
  | succ fuel ih =>
    unfold State.cpTake
    split
    · rfl
    · split
      next t h => exact field_of_eq h (s.cpPop_field q)
      next w t h =>
        have ht := field_of_eq h (s.cpPop_field q)
        split <;> simp [ih, ht]

@[simp] theorem State.cpSkip_field (q n : Nat) (s : State) : (State.cpSkip q n s).field = s.field := by
  induction n generalizing s with
  | zero => rfl
  | succ n ih => exact (ih _).trans (s.cpPop_field q)

theorem State.writePiece_field (s : State) (e fn : Nat) (x : Piece) (bs : List Byte) : (s.writePiece e fn x bs).field = s.field := by
  unfold State.writePiece
  repeat' split
  all_goals simp

theorem State.scatter_field (e fn : Nat) (ps : List Piece) (bs : List Byte) (s : State) : (State.scatter e fn ps bs s).field = s.field := by
  induction ps generalizing bs s with
  | nil => rfl
  | cons x ps ih => exact (ih ..).trans (s.writePiece_field ..)

theorem State.readPiece_field (s : State) (e : Nat) (x : Piece) (host : List Byte) : (s.readPiece e x host).st.field = s.field := by
  simp only [State.readPiece]
  repeat' split
  all_goals simp

theorem State.gather_field (e i : Nat) (ps : List Piece) (host : List Byte) (s : State) : (State.gather e i ps host s).st.field = s.field := by
  induction ps generalizing i host s with
  | nil => rfl
  | cons x ps ih =>
    simp only [State.gather]
    repeat' split
    · exact s.readPiece_field e x host
    · exact s.readPiece_field e x host
    · exact (ih ..).trans (s.readPiece_field e x host)

theorem State.collect_field (s : State) (e : Nat) (ps : List Piece) (remote : Bool) (x : Xfer) : (s.collect e ps remote x).st.field = s.field := by
  unfold State.collect
  dsimp only
  split <;> exact State.gather_field ..

end Sys2Proof.Machine

/-! SUPPORT. Port words at their ports. -/
namespace Sys2Proof.Machine

/-! ## The kinds of ports (Table 3.5) -/

theorem dreqOf_port {id n : Nat} (h : dreqOf id = some n) : fpOf id = none := by
  unfold dreqOf at h
  split at h
  next hid => exact if_neg (by omega)
  · cases h

theorem xtOf_port {id n : Nat} (h : xtOf id = some n) : fpOf id = none ∧ dreqOf id = none := by
  unfold xtOf at h
  split at h
  next hid => exact ⟨if_neg (by omega), if_neg (by omega)⟩
  · cases h

theorem uartOf_port {id n : Nat} (h : uartOf id = some n) : fpOf id = none ∧ dreqOf id = none := by
  unfold uartOf at h
  split at h
  next hid => exact ⟨if_neg (by omega), if_neg (by omega)⟩
  · cases h

theorem i2cOf_port {id n : Nat} (h : i2cOf id = some n) : fpOf id = none ∧ dreqOf id = none ∧ xtOf id = none ∧ uartOf id = none := by
  unfold i2cOf at h
  split at h
  next hid => exact ⟨if_neg (by omega), if_neg (by omega), if_neg (by omega), if_neg (by omega)⟩
  · cases h

theorem gpio_port {id : Nat} (h : id = 0x40) : fpOf id = none ∧ dreqOf id = none ∧ xtOf id = none ∧ uartOf id = none ∧ i2cOf id = none := by
  subst h
  decide

/-! ## A PORT word goes on -/

section
variable {s u t : State} {e : Nat} {p q : Prog} {w : Ccw} {ws : List Ccw}

/-- The channel that the operation rides on carries its bytes. -/
theorem Rides.carry (r : Rides u e w q t) (f : Prog → State → State) : u.carry e w f = f q t := by
  obtain ⟨hq, chan, carried, rfl⟩ | ⟨p, hp, chan, grab, hq, carried⟩ := r
  · simp only [State.carry, hq, chan, carried, if_true]
  · simp only [State.carry, hp, chan, Option.isSome_none, Bool.false_eq_true, if_false, grab, hq, carried, if_true]

theorem Rides.portCarry (r : Rides u e w q t) (f : Prog → State → State) : u.portCarry e w f = (f q t).dropChan e dsOk := r.carry _

/-- Where no channel is free the word stays as it is. -/
theorem State.portCarry_none (h : ∀ q, u.prog e = some q → q.chan = none ∧ u.grab e q w = none) (f : Prog → State → State) : u.portCarry e w f = u := by
  unfold State.portCarry State.carry
  cases hp : u.prog e with
  | none => rfl
  | some q =>
    obtain ⟨chan, grab⟩ := h q hp
    simp only [chan, Option.isSome_none, Bool.false_eq_true, if_false, grab]

/-- The row of a PORT word at its port goes on with the program as it stands in `u`. -/
theorem AtPort.goesOn {inw : Bool} (h : AtPort s u e p w ws inw) : ∃ q y, u.prog e = some q ∧ q.op = p.op ∧ q.execAt = p.execAt
    ∧ ∀ go, s.dataWord e (if inw then 0x17 else 0x16) (fun p w s => s.portChecks p w inw) (plainStart e) go = .next (go q y w u) := by
  obtain ⟨opc, ⟨d, checks, rfl⟩ | ⟨y, b, rfl⟩⟩ := h
  · refine ⟨{ p with xf := some Xfr.fresh }, Xfr.fresh, ?_, rfl, rfl, fun go => ?_⟩
    · rw [State.beginXfr, State.updProg_prog, d.prog]
      rfl
    · exact (d.dataWord opc checks _ go).trans (congrArg Host.Outcome.next (d.goOn_beginXfr rfl go))
  · exact ⟨p, y, b.prog, rfl, rfl, fun go => b.dataWord opc _ _ go⟩

section
variable (h : AtPort s u e p w ws false) (x : Xfer)
include h

theorem AtPort.outFrame {f : Nat} (hp : fpOf w.port = some f) : exec (.portOut e x) s = .next (u.portOutFrame e f w x) := by
  obtain ⟨q, y, -, -, -, goes⟩ := h.goesOn
  refine (goes _).trans ?_
  simp only [hp]

theorem AtPort.outBurst {n : Nat} (hp : dreqOf w.port = some n) : exec (.portOut e x) s = .next (u.portBurst e n w false x) := by
  obtain ⟨q, y, -, -, -, goes⟩ := h.goesOn
  refine (goes _).trans ?_
  simp only [hp, dreqOf_port hp]

theorem AtPort.outUart {n : Nat} (hp : uartOf w.port = some n) : exec (.portOut e x) s = .next (u.portOutUart e n w x) := by
  obtain ⟨q, y, -, -, -, goes⟩ := h.goesOn
  refine (goes _).trans ?_
  simp only [hp, uartOf_port hp]

theorem AtPort.outI2c {n : Nat} (hp : i2cOf w.port = some n) : exec (.portOut e x) s = .next (u.portI2c e n w false x) := by
  obtain ⟨q, y, -, -, -, goes⟩ := h.goesOn
  refine (goes _).trans ?_
  simp only [hp, i2cOf_port hp]

theorem AtPort.outGpio (hp : w.port = 0x40) : exec (.portOut e x) s = .next (u.portOutGpio e w x) := by
  obtain ⟨q, y, -, -, -, goes⟩ := h.goesOn
  refine (goes _).trans ?_
  simp only [gpio_port hp]

end

section
variable (h : AtPort s u e p w ws true) (x : Xfer)
include h

theorem AtPort.inFrame {f : Nat} (hp : fpOf w.port = some f) : exec (.portIn e x) s = .next (u.portInFrame e f w x) := by
  obtain ⟨q, y, -, -, -, goes⟩ := h.goesOn
  refine (goes _).trans ?_
  simp only [hp]

theorem AtPort.inBurst {n : Nat} (hp : dreqOf w.port = some n) : exec (.portIn e x) s = .next (u.portBurst e n w true x) := by
  obtain ⟨q, y, -, -, -, goes⟩ := h.goesOn
  refine (goes _).trans ?_
  simp only [hp, dreqOf_port hp]

theorem AtPort.inUart {n : Nat} (hp : uartOf w.port = some n) : exec (.portIn e x) s = .next (u.portInUart e n w x false) := by
  obtain ⟨q, y, -, -, -, goes⟩ := h.goesOn
  refine (goes _).trans ?_
  simp only [hp, uartOf_port hp]

theorem AtPort.inI2c {n : Nat} (hp : i2cOf w.port = some n) : exec (.portIn e x) s = .next (u.portI2c e n w true x) := by
  obtain ⟨q, y, -, -, -, goes⟩ := h.goesOn
  refine (goes _).trans ?_
  simp only [hp, i2cOf_port hp]

theorem AtPort.inGpio (hp : w.port = 0x40) : exec (.portIn e x) s = .next (u.portInGpio e w x) := by
  obtain ⟨q, y, -, -, -, goes⟩ := h.goesOn
  refine (goes _).trans ?_
  simp only [gpio_port hp]

end

end

end Sys2Proof.Machine

/-! SUPPORT. Words on Field Ports and bursts on request lines. -/
namespace Sys2Proof.Machine

/-! ## PORT words on Field Ports -/

section
variable {s u t : State} {e f : Nat} {p q : Prog} {w : Ccw} {x : Xfer}

/-- A link that is down ends the word. -/
theorem State.portOutFrame_down (h : u.fpUp f = false ∨ x.status = .link) : u.portOutFrame e f w x = u.endAtWord e Ending.linkFault 0 :=
  if_pos (by rcases h with h | h <;> simp only [h, Bool.not_false, Bool.true_or, decide_true, Bool.or_true])

section
variable (up : ¬ (u.fpUp f = false ∨ x.status = .link)) (hp : u.prog e = some p)
include up hp

theorem State.portOutFrame_up : u.portOutFrame e f w x = if (u.fport f).queued (w.portSub % 8) + opLen p.op ≤ txQueueSize then
    u.portCarry e w (fun p s =>
      let g := s.collect e (p.pieces p.op) false x
      let bs := if w.portSub.testBit 8 then Config.udpInsert g.bytes else g.bytes
      let v := if g.fail.isSome then g.st else g.st.updFport f (fun q => { q with
        tx := q.tx ++ [{ bytes := bs ++ List.replicate (60 - bs.length) 0, prio := w.portSub % 8, stamp := w.portSub.testBit 9 }] })
      State.portDone { bytes := g.bytes.length, fail := g.fail, st := v } e false (portDev x (u.fport f).attention)) else u := by
  obtain ⟨link, status⟩ := not_or.1 up
  refine (if_neg ?_).trans ?_
  · rw [eq_true_of_ne_false link, decide_eq_false status]
    exact Bool.false_ne_true
  · simp only [hp, Bool.not_eq_true', decide_eq_false_iff_not, ite_not]

end

/-- What PORT_IN on a Field Port takes from the queue, in the state that its channel carries it in. -/
theorem State.portInFrame_rides (unfenced : u.fcs.fencedPorts.contains f = false) (r : Rides u e w q t) :
    let c := w.portSub % 4096
    let ps := q.pieces q.op
    let n := opLen q.op
    let rest := (t.cpq c).packet.length - (n + 3) / 4
    let g := t.collect e [{ space := spCellq, addr := BitVec.ofNat 64 c, len := n }] (!w.drp && ps.any (fun y => decide (y.space = spHost))) x
    let v := State.cpSkip c rest g.st
    u.portInFrame e f w x = (State.portDone { bytes := g.bytes.length, fail := failAt ps g.bytes.length g.fail, st := if w.drp then v else State.scatter e q.fn ps g.bytes v }
      e (decide (g.bytes.length < n) || decide (0 < rest)) (portDev x (t.fport f).attention)).dropChan e dsOk := by
  intro c ps n rest g v
  have field : (if w.drp then v else State.scatter e q.fn ps g.bytes v).field = t.field := by
    have taken : v.field = t.field := (State.cpSkip_field ..).trans (State.collect_field ..)
    split
    · exact taken
    · exact (State.scatter_field ..).trans taken
  have fport : (if w.drp then v else State.scatter e q.fn ps g.bytes v).fport f = t.fport f := congrArg (fun d : Fld => d.ports.get f FPort.reset) field
  rw [State.portInFrame, if_neg (by rw [unfenced]; exact Bool.false_ne_true), r.portCarry]
  exact congrArg (fun k : FPort => (State.portDone {
      bytes := g.bytes.length, fail := failAt ps g.bytes.length g.fail, st := if w.drp then v else State.scatter e q.fn ps g.bytes v } e (decide (g.bytes.length < n) || decide (0 < rest)) (portDev x k.attention)).dropChan e dsOk) fport

end

/-! ## Bursts on a request line -/

/-- A burst is over on its channel where the word still holds it. -/
def State.endBurst (t : State) (e : Nat) (d : Dreq) : State :=
  if (t.prog e).bind Prog.chan = some (d.mover, d.channel) then t.burstOver d.mover d.channel else t

section
variable {u : State} {e n : Nat} {q : Prog} {w : Ccw} {x : Xfer} {inw : Bool}

/-- The word waits for the bound channel while another descriptor holds it. -/
theorem State.portBurst_held (hq : u.prog e = some q) (chan : q.chan = none)
    (held : (u.mvCh (u.dreq n).mover (u.dreq n).channel).active.isSome = true) : u.portBurst e n w inw x = u := by
  have bound : u.bindWord e n w = u := by
    simp only [State.bindWord, hq, held, Bool.or_true, Bool.true_or, if_true]
  have still : u.carried q = false := by simp only [State.carried, chan]
  simp only [State.portBurst, bound, hq, still, Bool.not_false, if_true]

theorem State.portBurst_still (hq : (u.bindWord e n w).prog e = some q) (still : (u.bindWord e n w).carried q = false) :
    u.portBurst e n w inw x = u.bindWord e n w := by
  simp only [State.portBurst, hq, still, Bool.not_false, if_true]

variable (hq : (u.bindWord e n w).prog e = some q) (carried : (u.bindWord e n w).carried q = true)
include hq carried

/-- One burst from the buffer to the ring. -/
theorem State.portBurst_out (asserted : ((u.bindWord e n w).dreq n).isLevel = false ∨ ((u.bindWord e n w).dreq n).level = true) :
    let v := u.bindWord e n w
    let d := v.dreq n
    let len := opLen q.op
    let want := min (boundBurst w len) (len - q.moved)
    let g := v.collect e (slicePieces (q.pieces q.op) q.moved want) true x
    let bs := g.bytes.take want
    let b := State.scatter e d.ringFn (d.ringPieces want) bs g.st
    u.portBurst e n w false x = (State.wordProgress { bytes := bs.length, fail := g.fail, st := (b.ringAdvance n (boundBurst w len)).acknowledge n }
      e q len 0 false false (portDev x false) (fun p => p)).endBurst e d := by
  have whole : ∀ a b : Nat, (if ((u.bindWord e n w).dreq n).isLevel then (if !((u.bindWord e n w).dreq n).level then a else b) else b) = b := by
    intro a b
    rcases asserted with h | h <;> simp only [h, Bool.false_eq_true, if_false, Bool.not_true, ite_self]
  simp only [State.portBurst, hq, carried, Bool.not_true, Bool.false_eq_true, if_false, Bool.false_and, whole, Nat.lt_irrefl, decide_false, Prod.eta, Option.map_id_fun']
  rfl

/-- One burst from the ring to the buffer, on a line that counts requests. -/
theorem State.portBurst_in (edge : ((u.bindWord e n w).dreq n).isLevel = false) :
    let v := u.bindWord e n w
    let d := v.dreq n
    let len := opLen q.op
    let want := min (boundBurst w len) (len - q.moved)
    let g := v.collect e (d.ringPieces want) true x
    let bs := g.bytes.take want
    let b := if w.drp then g.st else State.scatter e q.fn (slicePieces (q.pieces q.op) q.moved want) bs g.st
    let k := if w.drp then 0 else pieceIndex (q.pieces q.op) (q.moved + bs.length)
    u.portBurst e n w true x = (State.wordProgress { bytes := bs.length, fail := g.fail.map (fun f => (k, f.2)), st := (b.ringAdvance n (boundBurst w len)).acknowledge n }
      e q len 0 false false (portDev x false) (fun p => p)).endBurst e d := by
  cases hd : w.drp <;>
    simp only [State.portBurst, hq, carried, edge, hd, Bool.not_true, Bool.not_false, Bool.false_eq_true, if_false, if_true, Bool.true_and, Nat.lt_irrefl, decide_false] <;> rfl

end

end Sys2Proof.Machine

/-! SUPPORT. Port words and SENSE. -/
namespace Sys2Proof.Machine

/-! ## PORT words on UARTs, I²C ports and the GPIO port -/

section
variable {u t : State} {e n : Nat} {q : Prog} {w : Ccw} {x : Xfer}

/-- What a PORT_IN on a UART takes of the bytes received, in the state that its channel carries it in. -/
theorem State.portInUart_rides {gap : Bool} (some : (u.uart n).rx ≠ [] ∨ gap = true) (r : Rides u e w q t) :
    let bs := (t.uart n).rx.take (opLen q.op - q.moved)
    let m := (t.updUart n (fun u => { u with rx := u.rx.drop bs.length })).deliverTo e q (slicePieces (q.pieces q.op) q.moved bs.length) bs w.drp x
    let short := gap && decide (q.moved + bs.length < opLen q.op)
    u.portInUart e n w x gap = (State.wordProgress { m with fail := failAt (q.pieces q.op) (q.moved + m.bytes) m.fail } e q (opLen q.op) 0 short short
      (portDev x (t.uart n).attention) (fun p => p)).dropChan e dsOk := by
  intro bs m short
  have goes : ((u.uart n).rx.isEmpty && !gap) = false := by
    rcases some with h | h
    · rw [List.isEmpty_eq_false_iff.2 h, Bool.false_and]
    · rw [h, Bool.not_true, Bool.and_false]
  rw [State.portInUart, if_neg (by rw [goes]; exact Bool.false_ne_true), r.portCarry]

theorem State.portInUart_empty (h : (u.uart n).rx = []) : u.portInUart e n w x false = u := if_pos (by rw [h]; rfl)

/-- Where no channel is free a word on a port of these kinds stays as it is. -/
theorem State.portInUart_none {gap : Bool} (h : ∀ q, u.prog e = some q → q.chan = none ∧ u.grab e q w = none) : u.portInUart e n w x gap = u := by
  rw [State.portInUart, State.portCarry_none h, ite_self]

end

/-! ## SENSE -/

/-- What a SENSE word does once its checks have passed, with the data `d` of its port (R76, R99). -/
def State.senseWord (s : State) (e : Nat) (p : Prog) (w : Ccw) (x : Xfer) (d : List Byte × State) : State :=
  let n := w.count.toNat
  let bs := d.1.take n
  let m := d.2.deliverTo e p [{ p.bufPiece w with len := bs.length }] bs false x
  match m.fail with
  | some f => m.st.endAtWord e f.2 0
  | none =>
    let v := if w.mode.getLsbD 0 then m.st.clearAttention w.port else m.st
    let mis := decide (d.1.length ≠ n)
    if mis && !w.tol then v.endAtWord e Ending.lengthMismatch 0
    else (v.updProg e (fun q => { (q.deviceDone bs.length 0 (portDev x (s.attention w.port))) with c := mis })).completeWord e .next

section
variable {s : State} {e : Nat} {x : Xfer} {p : Prog} {w : Ccw} {d : List Byte × State}

theorem sense_goes (h : Delivered s e p [w]) (opc : w.opc = 0x41) (checks : s.senseChecks p w = none) (data : s.senseData w.port w.portSub = some d) :
    exec (.sense e x) s = .next (s.senseWord e p w x d) := by
  change execSense e x s = _
  rw [execSense, State.atWord_delivered h _ _ (decide_eq_true opc)]
  refine (State.checked_none h _ _ checks).trans ?_
  simp only [data]
  rfl

/-- The sense data that are not open bytes. -/
theorem senseData_listed (data : s.senseData w.port w.portSub = some d) :
    (∀ k, fpOf w.port = some k → w.portSub = 1 → d = (leBytes 8 (s.fport k).txTs.toNat, s))
    ∧ (∀ k, xtOf w.port = some k → (w.portSub = 0 → d = (leBytes 4 (s.xtStatus k).toNat, s))
        ∧ (w.portSub = 1 → d = (leBytes 4 (s.xt k).records ++ leBytes 4 (s.xt k).werr, s)))
    ∧ (∀ k, i2cOf w.port = some k → d = (leBytes 4 (s.i2c k).nack.toNat, s))
    ∧ (w.port = 0x40 → d = (leBytes 4 s.lpc.gpioStatus.toNat, s)) := by
  unfold State.senseData at data
  refine ⟨fun k hk sel => ?_, fun k hk => ⟨fun sel => ?_, fun sel => ?_⟩, fun k hk => ?_, fun hk => ?_⟩
  · simp only [hk, sel, Nat.one_ne_zero, if_false, if_true] at data
    exact (Option.some.inj data).symm
  · simp only [hk, xtOf_port hk, sel, if_true] at data
    exact (Option.some.inj data).symm
  · simp only [hk, xtOf_port hk, sel, Nat.one_ne_zero, if_false, if_true] at data
    exact (Option.some.inj data).symm
  · simp only [hk, i2cOf_port hk] at data
    split at data
    · exact (Option.some.inj data).symm
    · cases data
  · simp only [gpio_port hk] at data
    split at data
    · exact (Option.some.inj data).symm
    · cases data

end

section
variable {s : State} {e : Nat} {x : Xfer} {p : Prog} {w : Ccw} {d : List Byte × State}

/-- A delivery that fails ends the word. -/
theorem State.senseWord_fails {f : Nat × Ending} (hf : (d.2.deliverTo e p [{ p.bufPiece w with len := (d.1.take w.count.toNat).length }] (d.1.take w.count.toNat) false x).fail = some f) :
    s.senseWord e p w x d = (d.2.deliverTo e p [{ p.bufPiece w with len := (d.1.take w.count.toNat).length }] (d.1.take w.count.toNat) false x).st.endAtWord e f.2 0 := by
  simp only [State.senseWord, hf]

/-- A delivery that is served clears the attention where asked, and completes or ends with the mismatch. -/
theorem State.senseWord_served (hf : (d.2.deliverTo e p [{ p.bufPiece w with len := (d.1.take w.count.toNat).length }] (d.1.take w.count.toNat) false x).fail = none) :
    let n := w.count.toNat
    let bs := d.1.take n
    let m := d.2.deliverTo e p [{ p.bufPiece w with len := bs.length }] bs false x
    let v := if w.mode.getLsbD 0 then m.st.clearAttention w.port else m.st
    s.senseWord e p w x d = if decide (d.1.length ≠ n) && !w.tol then v.endAtWord e Ending.lengthMismatch 0
      else (v.updProg e (fun q => { (q.deviceDone bs.length 0 (portDev x (s.attention w.port))) with c := decide (d.1.length ≠ n) })).completeWord e .next := by
  simp only [State.senseWord, hf]

end

/-! ## The idle gap of a UART -/

theorem uartIdleGap_none {n : Nat} {s : State} (h : s.gapReader n = none) : exec (.uartIdleGap n) s = .next s := by
  change execUartIdleGap n s = _
  rw [execUartIdleGap, h]

/-- The gap ends the PORT_IN that waits, and before it nothing happens. -/
theorem uartIdleGap_reader {n e : Nat} {s u : State} {p : Prog} {w : Ccw} {ws : List Ccw} (h : s.gapReader n = some e) (a : AtPort s u e p w ws true) :
    exec (.uartIdleGap n) s = .next (if (u.uart n).bitNs (w.portSub % 65536) ≤ u.sinceNs (max (u.uart n).lastAt p.execAt) then
      u.portInUart e n w Xfer.none true else u) := by
  obtain ⟨q, y, -, -, since, goes⟩ := a.goesOn
  change execUartIdleGap n s = _
  rw [execUartIdleGap, h]
  refine (goes _).trans ?_
  simp only [since]

/-- The clauses of a Field Port's PORT_OUT. -/
theorem AtPort.outFrame_cases {e f : Nat} {x : Xfer} {s u : State} {p : Prog} {w : Ccw} {ws : List Ccw} (a : AtPort s u e p w ws false) (hp : fpOf w.port = some f) :
    let down := u.fpUp f = false ∨ x.status = .link
    let room := (u.fport f).queued (w.portSub % 8) + opLen p.op ≤ txQueueSize
    (down → exec (.portOut e x) s = .next (u.endAtWord e Ending.linkFault 0))
    ∧ (¬ down → ¬ room → exec (.portOut e x) s = .next u)
    ∧ (¬ down → room → ∀ q t, Rides u e w q t →
        let g := t.collect e (q.pieces q.op) false x
        let bs := if w.portSub.testBit 8 then Config.udpInsert g.bytes else g.bytes
        let t' := if g.fail.isSome then g.st else g.st.updFport f (fun q => { q with
          tx := q.tx ++ [{ bytes := bs ++ List.replicate (60 - bs.length) 0, prio := w.portSub % 8, stamp := w.portSub.testBit 9 }] })
        exec (.portOut e x) s = .next ((State.portDone { bytes := g.bytes.length, fail := g.fail, st := t' } e false (portDev x (u.fport f).attention)).dropChan e dsOk)) := by
  obtain ⟨r, y, hr, op, -, -⟩ := a.goesOn
  refine ⟨fun down => ?_, fun up full => ?_, fun up room q t rides => ?_⟩
  · rw [a.outFrame x hp, State.portOutFrame_down down]
  · rw [a.outFrame x hp, State.portOutFrame_up up hr, if_neg (by rw [op]; exact full)]
  · rw [a.outFrame x hp, State.portOutFrame_up up hr, if_pos (by rw [op]; exact room), rides.portCarry]

/-- Settles O55: what a PORT word and a SENSE do at each kind of port. -/
theorem portWordsMove : Obligations.PortWordsMove := by
  refine ⟨fun e f x s u p w ws a hp => a.outFrame_cases hp, fun e f x s u p w ws a hp => ⟨fun fenced => ?_, fun free q t r => ?_⟩,
    fun e n x s u p w ws => ⟨fun hp a q t r => ?_, fun hp a => ⟨a.inUart x hp, fun empty => ?_⟩, fun hp a q t r => ?_, fun hp a q t r => ?_,
      fun hp a q t r => ?_, fun hp a q t r => ?_, fun kind none => ⟨fun a => ?_, fun a => ?_⟩⟩,
    fun e n x s u p w ws inw a hp => ?_, fun n s => ⟨uartIdleGap_none, fun e u p w ws reader a => ⟨fun due => ?_, fun early => ?_⟩,
      fun e w x gap q t some r => State.portInUart_rides some r⟩,
    fun e x s p w d del opc checks data => ⟨fun f hf => ?_, fun hf mis tol => ?_, fun hf ok => ?_, senseData_listed data⟩⟩
  · exact (a.inFrame x hp).trans (congrArg Host.Outcome.next (if_pos fenced))
  · exact (a.inFrame x hp).trans (congrArg Host.Outcome.next (State.portInFrame_rides free r))
  · exact (a.outUart x hp).trans (congrArg Host.Outcome.next (r.portCarry _))
  · exact (a.inUart x hp).trans (congrArg Host.Outcome.next (State.portInUart_empty empty))
  · exact (a.outI2c x hp).trans (congrArg Host.Outcome.next (r.portCarry _))
  · exact (a.inI2c x hp).trans (congrArg Host.Outcome.next (r.portCarry _))
  · exact (a.outGpio x hp).trans (congrArg Host.Outcome.next (r.portCarry _))
  · exact (a.inGpio x hp).trans (congrArg Host.Outcome.next (r.portCarry _))
  · simp only [Option.isSome_iff_exists] at kind
    obtain ⟨k, hk⟩ | ⟨k, hk⟩ | hk := kind
    · exact (a.outUart x hk).trans (congrArg Host.Outcome.next (State.portCarry_none none _))
    · exact (a.outI2c x hk).trans (congrArg Host.Outcome.next (State.portCarry_none none _))
    · exact (a.outGpio x hk).trans (congrArg Host.Outcome.next (State.portCarry_none none _))
  · simp only [Option.isSome_iff_exists] at kind
    obtain ⟨k, hk⟩ | ⟨k, hk⟩ | hk := kind
    · exact (a.inUart x hk).trans (congrArg Host.Outcome.next (State.portInUart_none none))
    · exact (a.inI2c x hk).trans (congrArg Host.Outcome.next (State.portCarry_none none _))
    · exact (a.inGpio x hk).trans (congrArg Host.Outcome.next (State.portCarry_none none _))
  · have bursts : exec (if inw then .portIn e x else .portOut e x) s = .next (u.portBurst e n w inw x) := by
      cases inw
      · exact a.outBurst x hp
      · exact a.inBurst x hp
    refine ⟨fun q hq chan held => ?_, fun q hq still => ?_, fun q hq carried => ⟨fun out asserted => ?_, fun inward edge => ?_⟩⟩
    · exact bursts.trans (congrArg Host.Outcome.next (State.portBurst_held hq chan held))
    · exact bursts.trans (congrArg Host.Outcome.next (State.portBurst_still hq still))
    · subst out
      exact bursts.trans (congrArg Host.Outcome.next (State.portBurst_out hq carried asserted))
    · subst inward
      exact bursts.trans (congrArg Host.Outcome.next (State.portBurst_in hq carried edge))
  · exact (uartIdleGap_reader reader a).trans (congrArg Host.Outcome.next (if_pos due))
  · exact (uartIdleGap_reader reader a).trans (congrArg Host.Outcome.next (if_neg (Nat.not_le.2 early)))
  · rw [sense_goes del opc checks data, State.senseWord_fails hf]
  · rw [sense_goes del opc checks data, State.senseWord_served hf, if_pos (by rw [mis, tol]; rfl)]
  · rw [sense_goes del opc checks data, State.senseWord_served hf, if_neg]
    rcases ok with h | h
    · rw [h, Bool.false_and]
      exact Bool.false_ne_true
    · rw [h, Bool.not_true, Bool.and_false]
      exact Bool.false_ne_true

end Sys2Proof.Machine
